-- ==== Sys2Proof/Word.lean ====
section
/-! DEFINITION. The word types of the node: bytes, 32-bit register words, byte strings (spec 00 R4, R5, R10). -/
namespace Sys2Proof

/-- One byte of a structure, a frame or a wire format. -/
abbrev Byte := BitVec 8
/-- A register: all registers are 32 bits wide (R10). -/
abbrev Word := BitVec 32
/-- A string of bytes, byte 0 first. -/
abbrev Bytes := List Byte

end Sys2Proof
end

