-- ==== Sys2Proof/Syntax.lean ====
section
/-! DEFINITION. The commands of the node: one constructor for each row of spec/opcode_table.json, with the operands that
the outside supplies at that step (spec 95 lists what each step holds). -/
namespace Sys2Proof

/-- Who makes a register access (18 R445, R447): a PCIe requester by its requester ID, or the board controller. -/
inductive Master where
  | pcie (rid : Nat)
  | sideband
deriving DecidableEq, Repr

/-- The four views of the register window (18 R441, R444). -/
inductive View where
  | normal | set | clear | toggle
deriving DecidableEq, Repr

/-- What reads with one requester ID find in host memory where a step reads it: chunks of bytes at bus addresses. A chunk `none` is a
range whose read fails; a read outside every chunk fails too (10 R261). -/
abbrev AddrView := List (Nat × Option Bytes)

/-- What host memory holds, by the function whose requester ID a read carries: the host IOMMU translates for each on its own (10 R241). -/
abbrev HostView := List (Nat × AddrView)

/-- An entry of a function's MSI-X table as the host writes it: its vector in the function's run, message address and data, and the mask bit of its vector control. -/
structure MsixEntry where
  vec : Nat := 0
  addr : Nat := 0
  data : Nat := 0
  masked : Bool := true
deriving DecidableEq, Repr

/-- The host's answer to one 64-bit AtomicOp Swap with zero (10 R252, R256). -/
inductive SwapReply where
  | value (v : BitVec 64)
  | unsupported
  | failed
deriving DecidableEq, Repr

/-- What the analogue parts and the flash answer during a power-on or node reset sequence (17 R422 to R424). -/
structure BootObs where
  /-- all rails in range, not only those of step 1 (19 R467) -/
  rails : Bool
  /-- the newest entry of the service record was left partly written: it does not verify in phase 1 (19 R469) -/
  torn : Bool
  /-- the record in flash verifies from its oldest entry to its head (16 R416) -/
  chainOk : Bool
  /-- the flash read of the Vitatu image succeeds -/
  flashOk : Bool
  /-- the stored identity key unwraps and matches the fused fingerprint (15 R379) -/
  identityOk : Bool
  /-- the entropy source passes its health tests (15 R363) -/
  entropyOk : Bool
  /-- bit i: HSi trains and its reserved frames read back (17 R422) -/
  stacksOk : BitVec 32
  /-- DIMMs found on each board channel -/
  dimms : List Nat
  /-- capacity of each channel in GiB -/
  gib : List Nat
  /-- bit n: DDR_n, if populated, trains -/
  channelsOk : BitVec 16
  /-- cores whose boot canary fails, with the pattern -/
  canaryFail : List (Nat × Nat)
deriving DecidableEq, Repr

/-- What the memory controllers' ECC met while a command read its frames: a frame, and whether the error could not be corrected
(07 R193; 16 R387; 18 R460). -/
abbrev MemObs := List (Nat × Bool)

/-- A fabric frame (11 R276): the fields of its 40-byte header and its body; `tag` is the 16-byte GCM tag. -/
structure Frame where
  op : Nat := 0
  flags : Nat := 0
  tc : Nat := 0
  hops : Nat := 0
  combine : Nat := 0
  dst : Nat := 0
  src : Nat := 0
  session : Nat := 0
  rtag : Nat := 0
  key : Nat := 0
  size : Nat := 0
  addr : Nat := 0
  counter : Nat := 0
  body : Bytes := []
  tag : Bytes := []
deriving DecidableEq, Repr

/-- What a PAGE_READ asks for (12 R294, R297): the frame, the page field and the block of the work request. R295 gives the packet no
payload and no field for them, so they come beside it (DESIGN CHOICE). -/
structure PageAsk where
  pfn : Nat := 0
  page : Nat := 0
  block : Nat := 0
deriving DecidableEq, Repr

/-- A PAGE_READ besides its packet: what it asks for, and errors of its reads. -/
structure PageReadObs where
  ask : PageAsk := {}
  ecc : MemObs := []
deriving DecidableEq, Repr

/-- What the parity sweep of a bank finds: the position it checks, and entries (bank, position) that have been disturbed since they were
written and that nothing has met yet (09 R238); a staged insert stands at 65,536 plus its register. -/
structure SweepObs where
  pos : Nat := 0
  upsets : List (Nat × Nat) := []
deriving DecidableEq, Repr

/-- A handoff record (03 R80, R84): counter, source and target node and pool, and outcome
(0 offered, 1 accepted, 2 refused). -/
structure HandoffRec where
  counter : Nat := 0
  srcNode : Nat := 0
  srcPool : Nat := 0
  dstNode : Nat := 0
  dstPool : Nat := 0
  outcome : Nat := 0
deriving DecidableEq, Repr

/-- The commands of the node. -/
inductive Instr where
  -- resets and PCIe power states
  | powerOnReset (o : BootObs)
  | nodeReset (flr : Bool) (o : BootObs)
  | vfFlr (f : Nat)
  | vfD3hot (f : Nat)
  | pf0D3hot
  | pf0D0
  | recoveryLoad (m : Master) (hv : HostView) (o : BootObs)
  -- host rings
  | doorbellScan (hv : HostView) (swaps : List SwapReply)
  | doorbellSweep (hv : HostView)
  | descriptorFetch (hv : HostView)
  | msixModerationTimer (vec : Nat)
  | ringEnable (m : Master) (cfg : Nat)
  | ringDisable (m : Master) (cfg : Nat)
  | ringDisabled (ring : Nat)
  -- dispatcher, attention, appends
  | attend (id : Nat) (hv : HostView)
  | slotFill (id : Nat)
  | corePassEnd (id core : Nat) (ecc : MemObs)
  | attendComplete (id : Nat)
  | waitExpired (id : Nat)
  | appendKv (id : Nat) (hv : HostView) (pick : List Nat) (ecc : MemObs)
  | appendCommit (id : Nat)
  | frameRelease (ix : Nat)
  | scrubDone (pfn : Nat)
  | prefixLookup (id : Nat) (hv : HostView)
  | publish (id : Nat) (hv : HostView) (pick : List Nat)
  | unpublish (id : Nat) (hv : HostView)
  | move (id : Nat) (pick : List Nat) (ecc : MemObs)
  | flush (id : Nat)
  | flushInvalidate (id : Nat)
  | free (id : Nat)
  | handoff (id : Nat)
  | handoffDrained (stream : Nat)
  | handoffOffer (ctx stream counter srcNode srcPool dstPool length : Nat) (digest : Bytes)
      (entries : List (Nat × Nat × Nat × BitVec 128))
  | handoffAccept (stream counter : Nat)
  | handoffRefuse (stream counter cause : Nat)
  | handoffTimeout (stream : Nat)
  | handoffQuery (ctx fromNode stream counter : Nat)
  | handoffAnswer (stream counter outcome : Nat)
  | handoffResolve (ctx stream : Nat) (recs : List HandoffRec) (confirmed : Bool)
  -- Coma
  | search (id : Nat) (hv : HostView)
  | searchDone (q : Nat) (ecc : MemObs)
  | comaQueueStart (die : Nat)
  | shardTimeout (q : Nat)
  | create (id : Nat) (hv : HostView) (pick : List Nat)
  | indexWrite (id : Nat) (hv : HostView)
  | tombstone (id : Nat) (hv : HostView)
  | drop (id : Nat) (hv : HostView)
  | indexDrained (index : Nat)
  | queryIndex (id : Nat) (hv : HostView)
  | setEntry (id : Nat) (hv : HostView)
  -- osier runs and fences
  | osierRun (id : Nat) (hv : HostView)
  | osierRunDone (id : Nat)
  | fence (id : Nat)
  -- contexts and images
  | contextCreate (id : Nat) (hv : HostView)
  | contextRemove (id : Nat) (hv : HostView)
  | slotScrubStart (ctx : Nat)
  | contextRemoveDone (ctx : Nat)
  | imageLoad (id : Nat) (hv : HostView)
  | imageUnload (id : Nat)
  | retireDrained (handle : Nat)
  | tableSlotFree (slot : Nat)
  -- stage bank and commit
  | stageWrite (id : Nat) (hv : HostView)
  | stageCheck (id : Nat)
  | stageCommit (id : Nat)
  | stageAppend (m : Master)
  | check (m : Master)
  | commit (m : Master)
  | stageClear (m : Master)
  | commitApply
  | generationRetired (gen : Nat)
  -- rim merge
  | partialRec (die cluster : Nat) (rec : Bytes)
  | mergeTimeout (id head : Nat)
  | arrivalTimeout (tag attempt : Nat)
  | shadowUnmatched (tag attempt head : Nat)
  -- osier instructions, issued by a unit (0 to 2,047)
  | oNop (unit : Nat)
  | oYield (unit : Nat)
  | oHalt (unit : Nat)
  | oLoop (unit : Nat)
  | oSetc (unit : Nat)
  | oSeta (unit : Nat)
  | oAdda (unit : Nat)
  | oNext (unit : Nat)
  | oLd (unit : Nat)
  | oSt (unit : Nat)
  | oLdl (unit : Nat)
  | oStl (unit : Nat)
  | oAdd (unit : Nat)
  | oMul (unit : Nat)
  | oFold (unit : Nat)
  | oAct (unit : Nat)
  | oMsk (unit : Nat)
  | oOut (unit : Nat)
  | oImac (unit : Nat)
  -- osier refresh and regions
  | refreshDue (unit : Nat)
  | yieldWindowExpiry (unit : Nat)
  | refreshDone (unit : Nat)
  | unsealPool (m : Master) (stack : Nat)
  | unsealOwned (m : Master) (stack ctx : Nat)
  | sealRegion (m : Master) (stack : Nat)
  | sealSweepStart (stack region : Nat)
  | sealSweepDone (stack region : Nat) (ecc : MemObs)
  | release (m : Master) (stack : Nat)
  | releaseScrubDone (stack region : Nat)
  | unitStart (m : Master) (unit entry : Nat)
  | unitHalt (m : Master) (unit : Nat)
  -- Plait
  | plaitSearch (m : Master) (owner : Nat)
  | plaitNext (m : Master) (owner : Nat)
  | plaitInsert (m : Master) (owner prio : Nat)
  | plaitInsertUnique (m : Master) (owner prio : Nat)
  | plaitDelete (m : Master) (owner prio : Nat)
  | plaitIssue
  | plaitResult
  | shiftDone (bank : Nat)
  | plaitParitySweep (bank : Nat) (o : SweepObs)
  -- ports and link control
  | portEnable (m : Master) (port data : Nat)
  | portRetrain (m : Master) (port : Nat)
  | detect (port : Nat)
  | equalise (port : Nat) (lanes : BitVec 8)
  | lock (port : Nat)
  | peerExchange (port node kind : Nat) (credits : List Nat)
  | trainingTimeout (port : Nat)
  | portRetry (port : Nat)
  | fecLimitExceeded (port codewords : Nat)
  | portDown (port : Nat)
  | flitReceive (port : Nat) (flit : Bytes) (corrected : Nat)
  | replayTimeout (port : Nat)
  | authHello (port : Nat) (body : Bytes)
  | authProof (port : Nat) (body : Bytes)
  | sessionOpen (port session tenant gen : Nat)
  | sessionAccept (port session : Nat)
  | sessionRefuse (port session cause : Nat)
  | sessionClose (port session : Nat)
  | sessionRekey (port session : Nat)
  -- loads, stores, atomics at the target, and their responses
  | load (port : Nat) (f : Frame) (ecc : MemObs)
  | store (port : Nat) (f : Frame)
  | fetchAdd (port : Nat) (f : Frame) (ecc : MemObs)
  | swap (port : Nat) (f : Frame) (ecc : MemObs)
  | cmpSwap (port : Nat) (f : Frame) (ecc : MemObs)
  | fetchMin (port : Nat) (f : Frame) (ecc : MemObs)
  | fetchMax (port : Nat) (f : Frame) (ecc : MemObs)
  | loadResp (f : Frame)
  | storeResp (f : Frame)
  | atomicResp (f : Frame)
  | requestTimeout (rtag : Nat)
  | rtagHoldExpiry (rtag : Nat)
  | quiesceRelease (m : Master)
  | fabCmdLoad (m : Master) (ctx : Nat) (combinable : Bool)
  | fabCmdStore (m : Master) (ctx : Nat) (combinable : Bool)
  | fabCmdFetchAdd (m : Master) (ctx : Nat) (combinable : Bool)
  | fabCmdSwap (m : Master) (ctx : Nat) (combinable : Bool)
  | fabCmdCmpSwap (m : Master) (ctx : Nat) (combinable : Bool)
  | fabCmdFetchMin (m : Master) (ctx : Nat) (signed combinable : Bool)
  | fabCmdFetchMax (m : Master) (ctx : Nat) (signed combinable : Bool)
  -- queue pairs, regions, work requests
  | qpCreate (m : Master)
  | qpReset (m : Master)
  | qpDestroy (m : Master)
  | qpDrained (qpn : Nat)
  | register (m : Master)
  | revoke (m : Master)
  | revokeDone (index : Nat)
  | qpePost (m : Master) (qpn : Nat)
  | qpSend (qpn : Nat) (ecc : MemObs)
  | write (port : Nat) (f : Frame)
  | readReq (port : Nat) (f : Frame) (ecc : MemObs)
  | readResp (port : Nat) (f : Frame)
  | page (port : Nat) (f : Frame) (pick : List Nat)
  | pageRead (port : Nat) (f : Frame) (o : PageReadObs)
  | ack (port : Nat) (f : Frame)
  | nak (port : Nat) (f : Frame)
  | ackTimer (qpn : Nat)
  | retransmitTimeout (qpn : Nat)
  | nakHintExpiry (qpn : Nat)
  | contextFetchDone (qpn : Nat) (ecc : MemObs)
  | shardRequest (qpn : Nat) (body : Bytes)
  | shardAnswer (q shard : Nat) (body : Bytes)
  | parityDelta (fromNode : Nat) (body : Bytes) (pick : List Nat)
  | remoteAttend (qpn : Nat) (body : Bytes)
  -- egress
  | egressFrameStart (port now : Nat)
  | gateEntryEnd (port cls : Nat)
  | gateInstall (m : Master) (port : Nat)
  | gateCancel (m : Master) (port : Nat)
  | gateBase (port : Nat)
  -- Ledger, brake, thermal, sleep
  | windowOpen (measured : Nat)
  | budgetWrite (m : Master) (watts : Nat)
  | brakeAssert (acts : Bool)
  | brakeDeassert (held : Nat)
  | brakeRelease
  | sustainedBrakeEnter
  | sustainedBrakeExit
  | brakeAck (m : Master)
  | thermalSample (readings : List (Option Nat))
  | thermalTrip (sensor reading : Nat)
  | lockLost
  | clusterReqWrite (m : Master) (v : View) (data : Nat)
  | clusterSleep (cluster : Nat)
  | clusterPowerUp (cluster : Nat) (tablesOk canaryOk : Bool)
  | stackSleep (stack : Nat)
  | stackWake (stack : Nat)
  -- security
  | drbgReseed
  | rngHealthFail
  | erase (m : Master) (fullOverwrite keepKeys : Bool)
  | enrolKey (m : Master) (entry roles : Nat)
  | removeKey (m : Master) (entry : Nat)
  | setCredential (m : Master)
  | attest (m : Master)
  | advanceSv (m : Master)
  | secDataAccess (m : Master) (w : Option Nat)
  -- faults, recovery, canaries
  | fenceNode (m : Master)
  | unfenceNode (m : Master)
  | fenceUnit (m : Master) (kind index : Nat)
  | rejoinUnit (m : Master) (kind index : Nat) (epochFree tablesOk canaryOk : Bool)
  | epochWaitTimeout (kind index : Nat)
  | rebuildSend (m : Master)
  | rebuildRecv (m : Master)
  | shadowStart (m : Master)
  | promote (m : Master)
  | safe (m : Master) (confirm : Nat)
  | groupActivate (m : Master) (ctx : Nat)
  | canaryDue
  | canaryDone (core : Nat) (pass : Bool)
  | watchdogTimeout
  | lockstepMismatch
  | hourly
  | tierFlush (m : Master) (invalidate : Bool)
  | paritySweep (bad : Option (Nat × Word)) (use : Bool)
  -- register window
  | registerWrite (m : Master) (v : View) (addr : Nat) (data : Nat) (size be : Nat)
  | seqWriteBack (m : Master) (addr data : Nat)
  | statusRead (m : Master) (addr size : Nat)
  | loReadLatch (m : Master) (addr size : Nat)
  | parityAddrRead (m : Master)
  | svcDataRead (m : Master)
  -- sideband
  | sbRead (cmd : Bytes)
  | sbReadFifo (cmd : Bytes)
  | sbWrite (cmd : Bytes)
  | sbResponse
  | enec (events : Nat)
  | disec (events : Nat)
  | rstdaa
  | setdasa (static dynamic : Nat)
  | entdaa (dynamic : Nat)
  | getpid
  | getbcr
  | getdcr
  | getstatus
  -- pins and ends of long operations
  | modPorNAssert
  | pciePerstNRelease (o : BootObs)
  | msixUnmask (fn : Nat) (e : MsixEntry)
  | imageLoadComplete (handle : Nat)
  | pageMoveStepEnd (id : Nat)
  | tierFlushDone
  | eraseDone
deriving DecidableEq, Repr

end Sys2Proof
end

