-- ==== Sys2Proof/Decode.lean ====
section
/-! DEFINITION. The command a word spells. The opcode table gives no row any bits: commands are register accesses, descriptors,
frames and events, not words. -/
namespace Sys2Proof

/-- The command that a word of the table's bits spells: no row has bits, so none. -/
def decodeTableWord (_nbits _w : Nat) : Option Instr := none

end Sys2Proof
end

