-- ==== Sys2Proof/Machine/Codes.lean ====
section
/-! DEFINITION. The status codes (10 R263 and the error rules of the chapters): the code of the i-th name of a row is the row's
base plus i. -/
namespace Sys2Proof.Machine.St

/-! base 0x0000 (10 R263) -/
abbrev OK : Nat := 0x0000
abbrev KIND_INVALID : Nat := 0x0001
abbrev PRIVILEGE : Nat := 0x0002
abbrev CONTEXT_ABSENT : Nat := 0x0003
abbrev HOST_READ_ERROR : Nat := 0x0004
abbrev STEP_FAULT : Nat := 0x0005

/-! base 0x0100 (10 R263) -/
abbrev FMT_CODE_INVALID : Nat := 0x0100
abbrev FMT_SCALE_REQUIRED : Nat := 0x0101
abbrev FMT_BLOCK_SHAPE : Nat := 0x0102
abbrev FMT_UNIT_MISMATCH : Nat := 0x0103
abbrev FMT_SAT_MODE : Nat := 0x0104
abbrev FMT_SR_TARGET : Nat := 0x0105
abbrev FMT_P8L_OPERAND : Nat := 0x0106

/-! base 0x0200 (10 R263) -/
abbrev PFN_INVALID : Nat := 0x0200
abbrev PAGE_HEADER_BAD : Nat := 0x0201
abbrev PAGE_OVERFLOW : Nat := 0x0202
abbrev POSITION_GAP : Nat := 0x0203
abbrev QUOTA_EXCEEDED : Nat := 0x0204
abbrev POOL_EXHAUSTED : Nat := 0x0205
abbrev PAGE_SHARED : Nat := 0x0206
abbrev STREAM_ABSENT : Nat := 0x0207
abbrev STREAM_MOVING : Nat := 0x0208
abbrev NOT_OWNER : Nat := 0x0209
abbrev STREAM_LOST : Nat := 0x020A
abbrev STREAM_NOT_EMPTY : Nat := 0x020B
abbrev PREFIX_BLOCK_UNFIT : Nat := 0x020C
abbrev HANDOFF_REFUSED : Nat := 0x020D
abbrev COUNT_INVALID : Nat := 0x020E

/-! base 0x0300 (10 R263) -/
abbrev HEAD_GEOMETRY : Nat := 0x0300

/-! base 0x0400 (10 R263) -/
abbrev HANDLE_BUSY : Nat := 0x0400
abbrev WEFT_BAD_HEADER : Nat := 0x0401
abbrev WEFT_TARGET : Nat := 0x0402
abbrev WEFT_STORE_UNSET : Nat := 0x0403
abbrev WEFT_STORE_FULL : Nat := 0x0404
abbrev WEFT_DIGEST : Nat := 0x0405
abbrev WEFT_SIGNATURE : Nat := 0x0406
abbrev WEFT_SECTION : Nat := 0x0407
abbrev WEFT_BUCKETS : Nat := 0x0408
abbrev WEFT_OP_INVALID : Nat := 0x0409
abbrev WEFT_SLOTS : Nat := 0x040A
abbrev WEFT_MERGE : Nat := 0x040B
abbrev WEFT_REF : Nat := 0x040C
abbrev WEFT_NO_TABLE_SLOT : Nat := 0x040D
abbrev NO_VARIANT : Nat := 0x040E
abbrev RANK_GROUP : Nat := 0x040F
abbrev IMAGE_RETIRING : Nat := 0x0410
abbrev WAIT_EXPIRED : Nat := 0x0411
abbrev HANDLE_FREE : Nat := 0x0412

/-! base 0x0500 (10 R263) -/
abbrev TABLE_BAD : Nat := 0x0500
abbrev TABLE_GEN_RETIRED : Nat := 0x0501
abbrev TABLE_MISMATCH : Nat := 0x0502
abbrev CODE_INVALID : Nat := 0x0503
abbrev CODE_OVERRUN : Nat := 0x0504
abbrev CODE_LENGTH : Nat := 0x0505
abbrev TABLE_UNBOUND : Nat := 0x0506

/-! base 0x0600 (10 R263) -/
abbrev REGION_BUSY : Nat := 0x0600
abbrev REGION_STATE : Nat := 0x0601
abbrev OSIER_GEOMETRY : Nat := 0x0602
abbrev OSIER_TABLE : Nat := 0x0603
abbrev OSIER_PROGRAM : Nat := 0x0604
abbrev OSIER_ACCESS : Nat := 0x0605
abbrev OSIER_FLUSH_GEN : Nat := 0x0606
abbrev OSIER_BOUNDS : Nat := 0x0607

/-! base 0x0700 (10 R263) -/
abbrev COMA_INDEX_INVALID : Nat := 0x0700
abbrev COMA_INDEX_DROPPING : Nat := 0x0701
abbrev COMA_PARAM : Nat := 0x0702
abbrev COMA_ROW_RANGE : Nat := 0x0703
abbrev COMA_ACCESS : Nat := 0x0704
abbrev COMA_DISABLED : Nat := 0x0705

/-! base 0x0800 (10 R263) -/
abbrev PLAIT_FULL : Nat := 0x0800
abbrev EXISTS : Nat := 0x0801
abbrev NOT_FOUND : Nat := 0x0802
abbrev MASK_EMPTY : Nat := 0x0803
abbrev PLAIT_NO_BANK : Nat := 0x0804
abbrev PLAIT_KIND : Nat := 0x0805
abbrev PLAIT_DISABLED : Nat := 0x0806

/-! base 0x0900 (11 R289) -/
abbrev ADDR_SPACE : Nat := 0x0900
abbrev KEY_INVALID : Nat := 0x0901
abbrev REVOKED : Nat := 0x0902
abbrev KEY_RIGHTS : Nat := 0x0903
abbrev KEY_BOUNDS : Nat := 0x0904
abbrev ACCESS_ALIGN : Nat := 0x0905
abbrev COMBINE_INVALID : Nat := 0x0906
abbrev DATA_POISON : Nat := 0x0907
abbrev TARGET_FENCED : Nat := 0x0908
abbrev TARGET_TIMEOUT : Nat := 0x0909
abbrev NO_ROUTE : Nat := 0x090A
abbrev CONTEXT_QUIESCED : Nat := 0x090B

/-! base 0x0A00 (12 R313) -/
abbrev QP_INVALID : Nat := 0x0A00
abbrev QP_STATE : Nat := 0x0A01
abbrev PSN_SEQUENCE : Nat := 0x0A02
abbrev CONTEXT_NOT_READY : Nat := 0x0A03
abbrev RECEIVER_BUSY : Nat := 0x0A04
abbrev DOMAIN_MISMATCH : Nat := 0x0A05
abbrev OP_INVALID : Nat := 0x0A06
abbrev LENGTH_INVALID : Nat := 0x0A07
abbrev RETRY_EXCEEDED : Nat := 0x0A08
abbrev QP_FLUSHED : Nat := 0x0A09
abbrev NO_PATH : Nat := 0x0A0A
abbrev REGION_FULL : Nat := 0x0A0B
abbrev REGION_NOT_VALID : Nat := 0x0A0C

/-! base 0x0B00 (13 R333) -/
abbrev POLICED : Nat := 0x0B00
abbrev GATE_LIST_BAD : Nat := 0x0B01
abbrev GATE_WINDOW_SHORT : Nat := 0x0B02
abbrev GATE_LATE : Nat := 0x0B03
abbrev GATE_BUSY : Nat := 0x0B04

/-! base 0x0D00 (15 R385) -/
abbrev CONTEXT_BUSY : Nat := 0x0D00
abbrev CONTEXT_SLICE : Nat := 0x0D01
abbrev RNG_FAILED : Nat := 0x0D02
abbrev KEY_STORE_FULL : Nat := 0x0D03
abbrev KEY_ABSENT : Nat := 0x0D04
abbrev BLOB_BAD : Nat := 0x0D05
abbrev SEC_BUSY : Nat := 0x0D06
abbrev NO_TENANT : Nat := 0x0D07
abbrev SESSION_EXISTS : Nat := 0x0D08
abbrev SESSION_FULL : Nat := 0x0D09
abbrev CRED_REFUSED : Nat := 0x0D0A

/-! base 0x0E00 (16 R420) -/
abbrev NODE_FENCED : Nat := 0x0E00
abbrev FAULT_CMD_INVALID : Nat := 0x0E01
abbrev GROUP_INVALID : Nat := 0x0E02
abbrev GROUP_BUSY : Nat := 0x0E03
abbrev REBUILD_FAILED : Nat := 0x0E04
abbrev SHADOW_STATE : Nat := 0x0E05
abbrev EPOCH_BUSY : Nat := 0x0E06
abbrev REJOIN_FAILED : Nat := 0x0E07

/-! base 0x0F00 (17 R440) -/
abbrev STAGE_ENTRY_BAD : Nat := 0x0F00
abbrev STAGE_FULL : Nat := 0x0F01
abbrev STAGE_LOCKED : Nat := 0x0F02
abbrev MAP_OVERLAP : Nat := 0x0F03
abbrev MAP_CONTEXT_SLICE : Nat := 0x0F04
abbrev MAP_IN_USE : Nat := 0x0F05
abbrev MAP_NODE_FRAMES : Nat := 0x0F06
abbrev MAP_DRAINING : Nat := 0x0F07
abbrev NOT_CHECKED : Nat := 0x0F08
abbrev COMMIT_STALE : Nat := 0x0F09
abbrev BOOT_NOT_READY : Nat := 0x0F0A
abbrev RECOVERY_IMAGE_BAD : Nat := 0x0F0B

end Sys2Proof.Machine.St
end

