-- ==== Sys2Proof/Machine/Bits.lean ====
section
/-! DEFINITION. Bit fields, little-endian byte strings (R5), the CRCs, SHA-256 and RSASSA-PSS verification (15 R378). -/
namespace Sys2Proof.Machine
open Sys2Proof

/-! ### Fields and bytes -/

/-- Bits [lo + w - 1 : lo] of a number. -/
def fld (v lo w : Nat) : Nat := v / 2 ^ lo % 2 ^ w

/-- The number with bits [lo + w - 1 : lo] replaced by `x`. -/
def putFld (v lo w x : Nat) : Nat := v - fld v lo w * 2 ^ lo + x % 2 ^ w * 2 ^ lo

/-- Bit `i` of a number. -/
def bitOf (v i : Nat) : Bool := v / 2 ^ i % 2 == 1

def b2n (b : Bool) : Nat := if b then 1 else 0

/-- The value of a little-endian byte string (R5). -/
def le : Bytes → Nat
  | [] => 0
  | b :: bs => b.toNat + 256 * le bs

/-- The value of a big-endian byte string. -/
def be (bs : Bytes) : Nat := bs.foldl (fun n b => 256 * n + b.toNat) 0

/-- `n` bytes of `v`, little-endian (R5). -/
def putLe : Nat → Nat → Bytes
  | 0, _ => []
  | n + 1, v => BitVec.ofNat 8 v :: putLe n (v / 256)

/-- `n` bytes of `v`, big-endian. -/
def putBe (n v : Nat) : Bytes := (putLe n v).reverse

/-- Bytes [off, off + n). -/
def slice (bs : Bytes) (off n : Nat) : Bytes := (bs.drop off).take n

/-- The little-endian field of `n` bytes at `off`. -/
def leAt (bs : Bytes) (off n : Nat) : Nat := le (slice bs off n)

/-- A string cut or filled with zeros to `n` bytes. -/
def fit (n : Nat) (bs : Bytes) : Bytes := bs.take n ++ List.replicate (n - bs.length) 0

def zeros (n : Nat) : Bytes := List.replicate n 0

/-- `bs` with the bytes from `off` on overwritten by `d`; `bs` is lengthened with zeros where it is too short. -/
def putAt (bs : Bytes) (off : Nat) (d : Bytes) : Bytes := fit off bs ++ d ++ bs.drop (off + d.length)

/-- Chunks of `n` bytes; the last may be shorter. -/
def chunks (n : Nat) (bs : Bytes) : List Bytes :=
  (List.range ((bs.length + n - 1) / n)).map fun i => slice bs (n * i) n

def xorB (a b : Bytes) : Bytes := (fit (max a.length b.length) a).zipWith (· ^^^ ·) (fit (max a.length b.length) b)

/-- The bits of a little-endian string, bit 0 of byte 0 first (R27, R150). -/
def bitsOf (bs : Bytes) : List Bool := bs.flatMap fun b => (List.range 8).map b.getLsbD

/-- Bits packed into bytes, the first in bit 0 of byte 0; the last byte is filled with zeros. -/
def packBits (bs : List Bool) : Bytes :=
  (List.range ((bs.length + 7) / 8)).map fun i =>
    BitVec.ofNat 8 (((bs.drop (8 * i)).take 8).reverse.foldl (fun n b => 2 * n + b2n b) 0)

def popcount (bs : Bytes) : Nat := (bitsOf bs).countP id

/-- Ceiling division. -/
def cdiv (a b : Nat) : Nat := (a + b - 1) / b

/-- Numbers lo to hi, both included. -/
def span (lo hi : Nat) : List Nat := (List.range (hi + 1 - lo)).map (lo + ·)

/-- Insert before the first element that is not before it. -/
def insertBy {α : Type} (before : α → α → Bool) (x : α) : List α → List α
  | [] => [x]
  | y :: ys => if before y x then y :: insertBy before x ys else x :: y :: ys

/-- Sorted list; equal elements keep their order. -/
def sortBy {α : Type} (before : α → α → Bool) : List α → List α
  | [] => []
  | x :: xs => insertBy (fun a b => before a b) x (sortBy before xs)

/-- Numbers set in a mask, rising. -/
def maskBits (n v : Nat) : List Nat := (List.range n).filter fun i => bitOf v i

/-! ### CRCs -/

def crcRefl (poly : Nat) (c : Nat) : Nat := if c % 2 = 1 then c / 2 ^^^ poly else c / 2

/-- CRC-32C (Castagnoli, reflected). PRESUMED: initial value and final inversion of all ones, as the published CRC has. -/
def crc32c (bs : Bytes) : Nat :=
  bs.foldl (fun c b => (List.range 8).foldl (fun c _ => crcRefl 0x82F63B78 c) (c ^^^ b.toNat)) 0xFFFFFFFF ^^^ 0xFFFFFFFF

def crcMsb (w poly c : Nat) : Nat :=
  if c / 2 ^ (w - 1) % 2 = 1 then (2 * c) % 2 ^ w ^^^ poly else (2 * c) % 2 ^ w

/-- CRC-64 with the ECMA-182 polynomial (11 R268). PRESUMED: initial value 0, not reflected, no final inversion. -/
def crc64 (bs : Bytes) : Nat :=
  bs.foldl (fun c b => (List.range 8).foldl (fun c _ => crcMsb 64 0x42F0E1EBA9EA3693 c) (c ^^^ b.toNat * 2 ^ 56)) 0

/-- CRC-8 with polynomial 0x07 and initial value 0 (18 R457). -/
def crc8 (bs : Bytes) : Nat :=
  bs.foldl (fun c b => (List.range 8).foldl (fun c _ => crcMsb 8 0x07 c) (c ^^^ b.toNat)) 0

/-! ### SHA-256 (FIPS 180-4) -/

/-- The first 32 bits after the point of the k-th root of a number below 2^12, bit by bit from the top. -/
def rootFrac (k v : Nat) : Nat :=
  (List.range 37).foldl (fun r i => if (r + 2 ^ (36 - i)) ^ k ≤ v * 2 ^ (32 * k) then r + 2 ^ (36 - i) else r) 0 % 2 ^ 32

/-- The primes up to 311, the 64th. -/
def shaPrimes : List Nat := (span 2 311).filter fun n => [2, 3, 5, 7, 11, 13, 17].all fun d => d == n || n % d != 0

/-- The round constants are of cube roots, the initial hash of square roots. -/
def shaK : List Nat := shaPrimes.map (rootFrac 3)
def shaInit : List Nat := (shaPrimes.take 8).map (rootFrac 2)

def rotr32 (x n : Nat) : Nat := x / 2 ^ n + x % 2 ^ n * 2 ^ (32 - n)

def not32 (x : Nat) : Nat := 0xFFFFFFFF - x

/-- One round: working variables and the last 16 words of the message schedule. -/
def shaRound (st : List Nat × List Nat) (k : Nat) : List Nat × List Nat :=
  match st with
  | ([a, b, c, d, e, f, g, h], w) =>
    let w0 := w.getD 0 0
    let w1 := w.getD 1 0
    let w14 := w.getD 14 0
    let next := (w0 + (rotr32 w1 7 ^^^ rotr32 w1 18 ^^^ w1 / 8) + w.getD 9 0 +
      (rotr32 w14 17 ^^^ rotr32 w14 19 ^^^ w14 / 1024)) % 2 ^ 32
    let t1 := h + (rotr32 e 6 ^^^ rotr32 e 11 ^^^ rotr32 e 25) + (e &&& f ^^^ not32 e &&& g) + k + w0
    let t2 := (rotr32 a 2 ^^^ rotr32 a 13 ^^^ rotr32 a 22) + (a &&& b ^^^ a &&& c ^^^ b &&& c)
    ([(t1 + t2) % 2 ^ 32, a, b, c, (d + t1) % 2 ^ 32, e, f, g], w.drop 1 ++ [next])
  | other => other

def shaBlock (h : List Nat) (blk : Bytes) : List Nat :=
  (h.zipWith (fun a b => (a + b) % 2 ^ 32)) (shaK.foldl shaRound (h, (chunks 4 blk).map be)).1

def sha256 (m : Bytes) : Bytes :=
  let pad := (119 - m.length % 64) % 64
  let p := m ++ [0x80#8] ++ zeros pad ++ putBe 8 (8 * m.length)
  ((chunks 64 p).foldl shaBlock shaInit).flatMap (putBe 4)

/-! ### RSASSA-PSS verification (15 R378): RSA-3072, e = 65,537, SHA-256, MGF1 with SHA-256, a 32-byte salt -/

def pssExp (s n : Nat) : Nat := (List.range 16).foldl (fun x _ => x * x % n) s * s % n

def mgf1 (seed : Bytes) (n : Nat) : Bytes :=
  ((List.range (cdiv n 32)).flatMap fun i => sha256 (seed ++ putBe 4 i)).take n

/-- EMSA-PSS verification of RFC 8017 with emBits = 3,071 (the modulus has 3,072 bits). -/
def pssVerify (modulus msg sig : Bytes) : Bool :=
  let n := be modulus
  let s := be sig
  let em := putBe 384 (pssExp s n)
  let masked := em.take 351
  let h := slice em 351 32
  let db := xorB masked (mgf1 h 351)
  let db := match db with
    | b :: bs => (b &&& 0x7F) :: bs
    | [] => []
  sig.length = 384 && decide (s < n) && decide (pssExp s n < 2 ^ 3071) && em.getD 383 0 == 0xBC#8 &&
    (db.take 318).all (· == 0#8) && db.getD 318 0 == 1#8 &&
    h == sha256 (zeros 8 ++ sha256 msg ++ db.drop 319)

end Sys2Proof.Machine
end

