-- ==== Sys2Proof/Machine/Fp.lean ====
section
/-! DEFINITION. Number formats and arithmetic (spec 02): exact values, rounding to each format, block scales, exp2 and P8L. -/
namespace Sys2Proof.Machine
open Sys2Proof

/-- A value before rounding: a NaN, an infinity, or (-1)^neg x m x 2^e exactly. -/
inductive Num where
  | nan
  | inf (neg : Bool)
  | fin (neg : Bool) (m : Nat) (e : Int)
deriving DecidableEq, Repr

def Num.zero : Num := .fin false 0 0

/-- How the encodings above the ordinary ones are used (R21, R25): IEEE infinities and NaNs, E4M3's one NaN, or none. -/
inductive Top where
  | ieee | e4m3 | none
deriving DecidableEq, Repr

/-- A floating-point format of R21. -/
structure FFmt where
  eb : Nat
  bias : Nat
  mb : Nat
  top : Top
deriving DecidableEq, Repr

def fp32 : FFmt := { eb := 8, bias := 127, mb := 23, top := .ieee }
def bf16 : FFmt := { eb := 8, bias := 127, mb := 7, top := .ieee }
def fp16 : FFmt := { eb := 5, bias := 15, mb := 10, top := .ieee }

/-- The floating-point formats by code (R21). -/
def ffmt (code : Nat) : Option FFmt :=
  match code with
  | 0 => some fp32
  | 1 => some bf16
  | 2 => some fp16
  | 3 => some { eb := 4, bias := 7, mb := 3, top := .e4m3 }
  | 4 => some { eb := 5, bias := 15, mb := 2, top := .ieee }
  | 5 => some { eb := 3, bias := 3, mb := 2, top := .none }
  | 6 => some { eb := 2, bias := 1, mb := 3, top := .none }
  | 7 => some { eb := 2, bias := 1, mb := 1, top := .none }
  | _ => none

/-- Width in bits of one element of a format (R21). -/
def fmtWidth (code : Nat) : Nat :=
  match code with
  | 0 => 32
  | 1 => 16
  | 2 => 16
  | 3 => 8
  | 4 => 8
  | 5 => 6
  | 6 => 6
  | 7 => 4
  | 8 => 8
  | 9 => 4
  | 10 => 16
  | 11 => 8
  | 12 => 1
  | 14 => 8
  | _ => 0

/-- Exponent of a format's largest power of two, for block scaling (R29); none where R28 does not allow scaling. -/
def fmtEmax (code : Nat) : Option Int :=
  match code with
  | 3 => some 8
  | 4 => some 15
  | 5 => some 4
  | 6 => some 2
  | 7 => some 2
  | 8 => some 6
  | 9 => some 2
  | _ => none

/-- Element formats of KV pages (R47). -/
def isKvFmt (code : Nat) : Bool := 1 ≤ code && code ≤ 9

/-- V formats a P8L variant accepts (R44). -/
def isP8lFmt (code : Nat) : Bool := 3 ≤ code && code ≤ 7

/-! ### Decoding -/

def FFmt.width (f : FFmt) : Nat := 1 + f.eb + f.mb

/-- Magnitude encoding of the largest finite number. -/
def FFmt.maxMag (f : FFmt) : Nat :=
  match f.top with
  | .ieee => (2 ^ f.eb - 1) * 2 ^ f.mb - 1
  | .e4m3 => 2 ^ (f.eb + f.mb) - 2
  | .none => 2 ^ (f.eb + f.mb) - 1

/-- Exponent of the last place of subnormals. -/
def FFmt.emin (f : FFmt) : Int := 1 - (f.bias : Int) - f.mb

def FFmt.decode (f : FFmt) (bits : Nat) : Num :=
  let mag := bits % 2 ^ (f.eb + f.mb)
  let neg := bitOf bits (f.eb + f.mb)
  let ex := mag / 2 ^ f.mb
  let ma := mag % 2 ^ f.mb
  if mag > f.maxMag then
    if f.top = .ieee && ma = 0 then .inf neg else .nan
  else if ex = 0 then .fin neg ma f.emin
  else .fin neg (2 ^ f.mb + ma) (f.emin + ex - 1)

def signed (w v : Nat) : Int := if bitOf v (w - 1) then (v % 2 ^ w : Nat) - (2 ^ w : Nat) else (v % 2 ^ w : Nat)

def Num.ofInt (i : Int) : Num := .fin (decide (i < 0)) i.natAbs 0

/-- The value of an element's bits in a format code (R21 to R26). A code that names no number reads as NaN. -/
def elemVal (code bits : Nat) : Num :=
  match ffmt code with
  | some f => f.decode bits
  | none =>
    if code = 8 then Num.ofInt (signed 8 bits)
    else if code = 9 then Num.ofInt (signed 4 bits)
    else if code = 10 then Num.ofInt (signed 16 bits)
    else if code = 11 then (if bits % 256 = 255 then .nan else .fin false 1 ((bits % 256 : Nat) - 127))
    else .nan

/-- A value under a UE8M0 scale code (R28, R30). -/
def scaled (v : Num) (code : Nat) : Num :=
  if code = 255 then .nan
  else match v with
    | .fin n m e => .fin n m (e + ((code : Int) - 127))
    | v => v

/-! ### Exact arithmetic -/

def Num.neg : Num → Num
  | .nan => .nan
  | .inf n => .inf !n
  | .fin n m e => .fin (!n) m e

def Num.mul : Num → Num → Num
  | .nan, _ => .nan
  | _, .nan => .nan
  | .inf a, .inf b => .inf (a != b)
  | .inf a, .fin b m _ => if m = 0 then .nan else .inf (a != b)
  | .fin b m _, .inf a => if m = 0 then .nan else .inf (a != b)
  | .fin a m e, .fin b n f => .fin (a != b) (m * n) (e + f)

def signedMag (n : Bool) (m : Nat) : Int := if n then -(m : Int) else m

/-- Exact sum. A zero sum is -0 only when both terms are -0. -/
def Num.add : Num → Num → Num
  | .nan, _ => .nan
  | _, .nan => .nan
  | .inf a, .inf b => if a = b then .inf a else .nan
  | .inf a, _ => .inf a
  | _, .inf b => .inf b
  | .fin a m e, .fin b n f =>
    let g := min e f
    let s := signedMag a (m * 2 ^ (e - g).toNat) + signedMag b (n * 2 ^ (f - g).toNat)
    if s = 0 then .fin (a && b) 0 0 else .fin (decide (s < 0)) s.natAbs g

def Num.sum : List Num → Num
  | [] => .zero
  | [x] => x
  | x :: xs => xs.foldl Num.add x

def Num.isInf : Num → Bool
  | .inf _ => true
  | _ => false

def Num.isNan : Num → Bool
  | .nan => true
  | _ => false

def Num.isZero : Num → Bool
  | .fin _ 0 _ => true
  | _ => false

/-- a < b; false with a NaN; -0 equals +0 (R25). -/
def Num.lt (a b : Num) : Bool :=
  match a, b with
  | .nan, _ => false
  | _, .nan => false
  | .inf a, .inf b => a && !b
  | .inf a, _ => a
  | _, .inf b => !b
  | a, b => match a.add b.neg with
    | .fin n m _ => n && m != 0
    | _ => false

def Num.max (a b : Num) : Num := if a.lt b then b else a

def Num.abs : Num → Num
  | .nan => .nan
  | .inf _ => .inf false
  | .fin _ m e => .fin false m e

/-- Quotient as a value whose rounding to any format of at most 32 bits is the correctly rounded quotient: 2^90 places and a
sticky bit. -/
def Num.div : Num → Num → Num
  | .nan, _ => .nan
  | _, .nan => .nan
  | .inf _, .inf _ => .nan
  | .inf a, .fin b _ _ => .inf (a != b)
  | .fin a _ _, .inf b => .fin (a != b) 0 0
  | .fin a m e, .fin b n f =>
    if n = 0 then (if m = 0 then .nan else .inf (a != b))
    else
      let k := 90 + n.log2
      let q := m * 2 ^ k / n
      .fin (a != b) (2 * q + b2n (m * 2 ^ k % n != 0)) (e - f - k - 1)

/-! ### Rounding (R33, R34, R37) -/

/-- m x 2^e divided by 2^q, to nearest, ties to even. -/
def rne (m : Nat) (e q : Int) : Nat :=
  if q ≤ e then m * 2 ^ (e - q).toNat
  else
    let s := (q - e).toNat
    let n := m / 2 ^ s
    let r := m % 2 ^ s
    if r * 2 > 2 ^ s || (r * 2 = 2 ^ s && n % 2 = 1) then n + 1 else n

/-- m x 2^e divided by 2^q with a 16-bit random value added below the last place (R37). -/
def stoch (rnd m : Nat) (e q : Int) : Nat :=
  if q ≤ e then m * 2 ^ (e - q).toNat
  else
    let s := (q - e).toNat
    (m * 2 ^ 16 / 2 ^ s + rnd % 2 ^ 16) / 2 ^ 16

/-- How a value is narrowed: the random value of stochastic rounding, if selected, and the saturation mode (R34). -/
structure Round where
  rnd : Option Nat := none
  ieee : Bool := false
deriving DecidableEq, Repr

def Round.magnitude (r : Round) (m : Nat) (e q : Int) : Nat :=
  match r.rnd with
  | some x => stoch x m e q
  | none => rne m e q

def FFmt.nanBits (f : FFmt) : Nat :=
  match f.top with
  | .ieee => (2 ^ f.eb - 1) * 2 ^ f.mb + 2 ^ (f.mb - 1)
  | .e4m3 => 2 ^ (f.eb + f.mb) - 1
  | .none => 0

/-- What a magnitude beyond the largest finite becomes (R34). Formats of 16 bits and more always follow IEEE. -/
def FFmt.overflow (f : FFmt) (r : Round) (neg : Bool) : Nat :=
  let s := b2n neg * 2 ^ (f.eb + f.mb)
  if f.top = .ieee && (r.ieee || f.width ≥ 16) then s + (2 ^ f.eb - 1) * 2 ^ f.mb
  else if f.top = .e4m3 && r.ieee then f.nanBits
  else s + f.maxMag

def FFmt.encode (f : FFmt) (r : Round) : Num → Nat
  | .nan => f.nanBits
  | .inf n => f.overflow r n
  | .fin neg m e =>
    if m = 0 then b2n neg * 2 ^ (f.eb + f.mb)
    else
      let q := max (e + m.log2 - f.mb) f.emin
      let mag := r.magnitude m e q + (q - f.emin).toNat * 2 ^ f.mb
      if mag > f.maxMag then f.overflow r neg else b2n neg * 2 ^ (f.eb + f.mb) + mag

def intEncode (w : Nat) (r : Round) : Num → Nat
  | .nan => 0
  | .inf n => if n then 2 ^ (w - 1) else 2 ^ (w - 1) - 1
  | .fin neg m e =>
    let k := r.magnitude m e 0
    if neg then (if k ≥ 2 ^ (w - 1) then 2 ^ (w - 1) else (2 ^ w - k) % 2 ^ w)
    else min k (2 ^ (w - 1) - 1)

/-- The bits of a value in a format code (R33 to R37): the conversion of every narrowing path. -/
def elemBits (code : Nat) (r : Round) (v : Num) : Nat :=
  match ffmt code with
  | some f => f.encode r v
  | none => if code = 8 then intEncode 8 r v else if code = 9 then intEncode 4 r v else if code = 10 then intEncode 16 r v else 0

/-- The format has a NaN encoding (R21). -/
def hasNan (code : Nat) : Bool := match ffmt code with
  | some f => f.top != .none
  | none => code == 11

/-- Round to FP32, nearest even (R33). -/
def rn (v : Num) : Word := BitVec.ofNat 32 (fp32.encode {} v)

def f32 (w : Word) : Num := fp32.decode w.toNat

def nan32 : Word := 0x7FC00000#32
def negInf32 : Word := 0xFF800000#32

def add32 (a b : Word) : Word := rn ((f32 a).add (f32 b))
def sub32 (a b : Word) : Word := rn ((f32 a).add (f32 b).neg)
def mul32 (a b : Word) : Word := rn ((f32 a).mul (f32 b))
def div32 (a b : Word) : Word := rn ((f32 a).div (f32 b))
def lt32 (a b : Word) : Bool := (f32 a).lt (f32 b)
/-- The larger of two values that are no NaN; of two zeros +0, so that the maximum is the same from either side (04 R104). -/
def max32 (a b : Word) : Word := if lt32 a b || (a == 0x80000000#32 && b == 0) then b else a
def isNan32 (a : Word) : Bool := (f32 a).isNan

/-! ### Block scaling (R29) -/

/-- floor(log2) of a finite non-zero magnitude. -/
def Num.log2 : Num → Int
  | .fin _ m e => e + m.log2
  | _ => 0

/-- The scale code of 32 source values in an element format with largest exponent `emax` (R29). -/
def scaleCode (emax : Int) (src : List Num) : Nat :=
  let amax : Num := src.foldl (fun (a v : Num) => if v.isNan then a else a.max v.abs) Num.zero
  if src.any Num.isNan then 255
  else if amax.isZero then 0
  else match amax with
    | .inf _ => 254
    | v => ((max (-127) (min 127 (v.log2 - emax))) + 127).toNat

/-! ### exp2 (R93): correctly rounded for every argument -/

/-- floor(2^256 ln 2). -/
def ln2Fixed : Nat := 0xb17217f7d1cf79abc9e3b39803f2f6af40f343267298b62d8a0d175b8baafa2b

/-- 2^f for f in [0, 1) given in units of 2^-256, in units of 2^-256, by 64 terms of the exponential series. -/
def exp2Fixed (f : Nat) : Nat :=
  let y := f * ln2Fixed / 2 ^ 256
  ((List.range 64).foldl (fun (st : Nat × Nat) i => (st.1 + st.2, st.2 * y / 2 ^ 256 / (i + 1))) (0, 2 ^ 256)).1

/-- 2^x before its one rounding. The series has 2^-250 relative error, and no FP32 argument but an integer lies that near a
rounding boundary. -/
def Num.exp2 : Num → Num
  | .nan => .nan
  | .inf n => if n then .zero else .inf false
  | .fin n m e =>
    if e + m.log2 > 10 then (if n then .zero else .inf false)
    else
      let x := signedMag n (rne m e (-256))
      let i := x / (2 ^ 256 : Nat)
      .fin false (exp2Fixed (x % (2 ^ 256 : Nat)).toNat) (i - 256)

def exp2_32 (x : Word) : Word := rn (f32 x).exp2

/-- log2 e rounded to FP32 (R93). -/
def log2e32 : Word := 0x3FB8AA3B#32

/-! ### P8L (R42 to R46) -/

/-- floor(2^64 x 2^(-k/8)). -/
def pow8 (k : Nat) : Nat :=
  match k with
  | 0 => 0x10000000000000000
  | 1 => 0xeac0c6e7dd24392e
  | 2 => 0xd744fccad69d6af4
  | 3 => 0xc5672a115506dadd
  | 4 => 0xb504f333f9de6484
  | 5 => 0xa5fed6a9b15138ea
  | 6 => 0x9837f0518db8a96f
  | _ => 0x8b95c1e3ea8bd6e6

/-- The product table entry (R45): significand in units of 1/256, and exponent adjustment. -/
def p8lEntry (h a k : Nat) : Nat × Int :=
  let v := (8 * h + a) * pow8 k
  if v = 0 then (0, 0)
  else
    let adj : Int := (v.log2 : Int) - 67
    let sig := rne v 0 ((v.log2 : Int) - 8)
    if sig = 512 then (256, adj + 1) else (sig, adj)

/-- The weight code of a score under the running maximum (R43). R49 counts a weight of 8z above 254 as zero, where R43's rounding
gives 8z in (254, 254.5] the code 254: the model follows R43 (DESIGN CHOICE). -/
def p8lCode (s m : Word) : Nat :=
  if f32 s = .inf true then 255
  else
    let z := f32 (mul32 (sub32 m s) log2e32)
    let t := match z with
      | .fin _ mm e => rne mm (e + 3) 0
      | _ => 255
    if t > 254 then 255 else t

/-- The table weight l takes (R46). -/
def p8lWeight (c : Nat) : Num :=
  if c = 255 then .zero
  else
    let (sig, adj) := p8lEntry 1 0 (c % 8)
    .fin false sig (adj - 8 - (c / 8 : Nat))

/-- The product of a V element with a weight code (R45). -/
def p8lProduct (code bits scale c : Nat) : Num :=
  match ffmt code with
  | none => .nan
  | some f =>
    match scaled (f.decode bits) scale with
    | .nan => .nan
    | .inf n => if c = 255 then .nan else .inf n
    | .fin n _ _ =>
      if c = 255 then .fin n 0 0
      else
        let mag := bits % 2 ^ (f.eb + f.mb)
        let ex := mag / 2 ^ f.mb
        let a := mag % 2 ^ f.mb * 2 ^ (3 - f.mb)
        let (sig, adj) := p8lEntry (b2n (ex != 0)) a (c % 8)
        .fin n sig (max (ex : Int) 1 - f.bias + ((scale : Int) - 127) - (c / 8 : Nat) + adj - 8)

/-! ### Plain tensors (R27) -/

/-- Bytes that `n` plain elements of a format take. -/
def plainBytes (code n : Nat) : Nat := cdiv (fmtWidth code * n) 8

/-- Element `i` of a plain tensor: R27's packings lay elements in rising bits of the little-endian string. -/
def plainElem (code : Nat) (bs : Bytes) (i : Nat) : Nat :=
  let w := fmtWidth code
  fld (leAt bs (w * i / 8) (w / 8 + 2)) (w * i % 8) w

/-- Elements packed by R27. -/
def packElems (code : Nat) (xs : List Nat) : Bytes :=
  let w := fmtWidth code
  putLe (plainBytes code xs.length) (xs.foldr (fun x n => x % 2 ^ w + 2 ^ w * n) 0)

/-- Elements [0, n) of a plain tensor as bits. -/
def plainElems (code : Nat) (bs : Bytes) (n : Nat) : List Nat := (List.range n).map (plainElem code bs)

end Sys2Proof.Machine
end

