-- ==== Sys2Proof/Machine/Codec.lean ====
section
/-! DEFINITION. Entropy-coded tensors (spec 06) and the KV page (spec 03 R51 to R56): tables, coded blocks, page headers. -/
namespace Sys2Proof.Machine
open Sys2Proof

/-! ### Tables -/

/-- A table (R150): element format, scaling, longest code word, escape length, listed symbols with their lengths. -/
structure CTable where
  fmt : Nat := 0
  scaling : Bool := false
  maxLen : Nat := 0
  escLen : Nat := 0
  syms : List (Nat × Nat) := []
deriving DecidableEq, Repr

/-- The fields of a table's bytes (R150). -/
def tableOf (bs : Bytes) : CTable :=
  let n := leAt bs 6 2
  { fmt := leAt bs 3 1 % 16, scaling := bitOf (leAt bs 3 1) 4, maxLen := leAt bs 4 1, escLen := leAt bs 5 1,
    syms := (List.range n).map fun i => (leAt bs (8 + i) 1, leAt bs (8 + n + i) 1) }

/-- Bytes a table occupies in the TABLES section (R150). -/
def tableBytes (bs : Bytes) : Nat := cdiv (8 + 2 * leAt bs 6 2) 8 * 8

/-- Symbol width of an element format (R149); none where the format is not coded. -/
def symWidth (fmt : Nat) : Option Nat :=
  match fmt with
  | 1 => some 8
  | 2 => some 8
  | 3 => some 8
  | 4 => some 8
  | 5 => some 6
  | 6 => some 6
  | 7 => some 4
  | 8 => some 8
  | 9 => some 4
  | 12 => some 8
  | _ => none

def symW (fmt : Nat) : Nat := (symWidth fmt).getD 8

/-- A raw low byte follows each code word (R149). -/
def lowByte (fmt : Nat) : Bool := fmt == 1 || fmt == 2

/-- Kraft sum of all code words in units of 2^-16. -/
def CTable.kraft (t : CTable) : Nat :=
  (t.syms.map fun s => 2 ^ (16 - s.2)).sum + (if t.escLen = 0 then 0 else 2 ^ (16 - t.escLen))

/-- The checks of R152; `fmt` and `scaling` are the geometry's for the table's tensor. -/
def tableGood (bs : Bytes) (fmt : Nat) (scaling : Bool) : Bool :=
  let t := tableOf bs
  match symWidth t.fmt with
  | none => false
  | some w =>
    leAt bs 0 2 == 0x5154 && leAt bs 2 1 == 1 && leAt bs 3 1 < 32 && t.fmt == fmt && t.scaling == scaling &&
      decide (1 ≤ t.maxLen ∧ t.maxLen ≤ 16 ∧ t.escLen ≤ t.maxLen) &&
      decide (1 ≤ t.syms.length ∧ t.syms.length ≤ 2 ^ w) && decide (bs.length ≥ 8 + 2 * t.syms.length) &&
      t.syms.all (fun s => decide (s.1 < 2 ^ w ∧ 1 ≤ s.2 ∧ s.2 ≤ t.maxLen)) && decide (t.syms.map (·.1)).Nodup &&
      decide (t.kraft ≤ 2 ^ 16) && (t.syms.length == 2 ^ w || t.escLen != 0)

/-- The port expander decodes blocks of this table, port_expand_en apart (R157). -/
def CTable.portOk (t : CTable) : Bool := t.maxLen ≤ 12 && isKvFmt t.fmt

/-- A code word: length, value, and the symbol, none for the escape. -/
structure CodeWord where
  len : Nat
  val : Nat
  sym : Option Nat
deriving DecidableEq, Repr

/-- Canonical assignment (R151). -/
def CTable.codes (t : CTable) : List CodeWord :=
  ((span 1 t.maxLen).foldl (fun (st : Nat × List CodeWord) n =>
    let ofLen := (t.syms.filter (·.2 == n)).map fun s => some s.1
    let all := if t.escLen = n then ofLen ++ [none] else ofLen
    ((st.1 + all.length) * 2, st.2 ++ all.zipIdx.map fun x => { len := n, val := st.1 + x.2, sym := x.1 })) (0, [])).2

def msbBits (n v : Nat) : List Bool := ((List.range n).map fun i => bitOf v (n - 1 - i))

/-- One symbol as bits, and whether it went as an escape (R155). -/
def CTable.encodeSym (t : CTable) (codes : List CodeWord) (sym : Nat) : List Bool × Nat :=
  match codes.find? (·.sym == some sym) with
  | some c => (msbBits c.len c.val, 0)
  | none => match codes.find? (·.sym == none) with
    | some c => (msbBits c.len c.val ++ msbBits (symW t.fmt) sym, 1)
    | none => ([], 0)

/-- Elements of a row as symbols and raw low bytes (R149). -/
def CTable.symbols (t : CTable) (elems : List Nat) : List (Nat × List Bool) :=
  if t.fmt = 12 then
    (List.range (cdiv elems.length 8)).map fun i =>
      (((elems.drop (8 * i)).take 8).foldr (fun b n => b % 2 + 2 * n) 0, [])
  else if lowByte t.fmt then elems.map fun e => (e / 256, msbBits 8 (e % 256))
  else elems.map fun e => (e, [])

/-- One position of one tensor: element bits and scale codes, one for each 32 elements with block scaling. -/
abbrev KvRow := List Nat × List Nat

/-- A coded block of rows (R153): its bytes, and the escapes it holds. `ref` is the table slot and generation. -/
def encodeBlock (t : CTable) (ref first : Nat) (rows : List KvRow) : Bytes × Nat :=
  let cs := t.codes
  let parts := (rows.flatMap fun r => t.symbols r.1).map fun s =>
    let e := t.encodeSym cs s.1
    (e.1 ++ s.2, e.2)
  let bits := parts.flatMap (·.1)
  let sc : Bytes := if t.scaling then (rows.flatMap (·.2)).map (BitVec.ofNat 8) else []
  let raw := sc ++ packBits bits
  let len := cdiv (16 + raw.length) 8 * 8
  let elems := (rows.map fun r => r.1.length).sum
  (putLe 2 ref ++ putLe 1 (t.fmt + 16 * b2n t.scaling) ++ putLe 1 rows.length ++ putLe 1 first ++ putLe 1 0 ++ putLe 2 elems ++
    putLe 4 bits.length ++ putLe 2 len ++ putLe 2 0 ++ fit (len - 16) raw, (parts.map (·.2)).sum)

/-- Coded blocks of a body (R155): rows from `first` on, cut at the offsets in `cuts`. -/
def cutRows (cuts : List Nat) : Nat → List KvRow → List (Nat × List KvRow)
  | _, [] => []
  | p, r :: rs =>
    match cutRows cuts (p + 1) rs with
    | [] => [(p, [r])]
    | (q, g) :: gs => if cuts.contains (p + 1) then (p, [r]) :: (q, g) :: gs else (p, r :: g) :: gs

/-! ### Decoding (R160) -/

/-- Where a decoder stands inside a bitstream. -/
inductive DecMode where
  | code (len val : Nat)
  | raw (left val : Nat)
  | low (left val sym : Nat)
deriving DecidableEq, Repr

/-- Decoder state: mode, elements out in reverse order. -/
structure Dec where
  mode : DecMode := .code 0 0
  out : List Nat := []
  n : Nat := 0
deriving DecidableEq, Repr

/-- A whole symbol: the elements it stands for, or the overrun of R160. -/
def CTable.emit (t : CTable) (elems sym : Nat) (d : Dec) : Except Nat Dec :=
  let add := if t.fmt = 12 then ((List.range 8).map fun j => b2n (bitOf sym j)).reverse else [sym]
  if d.n + add.length > elems then .error St.CODE_OVERRUN
  else .ok { mode := .code 0 0, out := add ++ d.out, n := d.n + add.length }

def CTable.symbolRead (t : CTable) (elems sym : Nat) (d : Dec) : Except Nat Dec :=
  if lowByte t.fmt then .ok { d with mode := .low 8 0 sym } else t.emit elems sym d

/-- One bit of the stream. -/
def CTable.decodeBit (t : CTable) (codes : List CodeWord) (elems : Nat) (d : Dec) (b : Bool) : Except Nat Dec :=
  match d.mode with
  | .code len val =>
    match codes.find? (fun c => c.len == len + 1 && c.val == 2 * val + b2n b) with
    | some c => match c.sym with
      | some s => t.symbolRead elems s d
      | none => .ok { d with mode := .raw (symW t.fmt) 0 }
    | none => if len + 1 ≥ t.maxLen then .error St.CODE_INVALID else .ok { d with mode := .code (len + 1) (2 * val + b2n b) }
  | .raw left val =>
    if left ≤ 1 then t.symbolRead elems (2 * val + b2n b) d else .ok { d with mode := .raw (left - 1) (2 * val + b2n b) }
  | .low left val sym =>
    if left ≤ 1 then t.emit elems (256 * sym + 2 * val + b2n b) d
    else .ok { d with mode := .low (left - 1) (2 * val + b2n b) sym }

/-- What the page header tells of a body: table reference, format byte, head dimension, positions. -/
structure BodyOf where
  ref : Nat
  fmt : Nat
  scaling : Bool
  d : Nat
  first : Nat
  count : Nat
deriving DecidableEq, Repr

/-- A decoded coded block: rows, bytes it took, elements and bits for the counters. -/
structure DecBlock where
  rows : List KvRow
  length : Nat
  elems : Nat
  bits : Nat
deriving DecidableEq, Repr

/-- Why a decode ends: the code of R160, and the table slot the failing block names. -/
structure CodeBad where
  status : Nat
  slot : Nat
deriving DecidableEq, Repr

/-- Decode one coded block at the head of `bs` (R160). `table` gives the table of a slot and generation that still decode. -/
def decodeBlock (padCheck : Bool) (table : Nat → Option CTable) (b : BodyOf) (pos : Nat) (bs : Bytes) : Except CodeBad DecBlock :=
  let ref := leAt bs 0 2
  let bad (c : Nat) : CodeBad := { status := c, slot := ref % 64 }
  let rows := leAt bs 3 1
  let elems := leAt bs 6 2
  let nbits := leAt bs 8 4 % 2 ^ 20
  let len := leAt bs 12 2
  match table ref with
  | none => .error (bad St.TABLE_GEN_RETIRED)
  | some t0 =>
    let t : CTable := { t0 with fmt := b.fmt, scaling := b.scaling }
    let scales := if b.scaling then elems / 32 else 0
    let data := slice bs (16 + scales) (cdiv nbits 8)
    let bits := bitsOf data
    if ref ≠ b.ref || leAt bs 2 1 % 16 ≠ b.fmt || bitOf (leAt bs 2 1) 4 ≠ b.scaling then .error (bad St.TABLE_MISMATCH)
    else if rows = 0 || rows > 16 || elems ≠ rows * b.d || leAt bs 4 1 ≠ pos ||
        pos + rows > b.first + b.count || len ≠ cdiv (16 + scales + cdiv nbits 8) 8 * 8 then
      .error (bad St.CODE_LENGTH)
    else
      match (bits.take nbits).foldlM (t.decodeBit t.codes elems) {} with
      | .error e => .error (bad e)
      | .ok d =>
        if d.mode ≠ .code 0 0 || d.n ≠ elems then .error (bad St.CODE_LENGTH)
        else if padCheck && ((bits.drop nbits).any id ||
            (slice bs (16 + scales + cdiv nbits 8) (len - (16 + scales + cdiv nbits 8))).any (· != 0#8)) then
          .error (bad St.CODE_LENGTH)
        else
          let es := d.out.reverse
          let per := b.d / 32
          let sc := (slice bs 16 scales).map (·.toNat)
          .ok { rows := (List.range rows).map fun i =>
                  ((es.drop (i * b.d)).take b.d, if b.scaling then (sc.drop (i * per)).take per else []),
                length := len, elems := elems, bits := nbits }

/-- Decode a body of `len` bytes at the head of `bs` (R154, R160): coded blocks up to `count` rows, at most 64, so `fuel` 65 reaches
the end. That the blocks' lengths sum to the body's is the last check: a block that runs past the body's end is decoded first. -/
def decodeBody (padCheck : Bool) (table : Nat → Option CTable) (b : BodyOf) :
    Nat → Nat → Nat → Bytes → Except CodeBad (List DecBlock)
  | 0, _, _, _ => .error { status := St.CODE_LENGTH, slot := b.ref % 64 }
  | fuel + 1, pos, len, bs =>
    if pos ≥ b.first + b.count then
      (if len = 0 then .ok [] else .error { status := St.CODE_LENGTH, slot := b.ref % 64 })
    else if len = 0 then .error { status := St.CODE_LENGTH, slot := b.ref % 64 }
    else match decodeBlock padCheck table b pos bs with
      | .error e => .error e
      | .ok blk =>
        if blk.length > len then .error { status := St.CODE_LENGTH, slot := b.ref % 64 }
        else match decodeBody padCheck table b fuel (pos + blk.rows.length) (len - blk.length) (bs.drop blk.length) with
          | .error e => .error e
          | .ok rest => .ok (blk :: rest)

/-! ### Pages (03 R51 to R56) -/

def frameBytes : Nat := 16384

/-- Sketch bytes of a sketch code (R53): 8 to 128, or none. -/
def sketchBytes (code : Nat) : Nat := if code ≤ 4 then 8 * 2 ^ code else 0

/-- The fields of a page header (R53). -/
structure PageHdr where
  fmt : Nat := 0
  scaling : Bool := false
  hasSpill : Bool := false
  isSpill : Bool := false
  stream : Nat := 0
  ctx : Nat := 0
  layer : Nat := 0
  kvHead : Nat := 0
  count : Nat := 0
  block : Nat := 0
  first : Nat := 0
  sketch : Nat := 7
  kTable : Nat := 0
  vTable : Nat := 0
  kLen : Nat := 0
  vLen : Nat := 0
  vFmt : Nat := 0
  spill : Nat := 0xFFFFFFFF
  handoff : Nat := 0
deriving DecidableEq, Repr

/-- Header bytes 0 to 59 (R53). -/
def PageHdr.bytes (h : PageHdr) : Bytes :=
  putLe 2 0x5650 ++ putLe 1 1 ++ putLe 1 (h.fmt % 16 + 16 * b2n h.scaling + 32 * b2n h.hasSpill + 64 * b2n h.isSpill) ++
    putLe 4 (h.stream % 2 ^ 24 + h.ctx % 256 * 2 ^ 24) ++ putLe 2 (h.layer % 1024 + h.ctx / 256 % 16 * 1024) ++
    putLe 1 h.kvHead ++ putLe 1 h.count ++ putLe 4 (h.block % 2 ^ 26) ++ putLe 1 h.first ++ putLe 1 (h.sketch % 8) ++
    putLe 2 h.kTable ++ putLe 2 h.vTable ++ putLe 2 h.kLen ++ putLe 2 h.vLen ++ putLe 1 (h.vFmt % 16) ++ putLe 1 0 ++
    putLe 4 h.spill ++ putLe 4 h.handoff ++ zeros 24

def pageHdr (bs : Bytes) : PageHdr :=
  let f := leAt bs 3 1
  { fmt := f % 16, scaling := bitOf f 4, hasSpill := bitOf f 5, isSpill := bitOf f 6, stream := leAt bs 4 3,
    ctx := leAt bs 7 1 + fld (leAt bs 8 2) 10 4 * 256, layer := leAt bs 8 2 % 1024, kvHead := leAt bs 10 1,
    count := leAt bs 11 1, block := leAt bs 12 4 % 2 ^ 26, first := leAt bs 16 1, sketch := leAt bs 17 1 % 8,
    kTable := leAt bs 18 2, vTable := leAt bs 20 2, kLen := leAt bs 22 2, vLen := leAt bs 24 2, vFmt := leAt bs 26 1 % 16,
    spill := leAt bs 28 4, handoff := leAt bs 32 4 }

/-- The bytes the page CRC covers: header bytes 0 to 59, the sketch and both bodies (R53). -/
def pageCrc (bs : Bytes) : Nat :=
  let h := pageHdr bs
  crc32c (bs.take 60 ++ slice bs 64 (sketchBytes h.sketch + h.kLen + h.vLen))

/-- A whole frame (R52): header with CRC, sketch, bodies, zeros. -/
def buildPage (h : PageHdr) (sketch kBody vBody : Bytes) : Bytes :=
  let h := { h with kLen := kBody.length, vLen := vBody.length }
  let hd := h.bytes
  fit frameBytes (hd ++ putLe 4 (crc32c (hd ++ sketch ++ kBody ++ vBody)) ++ sketch ++ kBody ++ vBody)

/-- The checks of R54 that need neither a step nor the CRC: magic, version, count, sketch code, lengths. -/
def pageHeadOk (bs : Bytes) : Bool :=
  let h := pageHdr bs
  leAt bs 0 2 == 0x5650 && leAt bs 2 1 == 1 && decide (1 ≤ h.count ∧ h.count ≤ 64 ∧ h.first + h.count ≤ 64) &&
    (h.sketch ≤ 4 || h.sketch == 7) && decide (64 + sketchBytes h.sketch + h.kLen + h.vLen ≤ frameBytes)

/-- The checks of R54 that need no step. -/
def pageShapeOk (bs : Bytes) : Bool := pageHeadOk bs && leAt bs 60 4 == pageCrc bs

/-- The place a page-table entry says a page has. `stream` is none where the entry is shared: such a page carries the number
of the stream that published it (DEDUCED from R20 and R77). -/
structure PlaceOf where
  stream : Option Nat := none
  ctx : Nat := 0
  layer : Nat := 0
  kvHead : Nat := 0
  block : Nat := 0
deriving DecidableEq, Repr

/-- The header names the page that the page table and the step led to (R54). -/
def pagePlaceOk (bs : Bytes) (p : PlaceOf) : Bool :=
  let h := pageHdr bs
  (match p.stream with
    | some s => h.stream == s
    | none => true) && h.ctx == p.ctx && h.layer == p.layer && h.kvHead == p.kvHead && h.block == p.block

/-- The further conditions of R54 for a step of a weft image: sketch code, formats, scaling of its geometry. -/
def pageGeoOk (bs : Bytes) (sketch kFmt vFmt : Nat) (scaling : Bool) : Bool :=
  let h := pageHdr bs
  h.sketch == sketch && h.fmt == kFmt && h.vFmt == vFmt && h.scaling == scaling

def pageK (bs : Bytes) : Bytes := let h := pageHdr bs; slice bs (64 + sketchBytes h.sketch) h.kLen
def pageV (bs : Bytes) : Bytes := let h := pageHdr bs; slice bs (64 + sketchBytes h.sketch + h.kLen) h.vLen
def pageSketch (bs : Bytes) : Bytes := slice bs 64 (sketchBytes (pageHdr bs).sketch)

/-- The body of one tensor of a page as its header describes it. -/
def pageBodyOf (bs : Bytes) (isV : Bool) : BodyOf :=
  let h := pageHdr bs
  { ref := if isV then h.vTable else h.kTable, fmt := if isV then h.vFmt else h.fmt, scaling := h.scaling, d := 0, first := h.first,
    count := h.count }

/-- One tensor of a page decoded, for head dimension `d` (R154, R160). -/
def decodeTensorOf (padCheck : Bool) (table : Nat → Option CTable) (d : Nat) (isV : Bool) (bs : Bytes) :
    Except CodeBad (List DecBlock) :=
  let h := pageHdr bs
  let off := 64 + sketchBytes h.sketch + if isV then h.kLen else 0
  decodeBody padCheck table { pageBodyOf bs isV with d := d } 65 h.first (if isV then h.vLen else h.kLen) (bs.drop off)

/-- The coded blocks of a body, undecoded: (first, rows, bytes). Used where they are copied or re-tagged (R156, R165). -/
def codedBlocks : Nat → Bytes → List (Nat × Nat × Bytes)
  | 0, _ => []
  | fuel + 1, bs =>
    let len := leAt bs 12 2
    if bs.isEmpty || len < 16 then [] else (leAt bs 4 1, leAt bs 3 1, bs.take len) :: codedBlocks fuel (bs.drop len)

/-- Coded blocks of a page that name a table slot and generation. -/
def blocksNaming (ref : Nat) (bs : Bytes) : Nat :=
  (codedBlocks 64 (pageK bs) ++ codedBlocks 64 (pageV bs)).countP fun x => leAt x.2.2 0 2 == ref

/-- A page with its tables re-named (R165): the header's and each coded block's table reference, and a new CRC. -/
def retag (bs : Bytes) (k v : Nat) : Bytes :=
  let h := pageHdr bs
  let body (ref : Nat) (b : Bytes) := (codedBlocks 64 b).flatMap fun x => putAt x.2.2 0 (putLe 2 ref)
  buildPage { h with kTable := k, vTable := v } (pageSketch bs) (body k (pageK bs)) (body v (pageV bs))

/-- A page with another spill frame (the frame moved, the page did not). -/
def setSpill (bs : Bytes) (spill : Nat) : Bytes :=
  buildPage { pageHdr bs with spill := spill } (pageSketch bs) (pageK bs) (pageV bs)

/-- The table tag of R165: the first 8 bytes of the SHA-256 of the table's bytes. -/
def tableTag (bs : Bytes) : Bytes := (sha256 bs).take 8

/-! ### Quantising one position (R29, R33 to R37) -/

/-- How a tensor is written: element format, scaling, IEEE saturation. -/
structure Quant where
  fmt : Nat
  scaling : Bool
  ieee : Bool
  stoch : Bool
deriving DecidableEq, Repr

/-- `rnd n` is the n-th 16-bit value of the encoder's generator for this position (R37, R38). R29 gives no e for a block whose
scale code is 0xFF, and so no element bits: the model quantises them with e = 128 (DESIGN CHOICE); they read back as NaN (R30). -/
def quantRow (q : Quant) (rnd : Nat → Nat) (src : List Num) : KvRow :=
  let conv (i : Nat) (v : Num) : Nat :=
    elemBits q.fmt { rnd := if q.stoch then some (rnd i) else none, ieee := q.ieee } v
  if q.scaling then
    match fmtEmax q.fmt with
    | none => ([], [])
    | some emax =>
      let groups := (List.range (cdiv src.length 32)).map fun g => (g, (src.drop (32 * g)).take 32)
      let codes := groups.map fun g => scaleCode emax g.2
      ((groups.zip codes).flatMap fun x => x.1.2.zipIdx.map fun v =>
          conv (32 * x.1.1 + v.2) (match v.1 with
            | .fin n m e => .fin n m (e - ((x.2 : Int) - 127))
            | v => v), codes)
  else (src.zipIdx.map fun v => conv v.2 v.1, [])

/-- NaNs a row squashes to +0 because its format has none and scaling is off (R35). -/
def squashed (q : Quant) (src : List Num) : Nat :=
  if q.scaling || hasNan q.fmt then 0 else src.countP Num.isNan

/-- The value of element `i` of a row (R28, R30). -/
def rowVal (fmt : Nat) (scaling : Bool) (r : KvRow) (i : Nat) : Num :=
  let v := elemVal fmt (r.1.getD i 0)
  if scaling then scaled v (r.2.getD (i / 32) 255) else v

end Sys2Proof.Machine
end

