-- ==== Sys2Proof/Machine/RegNames.lean ====
section
/-! DEFINITION. The offsets of the registers in the normal view (18 R441), by their names in the spec. A register of a die, a
stack, a channel, a port or an engine takes the instance number. -/
namespace Sys2Proof.Machine.Off

abbrev GLOBAL_ID : Nat := 0x0
abbrev GLOBAL_REV : Nat := 0x4
abbrev GLOBAL_SERIAL_0 : Nat := 0x8
abbrev GLOBAL_SERIAL_1 : Nat := 0xc
abbrev GLOBAL_SERIAL_2 : Nat := 0x10
abbrev GLOBAL_SERIAL_3 : Nat := 0x14
abbrev GLOBAL_CAP_0 : Nat := 0x18
abbrev GLOBAL_CAP_1 : Nat := 0x1c
abbrev GLOBAL_CAP_2 : Nat := 0x20
abbrev GLOBAL_CAP_3 : Nat := 0x24
abbrev GLOBAL_FENCED : Nat := 0x28
abbrev GLOBAL_FENCED_STACKS : Nat := 0x30
abbrev GLOBAL_FENCED_CHANNELS : Nat := 0x34
abbrev GLOBAL_FENCED_PORTS : Nat := 0x38
abbrev GLOBAL_RESET_CAUSE : Nat := 0x2c
abbrev GLOBAL_IRQ_SUMMARY : Nat := 0x40
abbrev GLOBAL_IRQ_UNITS : Nat := 0x44
abbrev GLOBAL_IRQ_PORTS : Nat := 0x48
abbrev GLOBAL_IRQ_STACKS : Nat := 0x4c
abbrev GLOBAL_IRQ_EN : Nat := 0x50
abbrev GLOBAL_SB_IRQ_EN : Nat := 0x54
abbrev GLOBAL_STATUS : Nat := 0x60
abbrev GLOBAL_PARITY_ADDR : Nat := 0x64
abbrev GLOBAL_PARITY_SEL : Nat := 0x68
abbrev GLOBAL_ACCESS_ADDR : Nat := 0x6c
abbrev GLOBAL_ACCESS_CNT : Nat := 0x70
abbrev GLOBAL_PARITY_CNT : Nat := 0x74
abbrev GLOBAL_PARITY_CTRL : Nat := 0x78
abbrev GLOBAL_MGMT_RID : Nat := 0x80
abbrev COMMIT_BOOT : Nat := 0x10000
abbrev COMMIT_MAP_GEN : Nat := 0x10004
abbrev COMMIT_GEN_SEL : Nat := 0x10008
abbrev COMMIT_GEN_INFLIGHT : Nat := 0x1000c
abbrev COMMIT_STAGE_STATE : Nat := 0x10010
abbrev COMMIT_STAGE_ITEM : Nat := 0x10014
abbrev COMMIT_STAGE_INDEX : Nat := 0x10018
abbrev COMMIT_STAGE_VALUE_LO : Nat := 0x1001c
abbrev COMMIT_STAGE_VALUE_HI : Nat := 0x10020
abbrev COMMIT_CMD : Nat := 0x10024
abbrev COMMIT_RESULT : Nat := 0x10028
abbrev COMMIT_CHECK_INFO : Nat := 0x1002c
abbrev COMMIT_CHECK_CTX : Nat := 0x10030
abbrev COMMIT_MAP_SEL : Nat := 0x10034
abbrev COMMIT_MAP_CLUSTERS : Nat := 0x10038
abbrev COMMIT_MAP_STACKS : Nat := 0x1003c
abbrev COMMIT_MAP_QUARTERS_0 : Nat := 0x10040
abbrev COMMIT_MAP_QUARTERS_1 : Nat := 0x10044
abbrev COMMIT_MAP_QUARTERS_2 : Nat := 0x10048
abbrev COMMIT_MAP_CHANNELS : Nat := 0x1004c
abbrev COMMIT_MAP_PORTS : Nat := 0x10050
abbrev COMMIT_MAP_BANKS_LO : Nat := 0x10054
abbrev COMMIT_MAP_BANKS_HI : Nat := 0x10058
abbrev COMMIT_STATUS : Nat := 0x10060
abbrev COMMIT_IRQ_EN : Nat := 0x10064
abbrev COMMIT_RECOVERY_ADDR_LO : Nat := 0x10070
abbrev COMMIT_RECOVERY_ADDR_HI : Nat := 0x10074
abbrev COMMIT_RECOVERY_LEN : Nat := 0x10078
abbrev COMMIT_RECOVERY_CMD : Nat := 0x1007c
abbrev COMMIT_RECOVERY_RESULT : Nat := 0x10080
abbrev HOSTQ_CTRL : Nat := 0x20000
abbrev HOSTQ_DB_BASE_LO : Nat := 0x20004
abbrev HOSTQ_DB_BASE_HI : Nat := 0x20008
abbrev HOSTQ_SCAN_MIN : Nat := 0x2000c
abbrev HOSTQ_SCAN_MAX : Nat := 0x20010
abbrev HOSTQ_SWEEP : Nat := 0x20014
abbrev HOSTQ_FETCH_BURST : Nat := 0x20018
abbrev HOSTQ_ADMIN_SQ_LO : Nat := 0x20020
abbrev HOSTQ_ADMIN_SQ_HI : Nat := 0x20024
abbrev HOSTQ_ADMIN_CQ_LO : Nat := 0x20028
abbrev HOSTQ_ADMIN_CQ_HI : Nat := 0x2002c
abbrev HOSTQ_ADMIN_CFG : Nat := 0x20030
abbrev HOSTQ_RING_SEL : Nat := 0x20040
abbrev HOSTQ_RING_SQ_LO : Nat := 0x20044
abbrev HOSTQ_RING_SQ_HI : Nat := 0x20048
abbrev HOSTQ_RING_CQ_LO : Nat := 0x2004c
abbrev HOSTQ_RING_CQ_HI : Nat := 0x20050
abbrev HOSTQ_RING_CFG : Nat := 0x20054
abbrev HOSTQ_RING_STATE : Nat := 0x20058
abbrev HOSTQ_RING_HEADS : Nat := 0x2005c
abbrev HOSTQ_VEC_SEL : Nat := 0x20080
abbrev HOSTQ_VEC_MOD : Nat := 0x20084
abbrev HOSTQ_FUNC_SEL : Nat := 0x20090
abbrev HOSTQ_FUNC_VECTORS : Nat := 0x20094
abbrev HOSTQ_STATUS : Nat := 0x200a0
abbrev HOSTQ_IRQ_EN : Nat := 0x200a4
abbrev HOSTQ_CNT_SEL : Nat := 0x200b0
abbrev HOSTQ_CNT_LO : Nat := 0x200b4
abbrev HOSTQ_CNT_HI : Nat := 0x200b8
abbrev LEDGER_BUDGET : Nat := 0x30000
abbrev LEDGER_BRAKE_FLOOR : Nat := 0x30004
abbrev LEDGER_EFFECTIVE : Nat := 0x30008
abbrev LEDGER_REFILL : Nat := 0x3000c
abbrev LEDGER_REMAIN : Nat := 0x30010
abbrev LEDGER_SCALE : Nat := 0x30014
abbrev LEDGER_DEBIT_LO : Nat := 0x30018
abbrev LEDGER_DEBIT_HI : Nat := 0x3001c
abbrev LEDGER_MEAS_LO : Nat := 0x30020
abbrev LEDGER_MEAS_HI : Nat := 0x30024
abbrev LEDGER_LAPSED : Nat := 0x30028
abbrev LEDGER_RECON_LIMIT : Nat := 0x3002c
abbrev LEDGER_RECON_SEL : Nat := 0x30030
abbrev LEDGER_RECON_DATA_0 : Nat := 0x30034
abbrev LEDGER_RECON_DATA_1 : Nat := 0x30038
abbrev LEDGER_RECON_DATA_2 : Nat := 0x3003c
abbrev LEDGER_RECON_DATA_3 : Nat := 0x30040
abbrev LEDGER_BRAKE : Nat := 0x30050
abbrev LEDGER_BRAKE_CNT : Nat := 0x30054
abbrev LEDGER_CHATTER_CNT : Nat := 0x30058
abbrev LEDGER_ABORT_CNT : Nat := 0x3005c
abbrev LEDGER_STATUS : Nat := 0x30060
abbrev LEDGER_IRQ_EN : Nat := 0x30064
abbrev THERM_BAND : Nat := 0x30100
abbrev THERM_HYST : Nat := 0x30104
abbrev THERM_SENSOR_SEL : Nat := 0x30108
abbrev THERM_SENSOR : Nat := 0x3010c
abbrev THERM_BAND_CFG_0 : Nat := 0x30110
abbrev THERM_BAND_CFG_1 : Nat := 0x30114
abbrev THERM_BAND_CFG_2 : Nat := 0x30118
abbrev THERM_BAND_CFG_3 : Nat := 0x3011c
abbrev THERM_BAND_CFG_4 : Nat := 0x30120
abbrev THERM_BAND_CFG_5 : Nat := 0x30124
abbrev THERM_BAND_CFG_6 : Nat := 0x30128
abbrev THERM_BAND_CFG_7 : Nat := 0x3012c
abbrev CLK_STATUS : Nat := 0x40000
abbrev CLK_COUNTER_LO : Nat := 0x40004
abbrev CLK_COUNTER_HI : Nat := 0x40008
abbrev CLK_CLUSTER_REQ : Nat := 0x40010
abbrev CLK_STACK_SLEEP_EN : Nat := 0x40014
abbrev CLK_STACK_IDLE : Nat := 0x40018
abbrev CLK_EVT_STATUS : Nat := 0x40020
abbrev CLK_IRQ_EN : Nat := 0x40024
abbrev SEC_CTRL : Nat := 0x50000
abbrev SEC_STATUS : Nat := 0x50004
abbrev SEC_IRQ_EN : Nat := 0x50008
abbrev SEC_RNG : Nat := 0x5000c
abbrev SEC_CTX_SEL : Nat := 0x50010
abbrev SEC_CTX_STATE : Nat := 0x50014
abbrev SEC_CTX_TENANT : Nat := 0x50018
abbrev SEC_CTX_INFLIGHT : Nat := 0x5001c
abbrev SEC_DROP_CNT : Nat := 0x50020
abbrev SEC_GUARD_LOG : Nat := 0x50024
abbrev SEC_GUARD_ADDR : Nat := 0x50028
abbrev SEC_GUARD_CNT : Nat := 0x5002c
abbrev SEC_CMD : Nat := 0x50030
abbrev SEC_CMD_RESULT : Nat := 0x50034
abbrev SEC_DATA_INDEX : Nat := 0x50038
abbrev SEC_DATA : Nat := 0x5003c
abbrev SEC_ATTEST_ADDR_LO : Nat := 0x50040
abbrev SEC_ATTEST_ADDR_HI : Nat := 0x50044
abbrev SEC_SCRUB_SHARE : Nat := 0x50048
abbrev SEC_SCRUB_PENDING : Nat := 0x5004c
abbrev SEC_KEY_SEL : Nat := 0x50050
abbrev SEC_KEY_ID : Nat := 0x50054
abbrev SEC_KEY_ROLE : Nat := 0x50058
abbrev SEC_FUSE : Nat := 0x5005c
abbrev SEC_ID_FPR_0 : Nat := 0x50060
abbrev SEC_ID_FPR_1 : Nat := 0x50064
abbrev SEC_ID_FPR_2 : Nat := 0x50068
abbrev SEC_ID_FPR_3 : Nat := 0x5006c
abbrev SEC_ID_FPR_4 : Nat := 0x50070
abbrev SEC_ID_FPR_5 : Nat := 0x50074
abbrev SEC_ID_FPR_6 : Nat := 0x50078
abbrev SEC_ID_FPR_7 : Nat := 0x5007c
abbrev FAULT_CTRL : Nat := 0x60000
abbrev FAULT_STATE : Nat := 0x60004
abbrev FAULT_RING_LO : Nat := 0x60008
abbrev FAULT_RING_HI : Nat := 0x6000c
abbrev FAULT_RING_CFG : Nat := 0x60010
abbrev FAULT_RING_HEADS : Nat := 0x60014
abbrev FAULT_LOG_SEL : Nat := 0x60018
abbrev FAULT_LOG_DATA : Nat := 0x6001c
abbrev FAULT_CMD : Nat := 0x60020
abbrev FAULT_CMD_RESULT : Nat := 0x60024
abbrev FAULT_STATUS : Nat := 0x60028
abbrev FAULT_IRQ_EN : Nat := 0x6002c
abbrev FAULT_CNT_SEL : Nat := 0x60030
abbrev FAULT_CNT_LO : Nat := 0x60034
abbrev FAULT_CNT_HI : Nat := 0x60038
abbrev FAULT_GROUP_SEL : Nat := 0x60040
abbrev FAULT_GROUP_CFG : Nat := 0x60044
abbrev FAULT_GROUP_CTX : Nat := 0x60048
abbrev FAULT_GROUP_MEMBER_SEL : Nat := 0x6004c
abbrev FAULT_GROUP_MEMBER : Nat := 0x60050
abbrev FAULT_GROUP_ROWS : Nat := 0x60054
abbrev FAULT_REBUILD : Nat := 0x60058
abbrev FAULT_SHADOW_CFG : Nat := 0x60060
abbrev FAULT_SHADOW_PRIMARY : Nat := 0x60064
abbrev FAULT_SHADOW_LIMIT : Nat := 0x60068
abbrev FAULT_SHADOW_COMPARED : Nat := 0x6006c
abbrev FAULT_SHADOW_MISMATCH : Nat := 0x60070
abbrev FAULT_SHADOW_UNMATCHED : Nat := 0x60074
abbrev FAULT_CANARY_PERIOD : Nat := 0x60080
abbrev FAULT_CANARY_COST : Nat := 0x60084
abbrev FAULT_CANARY_LAST : Nat := 0x60088
abbrev FAULT_EPOCH_SEL : Nat := 0x60090
abbrev FAULT_EPOCH : Nat := 0x60094
abbrev FAULT_WDOG : Nat := 0x600a0
abbrev FAULT_GRADE : Nat := 0x600b0
abbrev FAULT_SVC_INDEX : Nat := 0x600b4
abbrev FAULT_SVC_DATA : Nat := 0x600b8
abbrev FAULT_SVC_HEAD : Nat := 0x600bc
abbrev WEFT_CTRL : Nat := 0x70000
abbrev WEFT_WAIT_LIMIT : Nat := 0x70004
abbrev WEFT_STORE_BASE : Nat := 0x70008
abbrev WEFT_STORE_FRAMES : Nat := 0x7000c
abbrev WEFT_STORE_FREE : Nat := 0x70010
abbrev WEFT_LOADED : Nat := 0x70014
abbrev WEFT_HANDLE_SEL : Nat := 0x70018
abbrev WEFT_HANDLE_STATE : Nat := 0x7001c
abbrev WEFT_HANDLE_INFLIGHT : Nat := 0x70020
abbrev WEFT_HANDLE_DIGEST_0 : Nat := 0x70040
abbrev WEFT_HANDLE_DIGEST_1 : Nat := 0x70044
abbrev WEFT_HANDLE_DIGEST_2 : Nat := 0x70048
abbrev WEFT_HANDLE_DIGEST_3 : Nat := 0x7004c
abbrev WEFT_HANDLE_DIGEST_4 : Nat := 0x70050
abbrev WEFT_HANDLE_DIGEST_5 : Nat := 0x70054
abbrev WEFT_HANDLE_DIGEST_6 : Nat := 0x70058
abbrev WEFT_HANDLE_DIGEST_7 : Nat := 0x7005c
abbrev WEFT_STATUS : Nat := 0x70060
abbrev WEFT_LOAD_ERR : Nat := 0x70064
abbrev WEFT_KIND_COST_0 : Nat := 0x70070
abbrev WEFT_KIND_COST_1 : Nat := 0x70074
abbrev WEFT_KIND_COST_2 : Nat := 0x70078
abbrev WEFT_KIND_COST_3 : Nat := 0x7007c
abbrev WEFT_KIND_COST_4 : Nat := 0x70080
abbrev WEFT_ADMIT_CNT_LO : Nat := 0x70090
abbrev WEFT_ADMIT_CNT_HI : Nat := 0x70094
abbrev WEFT_DEGRADE_CNT : Nat := 0x70098
abbrev COMP_CTRL : Nat := 0x80000
abbrev COMP_SLOT_SEL : Nat := 0x80004
abbrev COMP_SLOT_STATE : Nat := 0x80008
abbrev COMP_SLOT_PAGES : Nat := 0x8000c
abbrev COMP_SLOT_INFLIGHT : Nat := 0x80010
abbrev COMP_SLOT_TAG_LO : Nat := 0x80014
abbrev COMP_SLOT_TAG_HI : Nat := 0x80018
abbrev COMP_SLOTS_FREE : Nat := 0x8001c
abbrev COMP_STATUS : Nat := 0x80020
abbrev COMP_IRQ_EN : Nat := 0x80024
abbrev COMP_ERR_PFN : Nat := 0x80028
abbrev COMP_ERR_CNT : Nat := 0x8002c
abbrev COMP_CNT_SEL : Nat := 0x80030
abbrev COMP_CNT_LO : Nat := 0x80034
abbrev COMP_CNT_HI : Nat := 0x80038
abbrev PLAIT_CTRL : Nat := 0x90000
abbrev PLAIT_SLICE_SEL : Nat := 0x90004
abbrev PLAIT_SLICE_BANKS_LO : Nat := 0x90008
abbrev PLAIT_SLICE_BANKS_HI : Nat := 0x9000c
abbrev PLAIT_CMD_KEY_0 : Nat := 0x90010
abbrev PLAIT_CMD_KEY_1 : Nat := 0x90014
abbrev PLAIT_CMD_KEY_2 : Nat := 0x90018
abbrev PLAIT_CMD_KEY_3 : Nat := 0x9001c
abbrev PLAIT_CMD_MASK_0 : Nat := 0x90020
abbrev PLAIT_CMD_MASK_1 : Nat := 0x90024
abbrev PLAIT_CMD_MASK_2 : Nat := 0x90028
abbrev PLAIT_CMD_MASK_3 : Nat := 0x9002c
abbrev PLAIT_CMD_VALUE_LO : Nat := 0x90030
abbrev PLAIT_CMD_VALUE_HI : Nat := 0x90034
abbrev PLAIT_CMD_BANKS_LO : Nat := 0x90038
abbrev PLAIT_CMD_BANKS_HI : Nat := 0x9003c
abbrev PLAIT_CMD_CURSOR_LO : Nat := 0x90040
abbrev PLAIT_CMD_CURSOR_HI : Nat := 0x90044
abbrev PLAIT_CMD : Nat := 0x90048
abbrev PLAIT_CMD_OPT : Nat := 0x9004c
abbrev PLAIT_RESULT : Nat := 0x90050
abbrev PLAIT_RESULT_VALUE_LO : Nat := 0x90054
abbrev PLAIT_RESULT_VALUE_HI : Nat := 0x90058
abbrev PLAIT_RESULT_CURSOR_LO : Nat := 0x9005c
abbrev PLAIT_RESULT_CURSOR_HI : Nat := 0x90060
abbrev PLAIT_BANK_SEL : Nat := 0x90070
abbrev PLAIT_BANK_COUNT : Nat := 0x90074
abbrev PLAIT_STATUS : Nat := 0x90080
abbrev PLAIT_IRQ_EN : Nat := 0x90084
abbrev PLAIT_ERR : Nat := 0x90088
abbrev PLAIT_CNT_SEL : Nat := 0x9008c
abbrev PLAIT_CNT_LO : Nat := 0x90090
abbrev PLAIT_CNT_HI : Nat := 0x90094
abbrev COMA_CTRL : Nat := 0xa0000
abbrev COMA_SHARD_TIMEOUT : Nat := 0xa0004
abbrev COMA_SEED_SEL : Nat := 0xa0008
abbrev COMA_SEED_LO : Nat := 0xa000c
abbrev COMA_SEED_HI : Nat := 0xa0010
abbrev COMA_INDEXES : Nat := 0xa0014
abbrev COMA_STATUS : Nat := 0xa0020
abbrev COMA_IRQ_EN : Nat := 0xa0024
abbrev COMA_ENG_BUSY (n : Nat) : Nat := 0xa1000 + n * 0x100
abbrev COMA_ENG_QUEUE (n : Nat) : Nat := 0xa1004 + n * 0x100
abbrev COMA_CNT_SEL (n : Nat) : Nat := 0xa1008 + n * 0x100
abbrev COMA_CNT_LO (n : Nat) : Nat := 0xa100c + n * 0x100
abbrev COMA_CNT_HI (n : Nat) : Nat := 0xa1010 + n * 0x100
abbrev TIER_SEL : Nat := 0xb0000
abbrev TIER_QUOTA_HBM : Nat := 0xb0004
abbrev TIER_QUOTA_BOARD : Nat := 0xb0008
abbrev TIER_QUOTA_REMOTE : Nat := 0xb000c
abbrev TIER_USED_HBM : Nat := 0xb0010
abbrev TIER_USED_BOARD : Nat := 0xb0014
abbrev TIER_USED_REMOTE : Nat := 0xb0018
abbrev TIER_POOL_FREE_HBM : Nat := 0xb0020
abbrev TIER_POOL_FREE_BOARD : Nat := 0xb0024
abbrev TIER_POOL_LOW : Nat := 0xb0028
abbrev TIER_HANDOFF_TIMEOUT : Nat := 0xb002c
abbrev TIER_STATUS : Nat := 0xb0030
abbrev TIER_PREFIX_RECORDS : Nat := 0xb0034
abbrev TIER_FLUSH_BASE : Nat := 0xb0040
abbrev TIER_FLUSH_COUNT : Nat := 0xb0044
abbrev TIER_FLUSH_CTRL : Nat := 0xb0048
abbrev ATTN_CORE_EN (n : Nat) : Nat := 0x100000 + n * 0x10000
abbrev ATTN_CLUSTER_STATE (n : Nat) : Nat := 0x100004 + n * 0x10000
abbrev ATTN_STATUS (n : Nat) : Nat := 0x100010 + n * 0x10000
abbrev ATTN_IRQ_EN (n : Nat) : Nat := 0x100014 + n * 0x10000
abbrev ATTN_MERGE_TIMEOUT (n : Nat) : Nat := 0x100018 + n * 0x10000
abbrev ATTN_PARTIAL_CTRL (n : Nat) : Nat := 0x10001c + n * 0x10000
abbrev ATTN_CNT_SEL (n : Nat) : Nat := 0x100020 + n * 0x10000
abbrev ATTN_CNT_LO (n : Nat) : Nat := 0x100024 + n * 0x10000
abbrev ATTN_CNT_HI (n : Nat) : Nat := 0x100028 + n * 0x10000
abbrev ATTN_DROP_DUP (n : Nat) : Nat := 0x100030 + n * 0x10000
abbrev ATTN_DROP_STALE (n : Nat) : Nat := 0x100034 + n * 0x10000
abbrev ATTN_DROP_BAD (n : Nat) : Nat := 0x100038 + n * 0x10000
abbrev HBM_STATE (n : Nat) : Nat := 0x200000 + n * 0x10000
abbrev HBM_ECC_STATUS (n : Nat) : Nat := 0x200004 + n * 0x10000
abbrev HBM_ECC_PFN (n : Nat) : Nat := 0x200008 + n * 0x10000
abbrev HBM_SBECC_CNT (n : Nat) : Nat := 0x20000c + n * 0x10000
abbrev HBM_ODECC_CNT (n : Nat) : Nat := 0x200010 + n * 0x10000
abbrev OSIER_REGION_SEL (n : Nat) : Nat := 0x201000 + n * 0x10000
abbrev OSIER_REGION_STATE (n : Nat) : Nat := 0x201004 + n * 0x10000
abbrev OSIER_REGION_CMD (n : Nat) : Nat := 0x201008 + n * 0x10000
abbrev OSIER_REGION_RESULT (n : Nat) : Nat := 0x20100c + n * 0x10000
abbrev OSIER_REGION_GEN_LO (n : Nat) : Nat := 0x201010 + n * 0x10000
abbrev OSIER_REGION_GEN_HI (n : Nat) : Nat := 0x201014 + n * 0x10000
abbrev OSIER_YIELD_WINDOW (n : Nat) : Nat := 0x201018 + n * 0x10000
abbrev OSIER_STATUS (n : Nat) : Nat := 0x20101c + n * 0x10000
abbrev OSIER_IRQ_EN (n : Nat) : Nat := 0x201020 + n * 0x10000
abbrev OSIER_PREEMPT_CNT (n : Nat) : Nat := 0x201024 + n * 0x10000
abbrev OSIER_YIELD_CNT (n : Nat) : Nat := 0x201028 + n * 0x10000
abbrev OSIER_UNIT_SEL (n : Nat) : Nat := 0x20102c + n * 0x10000
abbrev OSIER_UNIT_STATE (n : Nat) : Nat := 0x201030 + n * 0x10000
abbrev OSIER_U_CMD (stack unit : Nat) : Nat := 0x200000 + stack * 0x10000 + 0x4000 + unit * 0x10
abbrev OSIER_U_STATUS (stack unit : Nat) : Nat := 0x200000 + stack * 0x10000 + 0x4004 + unit * 0x10
abbrev OSIER_U_A0 (stack unit : Nat) : Nat := 0x200000 + stack * 0x10000 + 0x4008 + unit * 0x10
abbrev OSIER_U_C0 (stack unit : Nat) : Nat := 0x200000 + stack * 0x10000 + 0x400c + unit * 0x10
abbrev DDR_STATE (n : Nat) : Nat := 0x400000 + n * 0x1000
abbrev DDR_ECC_STATUS (n : Nat) : Nat := 0x400004 + n * 0x1000
abbrev DDR_ECC_PFN (n : Nat) : Nat := 0x400008 + n * 0x1000
abbrev DDR_ECC_CNT (n : Nat) : Nat := 0x40000c + n * 0x1000
abbrev DDR_IRQ_EN (n : Nat) : Nat := 0x400010 + n * 0x1000
abbrev PORT_STATE (n : Nat) : Nat := 0x500000 + n * 0x4000
abbrev PORT_PEER (n : Nat) : Nat := 0x500004 + n * 0x4000
abbrev PORT_CTRL (n : Nat) : Nat := 0x500008 + n * 0x4000
abbrev PORT_FEC_LIMIT (n : Nat) : Nat := 0x50000c + n * 0x4000
abbrev PORT_FEC_CORR_CNT (n : Nat) : Nat := 0x500010 + n * 0x4000
abbrev PORT_FEC_UNCORR_CNT (n : Nat) : Nat := 0x500014 + n * 0x4000
abbrev PORT_REPLAY_CNT (n : Nat) : Nat := 0x500018 + n * 0x4000
abbrev PORT_RETRAIN_CNT (n : Nat) : Nat := 0x50001c + n * 0x4000
abbrev PORT_AUTH_FAIL (n : Nat) : Nat := 0x500020 + n * 0x4000
abbrev PORT_MISROUTE_CNT (n : Nat) : Nat := 0x500024 + n * 0x4000
abbrev PORT_BAD_FRAME_CNT (n : Nat) : Nat := 0x500028 + n * 0x4000
abbrev PORT_STATUS (n : Nat) : Nat := 0x500030 + n * 0x4000
abbrev PORT_IRQ_EN (n : Nat) : Nat := 0x500034 + n * 0x4000
abbrev FAB_NODE : Nat := 0x502000
abbrev FAB_REQ_TIMEOUT : Nat := 0x502004
abbrev FAB_ROUTE_SEL : Nat := 0x502008
abbrev FAB_ROUTE_PORTS : Nat := 0x50200c
abbrev FAB_STATUS : Nat := 0x502010
abbrev FAB_DEAD : Nat := 0x502014
abbrev FAB_IRQ_EN : Nat := 0x502018
abbrev FAB_QUIESCE_SEL : Nat := 0x50201c
abbrev FAB_QUIESCE : Nat := 0x502020
abbrev FAB_CMD_ADDR_LO : Nat := 0x502024
abbrev FAB_CMD_ADDR_HI : Nat := 0x502028
abbrev FAB_CMD_KEY : Nat := 0x50202c
abbrev FAB_CMD_DATA_LO : Nat := 0x502030
abbrev FAB_CMD_DATA_HI : Nat := 0x502034
abbrev FAB_CMD_CMP_LO : Nat := 0x502038
abbrev FAB_CMD_CMP_HI : Nat := 0x50203c
abbrev FAB_CMD : Nat := 0x502040
abbrev FAB_CMD_RESULT : Nat := 0x502044
abbrev FAB_CMD_RDATA_LO : Nat := 0x502048
abbrev FAB_CMD_RDATA_HI : Nat := 0x50204c
abbrev FAB_OUTSTANDING : Nat := 0x502050
abbrev FAB_LATE_CNT : Nat := 0x502054
abbrev QPE_CTRL : Nat := 0x600000
abbrev QPE_CTX_BASE_LO : Nat := 0x600004
abbrev QPE_CTX_BASE_HI : Nat := 0x600008
abbrev QPE_CTX_LIMIT : Nat := 0x60000c
abbrev QPE_REGION_BASE : Nat := 0x600010
abbrev QPE_PATH_BASE : Nat := 0x600018
abbrev QPE_EVT_BASE : Nat := 0x60001c
abbrev QPE_REGION_COUNT : Nat := 0x600014
abbrev QPE_EVT_SIZE : Nat := 0x600020
abbrev QPE_EVT_HEAD : Nat := 0x600024
abbrev QPE_EVT_TAIL : Nat := 0x600028
abbrev QPE_EVT_LOST : Nat := 0x60002c
abbrev QPE_CC_TARGET : Nat := 0x600030
abbrev QPE_CC_FACTORS : Nat := 0x600034
abbrev QPE_CC_WINDOW : Nat := 0x600038
abbrev QPE_RETRY : Nat := 0x60003c
abbrev QPE_CNR_HINT : Nat := 0x600040
abbrev QPE_CC_BASE : Nat := 0x600044
abbrev QPE_QP_SEL : Nat := 0x600050
abbrev QPE_QP_OWNER : Nat := 0x600054
abbrev QPE_QP_PEER : Nat := 0x600058
abbrev QPE_QP_PEER_QPN : Nat := 0x60005c
abbrev QPE_QP_SQ : Nat := 0x600060
abbrev QPE_QP_CMD : Nat := 0x600064
abbrev QPE_QP_STATE : Nat := 0x600068
abbrev QPE_PATH_SEL : Nat := 0x600070
abbrev QPE_PATH : Nat := 0x600074
abbrev QPE_REG_BASE_LO : Nat := 0x600080
abbrev QPE_REG_BASE_HI : Nat := 0x600084
abbrev QPE_REG_LEN_LO : Nat := 0x600088
abbrev QPE_REG_LEN_HI : Nat := 0x60008c
abbrev QPE_REG_OWNER : Nat := 0x600090
abbrev QPE_REG_CMD : Nat := 0x600094
abbrev QPE_REG_KEY : Nat := 0x600098
abbrev QPE_REG_RESULT : Nat := 0x60009c
abbrev QPE_REG_NEWKEY : Nat := 0x6000a0
abbrev QPE_REG_INFLIGHT : Nat := 0x6000a4
abbrev QPE_POST_LO : Nat := 0x6000b0
abbrev QPE_POST_HI : Nat := 0x6000b4
abbrev QPE_POST : Nat := 0x6000b8
abbrev QPE_POST_RESULT : Nat := 0x6000bc
abbrev QPE_HOLD_SEL : Nat := 0x6000c0
abbrev QPE_HOLD_STATE : Nat := 0x6000c4
abbrev QPE_STATUS : Nat := 0x6000d0
abbrev QPE_IRQ_EN : Nat := 0x6000d4
abbrev QPE_CNT_SEL : Nat := 0x6000e0
abbrev QPE_CNT_LO : Nat := 0x6000e4
abbrev QPE_CNT_HI : Nat := 0x6000e8
abbrev EGR_CTRL (n : Nat) : Nat := 0x700000 + n * 0x2000
abbrev EGR_TC_SEL (n : Nat) : Nat := 0x700004 + n * 0x2000
abbrev EGR_SHAPE_RATE (n : Nat) : Nat := 0x700008 + n * 0x2000
abbrev EGR_SHAPE_BURST (n : Nat) : Nat := 0x70000c + n * 0x2000
abbrev EGR_SHAPE_TOKENS (n : Nat) : Nat := 0x700010 + n * 0x2000
abbrev EGR_DRR_QUANTUM (n : Nat) : Nat := 0x700014 + n * 0x2000
abbrev EGR_DRR_DEFICIT (n : Nat) : Nat := 0x700018 + n * 0x2000
abbrev EGR_GATE_GUARD (n : Nat) : Nat := 0x70001c + n * 0x2000
abbrev EGR_GATE_CYCLE (n : Nat) : Nat := 0x700020 + n * 0x2000
abbrev EGR_GATE_BASE_LO (n : Nat) : Nat := 0x700024 + n * 0x2000
abbrev EGR_GATE_BASE_HI (n : Nat) : Nat := 0x700028 + n * 0x2000
abbrev EGR_GATE_ENT_SEL (n : Nat) : Nat := 0x70002c + n * 0x2000
abbrev EGR_GATE_ENTRY (n : Nat) : Nat := 0x700030 + n * 0x2000
abbrev EGR_GATE_LEN (n : Nat) : Nat := 0x700034 + n * 0x2000
abbrev EGR_GATE_CMD (n : Nat) : Nat := 0x700038 + n * 0x2000
abbrev EGR_GATE_RESULT (n : Nat) : Nat := 0x70003c + n * 0x2000
abbrev EGR_CNT_SEL (n : Nat) : Nat := 0x700040 + n * 0x2000
abbrev EGR_CNT_LO (n : Nat) : Nat := 0x700044 + n * 0x2000
abbrev EGR_CNT_HI (n : Nat) : Nat := 0x700048 + n * 0x2000
abbrev EGR_STATUS (n : Nat) : Nat := 0x700050 + n * 0x2000
abbrev EGR_IRQ_EN (n : Nat) : Nat := 0x700054 + n * 0x2000
abbrev EGR_POL_SEL : Nat := 0x701000
abbrev EGR_POL_RATE : Nat := 0x701004
abbrev EGR_POL_BURST : Nat := 0x701008
abbrev EGR_POL_DROP_CNT : Nat := 0x70100c
abbrev EGR_POL_STATUS : Nat := 0x701010
abbrev EGR_POL_IRQ_EN : Nat := 0x701014

end Sys2Proof.Machine.Off
end

