-- ==== Sys2Proof/Machine/RegTable.lean ====
section
/-! DEFINITION. The register tables of the spec: for every register its offset, its fields with their types and reset values
(18 R441, R459, R460 and the register rule of each chapter). -/
namespace Sys2Proof.Machine
open Sys2Proof

/-- Register types (00 R10). -/
inductive RegTy where
  | rw | ro | wo | rwg | rcseq
deriving DecidableEq, Repr

/-- A field: lowest bit, width, type, reset value. -/
structure RFld where
  lo : Nat
  w : Nat
  ty : RegTy
  reset : Nat
deriving DecidableEq, Repr

/-- A register: its offset from the base of its block's tables, and its fields. -/
structure Reg where
  off : Nat
  fields : List RFld
deriving DecidableEq, Repr

def globalRegs0 : List Reg := [
  ⟨0x0, [⟨0, 16, .ro, 0x1fd3⟩, ⟨16, 16, .ro, 0x3200⟩]⟩, -- GLOBAL_ID
  ⟨0x4, [⟨0, 8, .ro, 0xb0⟩]⟩, -- GLOBAL_REV
  ⟨0x8, [⟨0, 32, .ro, 0x0⟩]⟩, -- GLOBAL_SERIAL_0
  ⟨0xc, [⟨0, 32, .ro, 0x0⟩]⟩, -- GLOBAL_SERIAL_1
  ⟨0x10, [⟨0, 32, .ro, 0x0⟩]⟩, -- GLOBAL_SERIAL_2
  ⟨0x14, [⟨0, 32, .ro, 0x0⟩]⟩, -- GLOBAL_SERIAL_3
  ⟨0x18, [⟨0, 8, .ro, 0x80⟩, ⟨8, 8, .ro, 0x20⟩, ⟨16, 8, .ro, 0x8⟩, ⟨24, 8, .ro, 0x18⟩]⟩, -- GLOBAL_CAP_0
  ⟨0x1c, [⟨0, 5, .ro, 0x10⟩, ⟨8, 5, .ro, 0x10⟩, ⟨16, 9, .ro, 0x100⟩]⟩, -- GLOBAL_CAP_1
  ⟨0x20, [⟨0, 13, .ro, 0x1000⟩, ⟨16, 7, .ro, 0x40⟩]⟩, -- GLOBAL_CAP_2
  ⟨0x24, [⟨0, 15, .ro, 0x7fff⟩, ⟨16, 1, .ro, 0x1⟩, ⟨17, 1, .ro, 0x1⟩, ⟨18, 1, .ro, 0x1⟩, ⟨19, 1, .ro, 0x1⟩]⟩, -- GLOBAL_CAP_3
  ⟨0x28, [⟨0, 8, .ro, 0x0⟩, ⟨8, 6, .ro, 0x0⟩, ⟨16, 5, .ro, 0x0⟩, ⟨24, 5, .ro, 0x0⟩]⟩, -- GLOBAL_FENCED
  ⟨0x30, [⟨0, 32, .ro, 0x0⟩]⟩, -- GLOBAL_FENCED_STACKS
  ⟨0x34, [⟨0, 16, .ro, 0x0⟩]⟩, -- GLOBAL_FENCED_CHANNELS
  ⟨0x38, [⟨0, 24, .ro, 0x0⟩]⟩, -- GLOBAL_FENCED_PORTS
  ⟨0x2c, [⟨0, 2, .ro, 0x0⟩, ⟨16, 16, .ro, 0x0⟩]⟩, -- GLOBAL_RESET_CAUSE
  ⟨0x40, [⟨0, 18, .ro, 0x0⟩]⟩, -- GLOBAL_IRQ_SUMMARY
  ⟨0x44, [⟨0, 8, .ro, 0x0⟩, ⟨16, 16, .ro, 0x0⟩]⟩, -- GLOBAL_IRQ_UNITS
  ⟨0x48, [⟨0, 24, .ro, 0x0⟩]⟩, -- GLOBAL_IRQ_PORTS
  ⟨0x4c, [⟨0, 32, .ro, 0x0⟩]⟩, -- GLOBAL_IRQ_STACKS
  ⟨0x50, [⟨0, 18, .rwg, 0x3ffff⟩]⟩, -- GLOBAL_IRQ_EN
  ⟨0x54, [⟨0, 18, .rwg, 0x40⟩]⟩, -- GLOBAL_SB_IRQ_EN
  ⟨0x60, [⟨0, 16, .rcseq, 0x0⟩, ⟨16, 1, .rcseq, 0x0⟩, ⟨17, 1, .rcseq, 0x0⟩, ⟨18, 1, .rcseq, 0x0⟩]⟩, -- GLOBAL_STATUS
  ⟨0x64, [⟨0, 26, .ro, 0x0⟩, ⟨31, 1, .ro, 0x0⟩]⟩, -- GLOBAL_PARITY_ADDR
  ⟨0x68, [⟨0, 32, .ro, 0x0⟩]⟩] -- GLOBAL_PARITY_SEL

def globalRegs1 : List Reg := [
  ⟨0x6c, [⟨0, 26, .ro, 0x0⟩, ⟨26, 4, .ro, 0x0⟩, ⟨30, 2, .ro, 0x0⟩]⟩, -- GLOBAL_ACCESS_ADDR
  ⟨0x70, [⟨0, 32, .ro, 0x0⟩]⟩, -- GLOBAL_ACCESS_CNT
  ⟨0x74, [⟨0, 32, .ro, 0x0⟩]⟩, -- GLOBAL_PARITY_CNT
  ⟨0x78, [⟨0, 1, .rwg, 0x1⟩]⟩, -- GLOBAL_PARITY_CTRL
  ⟨0x80, [⟨0, 16, .rwg, 0x0⟩, ⟨31, 1, .rwg, 0x0⟩]⟩] -- GLOBAL_MGMT_RID

/-- GLOBAL (18 459). -/
def globalRegs : List Reg := globalRegs0 ++ globalRegs1

def commitRegs0 : List Reg := [
  ⟨0x10000, [⟨0, 4, .ro, 0x0⟩, ⟨8, 4, .ro, 0x0⟩, ⟨16, 16, .ro, 0x0⟩]⟩, -- COMMIT_BOOT
  ⟨0x10004, [⟨0, 16, .ro, 0x0⟩, ⟨16, 3, .ro, 0x1⟩]⟩, -- COMMIT_MAP_GEN
  ⟨0x10008, [⟨0, 2, .rw, 0x0⟩]⟩, -- COMMIT_GEN_SEL
  ⟨0x1000c, [⟨0, 32, .ro, 0x0⟩]⟩, -- COMMIT_GEN_INFLIGHT
  ⟨0x10010, [⟨0, 14, .ro, 0x0⟩, ⟨16, 2, .ro, 0x0⟩]⟩, -- COMMIT_STAGE_STATE
  ⟨0x10014, [⟨0, 16, .rwg, 0x0⟩]⟩, -- COMMIT_STAGE_ITEM
  ⟨0x10018, [⟨0, 32, .rwg, 0x0⟩]⟩, -- COMMIT_STAGE_INDEX
  ⟨0x1001c, [⟨0, 32, .rwg, 0x0⟩]⟩, -- COMMIT_STAGE_VALUE_LO
  ⟨0x10020, [⟨0, 32, .rwg, 0x0⟩]⟩, -- COMMIT_STAGE_VALUE_HI
  ⟨0x10024, [⟨0, 1, .wo, 0x0⟩, ⟨1, 2, .rwg, 0x0⟩]⟩, -- COMMIT_CMD
  ⟨0x10028, [⟨0, 16, .ro, 0x0⟩, ⟨16, 1, .ro, 0x0⟩]⟩, -- COMMIT_RESULT
  ⟨0x1002c, [⟨0, 14, .ro, 0x3fff⟩, ⟨16, 4, .ro, 0x0⟩, ⟨20, 12, .ro, 0x0⟩]⟩, -- COMMIT_CHECK_INFO
  ⟨0x10030, [⟨0, 12, .ro, 0x0⟩, ⟨31, 1, .ro, 0x0⟩]⟩, -- COMMIT_CHECK_CTX
  ⟨0x10034, [⟨0, 4, .rw, 0x0⟩, ⟨8, 1, .rw, 0x0⟩]⟩, -- COMMIT_MAP_SEL
  ⟨0x10038, [⟨0, 32, .ro, 0x0⟩]⟩, -- COMMIT_MAP_CLUSTERS
  ⟨0x1003c, [⟨0, 32, .ro, 0x0⟩]⟩, -- COMMIT_MAP_STACKS
  ⟨0x10040, [⟨0, 32, .ro, 0x0⟩]⟩, -- COMMIT_MAP_QUARTERS_0
  ⟨0x10044, [⟨0, 32, .ro, 0x0⟩]⟩, -- COMMIT_MAP_QUARTERS_1
  ⟨0x10048, [⟨0, 32, .ro, 0x0⟩]⟩, -- COMMIT_MAP_QUARTERS_2
  ⟨0x1004c, [⟨0, 16, .ro, 0x0⟩, ⟨31, 1, .ro, 0x0⟩]⟩, -- COMMIT_MAP_CHANNELS
  ⟨0x10050, [⟨0, 24, .ro, 0x0⟩]⟩, -- COMMIT_MAP_PORTS
  ⟨0x10054, [⟨0, 32, .ro, 0x0⟩]⟩, -- COMMIT_MAP_BANKS_LO
  ⟨0x10058, [⟨0, 32, .ro, 0x0⟩]⟩, -- COMMIT_MAP_BANKS_HI
  ⟨0x10060, [⟨0, 16, .rcseq, 0x0⟩, ⟨16, 1, .rcseq, 0x0⟩, ⟨17, 1, .rcseq, 0x0⟩, ⟨18, 1, .rcseq, 0x0⟩, ⟨19, 1, .rcseq, 0x0⟩, ⟨20, 1, .rcseq, 0x0⟩, ⟨21, 11, .rcseq, 0x0⟩]⟩] -- COMMIT_STATUS

def commitRegs1 : List Reg := [
  ⟨0x10064, [⟨0, 5, .rwg, 0x1e⟩]⟩, -- COMMIT_IRQ_EN
  ⟨0x10070, [⟨0, 32, .rwg, 0x0⟩]⟩, -- COMMIT_RECOVERY_ADDR_LO
  ⟨0x10074, [⟨0, 32, .rwg, 0x0⟩]⟩, -- COMMIT_RECOVERY_ADDR_HI
  ⟨0x10078, [⟨0, 23, .rwg, 0x0⟩]⟩, -- COMMIT_RECOVERY_LEN
  ⟨0x1007c, [⟨0, 1, .wo, 0x0⟩]⟩, -- COMMIT_RECOVERY_CMD
  ⟨0x10080, [⟨0, 16, .ro, 0x0⟩, ⟨16, 1, .ro, 0x0⟩]⟩] -- COMMIT_RECOVERY_RESULT

/-- COMMIT (17 439). -/
def commitRegs : List Reg := commitRegs0 ++ commitRegs1

def hostqRegs0 : List Reg := [
  ⟨0x20000, [⟨0, 1, .rwg, 0x0⟩, ⟨1, 1, .rwg, 0x1⟩]⟩, -- HOSTQ_CTRL
  ⟨0x20004, [⟨0, 32, .rwg, 0x0⟩]⟩, -- HOSTQ_DB_BASE_LO
  ⟨0x20008, [⟨0, 32, .rwg, 0x0⟩]⟩, -- HOSTQ_DB_BASE_HI
  ⟨0x2000c, [⟨0, 16, .rwg, 0xfa⟩]⟩, -- HOSTQ_SCAN_MIN
  ⟨0x20010, [⟨0, 16, .rwg, 0xc350⟩]⟩, -- HOSTQ_SCAN_MAX
  ⟨0x20014, [⟨0, 16, .rwg, 0x3e8⟩]⟩, -- HOSTQ_SWEEP
  ⟨0x20018, [⟨0, 8, .rwg, 0x20⟩]⟩, -- HOSTQ_FETCH_BURST
  ⟨0x20020, [⟨0, 32, .rwg, 0x0⟩]⟩, -- HOSTQ_ADMIN_SQ_LO
  ⟨0x20024, [⟨0, 32, .rwg, 0x0⟩]⟩, -- HOSTQ_ADMIN_SQ_HI
  ⟨0x20028, [⟨0, 32, .rwg, 0x0⟩]⟩, -- HOSTQ_ADMIN_CQ_LO
  ⟨0x2002c, [⟨0, 32, .rwg, 0x0⟩]⟩, -- HOSTQ_ADMIN_CQ_HI
  ⟨0x20030, [⟨0, 4, .rwg, 0x0⟩, ⟨31, 1, .rwg, 0x0⟩]⟩, -- HOSTQ_ADMIN_CFG
  ⟨0x20040, [⟨0, 12, .rw, 0x0⟩]⟩, -- HOSTQ_RING_SEL
  ⟨0x20044, [⟨0, 32, .rwg, 0x0⟩]⟩, -- HOSTQ_RING_SQ_LO
  ⟨0x20048, [⟨0, 32, .rwg, 0x0⟩]⟩, -- HOSTQ_RING_SQ_HI
  ⟨0x2004c, [⟨0, 32, .rwg, 0x0⟩]⟩, -- HOSTQ_RING_CQ_LO
  ⟨0x20050, [⟨0, 32, .rwg, 0x0⟩]⟩, -- HOSTQ_RING_CQ_HI
  ⟨0x20054, [⟨0, 4, .rwg, 0x0⟩, ⟨4, 6, .rwg, 0x0⟩, ⟨10, 11, .rwg, 0x0⟩, ⟨31, 1, .rwg, 0x0⟩]⟩, -- HOSTQ_RING_CFG
  ⟨0x20058, [⟨0, 2, .ro, 0x0⟩, ⟨16, 16, .ro, 0x0⟩]⟩, -- HOSTQ_RING_STATE
  ⟨0x2005c, [⟨0, 16, .ro, 0x0⟩, ⟨16, 16, .ro, 0x0⟩]⟩, -- HOSTQ_RING_HEADS
  ⟨0x20080, [⟨0, 11, .rw, 0x0⟩]⟩, -- HOSTQ_VEC_SEL
  ⟨0x20084, [⟨0, 9, .rwg, 0x1⟩, ⟨16, 16, .rwg, 0x0⟩]⟩, -- HOSTQ_VEC_MOD
  ⟨0x20090, [⟨0, 6, .rw, 0x0⟩]⟩, -- HOSTQ_FUNC_SEL
  ⟨0x20094, [⟨0, 12, .rwg, 0x0⟩, ⟨16, 11, .rwg, 0x0⟩]⟩] -- HOSTQ_FUNC_VECTORS

def hostqRegs1 : List Reg := [
  ⟨0x200a0, [⟨0, 16, .rcseq, 0x0⟩, ⟨16, 1, .rcseq, 0x0⟩, ⟨17, 1, .rcseq, 0x0⟩, ⟨18, 1, .rcseq, 0x0⟩, ⟨19, 1, .rcseq, 0x0⟩, ⟨20, 12, .rcseq, 0x0⟩]⟩, -- HOSTQ_STATUS
  ⟨0x200a4, [⟨0, 4, .rwg, 0xf⟩]⟩, -- HOSTQ_IRQ_EN
  ⟨0x200b0, [⟨0, 3, .rw, 0x0⟩]⟩, -- HOSTQ_CNT_SEL
  ⟨0x200b4, [⟨0, 32, .ro, 0x0⟩]⟩, -- HOSTQ_CNT_LO
  ⟨0x200b8, [⟨0, 32, .ro, 0x0⟩]⟩] -- HOSTQ_CNT_HI

/-- HOSTQ (10 266). -/
def hostqRegs : List Reg := hostqRegs0 ++ hostqRegs1

def ledgerRegs0 : List Reg := [
  ⟨0x30000, [⟨0, 12, .rwg, 0xc80⟩]⟩, -- LEDGER_BUDGET
  ⟨0x30004, [⟨0, 12, .rwg, 0x320⟩]⟩, -- LEDGER_BRAKE_FLOOR
  ⟨0x30008, [⟨0, 12, .ro, 0xc80⟩, ⟨12, 1, .ro, 0x0⟩, ⟨13, 1, .ro, 0x0⟩]⟩, -- LEDGER_EFFECTIVE
  ⟨0x3000c, [⟨0, 16, .ro, 0x7d00⟩]⟩, -- LEDGER_REFILL
  ⟨0x30010, [⟨0, 16, .ro, 0x0⟩]⟩, -- LEDGER_REMAIN
  ⟨0x30014, [⟨0, 16, .rwg, 0x4000⟩, ⟨16, 1, .rwg, 0x0⟩]⟩, -- LEDGER_SCALE
  ⟨0x30018, [⟨0, 32, .ro, 0x0⟩]⟩, -- LEDGER_DEBIT_LO
  ⟨0x3001c, [⟨0, 32, .ro, 0x0⟩]⟩, -- LEDGER_DEBIT_HI
  ⟨0x30020, [⟨0, 32, .ro, 0x0⟩]⟩, -- LEDGER_MEAS_LO
  ⟨0x30024, [⟨0, 32, .ro, 0x0⟩]⟩, -- LEDGER_MEAS_HI
  ⟨0x30028, [⟨0, 32, .ro, 0x0⟩]⟩, -- LEDGER_LAPSED
  ⟨0x3002c, [⟨0, 11, .rwg, 0x32⟩]⟩, -- LEDGER_RECON_LIMIT
  ⟨0x30030, [⟨0, 6, .rw, 0x0⟩]⟩, -- LEDGER_RECON_SEL
  ⟨0x30034, [⟨0, 32, .ro, 0x0⟩]⟩, -- LEDGER_RECON_DATA_0
  ⟨0x30038, [⟨0, 32, .ro, 0x0⟩]⟩, -- LEDGER_RECON_DATA_1
  ⟨0x3003c, [⟨0, 32, .ro, 0x0⟩]⟩, -- LEDGER_RECON_DATA_2
  ⟨0x30040, [⟨0, 16, .ro, 0x0⟩, ⟨16, 12, .ro, 0x0⟩, ⟨31, 1, .ro, 0x0⟩]⟩, -- LEDGER_RECON_DATA_3
  ⟨0x30050, [⟨0, 2, .ro, 0x0⟩, ⟨2, 1, .ro, 0x0⟩, ⟨8, 1, .wo, 0x0⟩, ⟨9, 1, .ro, 0x0⟩]⟩, -- LEDGER_BRAKE
  ⟨0x30054, [⟨0, 32, .ro, 0x0⟩]⟩, -- LEDGER_BRAKE_CNT
  ⟨0x30058, [⟨0, 32, .ro, 0x0⟩]⟩, -- LEDGER_CHATTER_CNT
  ⟨0x3005c, [⟨0, 32, .ro, 0x0⟩]⟩, -- LEDGER_ABORT_CNT
  ⟨0x30060, [⟨0, 16, .rcseq, 0x0⟩, ⟨16, 1, .rcseq, 0x0⟩, ⟨17, 1, .rcseq, 0x0⟩, ⟨18, 1, .rcseq, 0x0⟩, ⟨19, 1, .rcseq, 0x0⟩, ⟨20, 1, .rcseq, 0x0⟩, ⟨21, 1, .rcseq, 0x0⟩, ⟨22, 1, .rcseq, 0x0⟩, ⟨23, 1, .rcseq, 0x0⟩, ⟨24, 3, .rcseq, 0x0⟩]⟩, -- LEDGER_STATUS
  ⟨0x30064, [⟨0, 8, .rwg, 0xcb⟩]⟩, -- LEDGER_IRQ_EN
  ⟨0x30100, [⟨0, 3, .ro, 0x0⟩, ⟨8, 7, .ro, 0x0⟩, ⟨16, 10, .ro, 0x0⟩]⟩] -- THERM_BAND

def ledgerRegs1 : List Reg := [
  ⟨0x30104, [⟨0, 4, .rwg, 0x3⟩]⟩, -- THERM_HYST
  ⟨0x30108, [⟨0, 7, .rw, 0x0⟩]⟩, -- THERM_SENSOR_SEL
  ⟨0x3010c, [⟨0, 10, .ro, 0x0⟩, ⟨16, 1, .ro, 0x0⟩]⟩, -- THERM_SENSOR
  ⟨0x30110, [⟨0, 8, .rwg, 0x0⟩, ⟨8, 12, .rwg, 0xc80⟩, ⟨20, 1, .rwg, 0x0⟩]⟩, -- THERM_BAND_CFG_0
  ⟨0x30114, [⟨0, 8, .rwg, 0x3c⟩, ⟨8, 12, .rwg, 0xc80⟩, ⟨20, 1, .rwg, 0x0⟩]⟩, -- THERM_BAND_CFG_1
  ⟨0x30118, [⟨0, 8, .rwg, 0x46⟩, ⟨8, 12, .rwg, 0xc80⟩, ⟨20, 1, .rwg, 0x0⟩]⟩, -- THERM_BAND_CFG_2
  ⟨0x3011c, [⟨0, 8, .rwg, 0x50⟩, ⟨8, 12, .rwg, 0xbb8⟩, ⟨20, 1, .rwg, 0x0⟩]⟩, -- THERM_BAND_CFG_3
  ⟨0x30120, [⟨0, 8, .rwg, 0x58⟩, ⟨8, 12, .rwg, 0xa28⟩, ⟨20, 1, .rwg, 0x1⟩]⟩, -- THERM_BAND_CFG_4
  ⟨0x30124, [⟨0, 8, .rwg, 0x5f⟩, ⟨8, 12, .rwg, 0x7d0⟩, ⟨20, 1, .rwg, 0x1⟩]⟩, -- THERM_BAND_CFG_5
  ⟨0x30128, [⟨0, 8, .rwg, 0x64⟩, ⟨8, 12, .rwg, 0x578⟩, ⟨20, 1, .rwg, 0x1⟩]⟩, -- THERM_BAND_CFG_6
  ⟨0x3012c, [⟨0, 8, .rwg, 0x69⟩, ⟨8, 12, .rwg, 0x320⟩, ⟨20, 1, .rwg, 0x1⟩]⟩] -- THERM_BAND_CFG_7

/-- LEDGER (14 357). -/
def ledgerRegs : List Reg := ledgerRegs0 ++ ledgerRegs1

/-- CLOCK (14 358). -/
def clockRegs : List Reg := [
  ⟨0x40000, [⟨0, 1, .ro, 0x0⟩, ⟨1, 1, .ro, 0x0⟩]⟩, -- CLK_STATUS
  ⟨0x40004, [⟨0, 32, .ro, 0x0⟩]⟩, -- CLK_COUNTER_LO
  ⟨0x40008, [⟨0, 32, .ro, 0x0⟩]⟩, -- CLK_COUNTER_HI
  ⟨0x40010, [⟨0, 32, .rwg, 0x0⟩]⟩, -- CLK_CLUSTER_REQ
  ⟨0x40014, [⟨0, 32, .rwg, 0x0⟩]⟩, -- CLK_STACK_SLEEP_EN
  ⟨0x40018, [⟨0, 16, .rwg, 0x64⟩]⟩, -- CLK_STACK_IDLE
  ⟨0x40020, [⟨0, 16, .rcseq, 0x0⟩, ⟨16, 1, .rcseq, 0x0⟩, ⟨17, 1, .rcseq, 0x0⟩, ⟨18, 1, .rcseq, 0x0⟩, ⟨19, 1, .rcseq, 0x0⟩, ⟨24, 6, .rcseq, 0x0⟩]⟩, -- CLK_EVT_STATUS
  ⟨0x40024, [⟨0, 4, .rwg, 0x3⟩]⟩] -- CLK_IRQ_EN

def securityRegs0 : List Reg := [
  ⟨0x50000, [⟨0, 1, .rwg, 0x1⟩]⟩, -- SEC_CTRL
  ⟨0x50004, [⟨0, 16, .rcseq, 0x0⟩, ⟨16, 1, .rcseq, 0x0⟩, ⟨17, 1, .rcseq, 0x0⟩, ⟨18, 1, .rcseq, 0x0⟩, ⟨19, 1, .rcseq, 0x0⟩, ⟨20, 1, .rcseq, 0x0⟩, ⟨21, 1, .rcseq, 0x0⟩, ⟨22, 1, .rcseq, 0x0⟩, ⟨24, 5, .rcseq, 0x0⟩]⟩, -- SEC_STATUS
  ⟨0x50008, [⟨0, 7, .rwg, 0x37⟩]⟩, -- SEC_IRQ_EN
  ⟨0x5000c, [⟨0, 2, .ro, 0x0⟩, ⟨16, 16, .ro, 0x0⟩]⟩, -- SEC_RNG
  ⟨0x50010, [⟨0, 13, .rw, 0x0⟩]⟩, -- SEC_CTX_SEL
  ⟨0x50014, [⟨0, 2, .ro, 0x0⟩, ⟨2, 2, .ro, 0x0⟩, ⟨4, 4, .ro, 0x0⟩, ⟨16, 16, .ro, 0x0⟩]⟩, -- SEC_CTX_STATE
  ⟨0x50018, [⟨0, 32, .ro, 0x0⟩]⟩, -- SEC_CTX_TENANT
  ⟨0x5001c, [⟨0, 32, .ro, 0x0⟩]⟩, -- SEC_CTX_INFLIGHT
  ⟨0x50020, [⟨0, 32, .ro, 0x0⟩]⟩, -- SEC_DROP_CNT
  ⟨0x50024, [⟨0, 2, .ro, 0x0⟩, ⟨2, 12, .ro, 0x0⟩]⟩, -- SEC_GUARD_LOG
  ⟨0x50028, [⟨0, 32, .ro, 0x0⟩]⟩, -- SEC_GUARD_ADDR
  ⟨0x5002c, [⟨0, 32, .ro, 0x0⟩]⟩, -- SEC_GUARD_CNT
  ⟨0x50030, [⟨0, 1, .wo, 0x0⟩, ⟨1, 3, .rwg, 0x0⟩, ⟨8, 3, .rwg, 0x0⟩, ⟨12, 2, .rwg, 0x0⟩, ⟨16, 1, .rwg, 0x0⟩, ⟨17, 1, .rwg, 0x0⟩]⟩, -- SEC_CMD
  ⟨0x50034, [⟨0, 16, .ro, 0x0⟩, ⟨16, 1, .ro, 0x0⟩]⟩, -- SEC_CMD_RESULT
  ⟨0x50038, [⟨0, 12, .rw, 0x0⟩]⟩, -- SEC_DATA_INDEX
  ⟨0x5003c, [⟨0, 32, .rwg, 0x0⟩]⟩, -- SEC_DATA
  ⟨0x50040, [⟨0, 32, .rwg, 0x0⟩]⟩, -- SEC_ATTEST_ADDR_LO
  ⟨0x50044, [⟨0, 32, .rwg, 0x0⟩]⟩, -- SEC_ATTEST_ADDR_HI
  ⟨0x50048, [⟨0, 8, .rwg, 0x4⟩]⟩, -- SEC_SCRUB_SHARE
  ⟨0x5004c, [⟨0, 32, .ro, 0x0⟩]⟩, -- SEC_SCRUB_PENDING
  ⟨0x50050, [⟨0, 3, .rw, 0x0⟩]⟩, -- SEC_KEY_SEL
  ⟨0x50054, [⟨0, 32, .ro, 0x0⟩]⟩, -- SEC_KEY_ID
  ⟨0x50058, [⟨0, 1, .ro, 0x0⟩, ⟨1, 1, .ro, 0x0⟩, ⟨31, 1, .ro, 0x0⟩]⟩, -- SEC_KEY_ROLE
  ⟨0x5005c, [⟨0, 16, .ro, 0x0⟩, ⟨16, 16, .ro, 0x0⟩]⟩] -- SEC_FUSE

def securityRegs1 : List Reg := [
  ⟨0x50060, [⟨0, 32, .ro, 0x0⟩]⟩, -- SEC_ID_FPR_0
  ⟨0x50064, [⟨0, 32, .ro, 0x0⟩]⟩, -- SEC_ID_FPR_1
  ⟨0x50068, [⟨0, 32, .ro, 0x0⟩]⟩, -- SEC_ID_FPR_2
  ⟨0x5006c, [⟨0, 32, .ro, 0x0⟩]⟩, -- SEC_ID_FPR_3
  ⟨0x50070, [⟨0, 32, .ro, 0x0⟩]⟩, -- SEC_ID_FPR_4
  ⟨0x50074, [⟨0, 32, .ro, 0x0⟩]⟩, -- SEC_ID_FPR_5
  ⟨0x50078, [⟨0, 32, .ro, 0x0⟩]⟩, -- SEC_ID_FPR_6
  ⟨0x5007c, [⟨0, 32, .ro, 0x0⟩]⟩] -- SEC_ID_FPR_7

/-- SECURITY (15 384). -/
def securityRegs : List Reg := securityRegs0 ++ securityRegs1

def faultRegs0 : List Reg := [
  ⟨0x60000, [⟨0, 1, .rwg, 0x1⟩]⟩, -- FAULT_CTRL
  ⟨0x60004, [⟨0, 2, .ro, 0x0⟩, ⟨8, 8, .ro, 0x0⟩]⟩, -- FAULT_STATE
  ⟨0x60008, [⟨0, 32, .rwg, 0x0⟩]⟩, -- FAULT_RING_LO
  ⟨0x6000c, [⟨0, 32, .rwg, 0x0⟩]⟩, -- FAULT_RING_HI
  ⟨0x60010, [⟨0, 4, .rwg, 0x0⟩, ⟨31, 1, .rwg, 0x0⟩]⟩, -- FAULT_RING_CFG
  ⟨0x60014, [⟨0, 16, .ro, 0x0⟩, ⟨16, 16, .rwg, 0x0⟩]⟩, -- FAULT_RING_HEADS
  ⟨0x60018, [⟨0, 4, .rw, 0x0⟩, ⟨4, 8, .rw, 0x0⟩]⟩, -- FAULT_LOG_SEL
  ⟨0x6001c, [⟨0, 32, .ro, 0x0⟩]⟩, -- FAULT_LOG_DATA
  ⟨0x60020, [⟨0, 1, .wo, 0x0⟩, ⟨1, 4, .rwg, 0x0⟩, ⟨5, 4, .rwg, 0x0⟩, ⟨9, 12, .rwg, 0x0⟩, ⟨16, 16, .rwg, 0x0⟩]⟩, -- FAULT_CMD
  ⟨0x60024, [⟨0, 16, .ro, 0x0⟩, ⟨16, 1, .ro, 0x0⟩]⟩, -- FAULT_CMD_RESULT
  ⟨0x60028, [⟨0, 16, .rcseq, 0x0⟩, ⟨16, 1, .rcseq, 0x0⟩, ⟨17, 1, .rcseq, 0x0⟩, ⟨18, 1, .rcseq, 0x0⟩, ⟨19, 1, .rcseq, 0x0⟩, ⟨20, 1, .rcseq, 0x0⟩, ⟨21, 1, .rcseq, 0x0⟩, ⟨22, 1, .rcseq, 0x0⟩, ⟨23, 1, .rcseq, 0x0⟩, ⟨24, 8, .rcseq, 0x0⟩]⟩, -- FAULT_STATUS
  ⟨0x6002c, [⟨0, 8, .rwg, 0xff⟩]⟩, -- FAULT_IRQ_EN
  ⟨0x60030, [⟨0, 3, .rw, 0x0⟩]⟩, -- FAULT_CNT_SEL
  ⟨0x60034, [⟨0, 32, .ro, 0x0⟩]⟩, -- FAULT_CNT_LO
  ⟨0x60038, [⟨0, 32, .ro, 0x0⟩]⟩, -- FAULT_CNT_HI
  ⟨0x60040, [⟨0, 8, .rw, 0x0⟩]⟩, -- FAULT_GROUP_SEL
  ⟨0x60044, [⟨0, 16, .rwg, 0x0⟩, ⟨16, 5, .rwg, 0x0⟩, ⟨21, 2, .rwg, 0x0⟩, ⟨23, 5, .rwg, 0x0⟩]⟩, -- FAULT_GROUP_CFG
  ⟨0x60048, [⟨0, 12, .rwg, 0x0⟩, ⟨16, 2, .rwg, 0x0⟩]⟩, -- FAULT_GROUP_CTX
  ⟨0x6004c, [⟨0, 5, .rw, 0x0⟩]⟩, -- FAULT_GROUP_MEMBER_SEL
  ⟨0x60050, [⟨0, 14, .rwg, 0x0⟩]⟩, -- FAULT_GROUP_MEMBER
  ⟨0x60054, [⟨0, 32, .ro, 0x0⟩]⟩, -- FAULT_GROUP_ROWS
  ⟨0x60058, [⟨0, 18, .rwg, 0x0⟩, ⟨18, 14, .rwg, 0x0⟩]⟩, -- FAULT_REBUILD
  ⟨0x60060, [⟨0, 1, .rwg, 0x0⟩, ⟨4, 8, .rwg, 0x1⟩, ⟨16, 12, .rwg, 0x4⟩]⟩, -- FAULT_SHADOW_CFG
  ⟨0x60064, [⟨0, 14, .rwg, 0x0⟩]⟩] -- FAULT_SHADOW_PRIMARY

def faultRegs1 : List Reg := [
  ⟨0x60068, [⟨0, 16, .rwg, 0x0⟩, ⟨16, 16, .rwg, 0x2710⟩]⟩, -- FAULT_SHADOW_LIMIT
  ⟨0x6006c, [⟨0, 32, .ro, 0x0⟩]⟩, -- FAULT_SHADOW_COMPARED
  ⟨0x60070, [⟨0, 32, .ro, 0x0⟩]⟩, -- FAULT_SHADOW_MISMATCH
  ⟨0x60074, [⟨0, 32, .ro, 0x0⟩]⟩, -- FAULT_SHADOW_UNMATCHED
  ⟨0x60080, [⟨0, 16, .rwg, 0x3e8⟩]⟩, -- FAULT_CANARY_PERIOD
  ⟨0x60084, [⟨0, 16, .rwg, 0x14⟩]⟩, -- FAULT_CANARY_COST
  ⟨0x60088, [⟨0, 7, .ro, 0x0⟩, ⟨8, 3, .ro, 0x0⟩, ⟨16, 1, .ro, 0x0⟩]⟩, -- FAULT_CANARY_LAST
  ⟨0x60090, [⟨0, 12, .rw, 0x0⟩, ⟨12, 4, .rw, 0x1⟩]⟩, -- FAULT_EPOCH_SEL
  ⟨0x60094, [⟨0, 8, .ro, 0x0⟩]⟩, -- FAULT_EPOCH
  ⟨0x600a0, [⟨0, 10, .rwg, 0xa⟩]⟩, -- FAULT_WDOG
  ⟨0x600b0, [⟨0, 3, .ro, 0x0⟩, ⟨8, 4, .ro, 0x0⟩]⟩, -- FAULT_GRADE
  ⟨0x600b4, [⟨0, 7, .rw, 0x0⟩, ⟨7, 17, .rw, 0x0⟩]⟩, -- FAULT_SVC_INDEX
  ⟨0x600b8, [⟨0, 32, .ro, 0x0⟩]⟩, -- FAULT_SVC_DATA
  ⟨0x600bc, [⟨0, 32, .ro, 0x0⟩]⟩] -- FAULT_SVC_HEAD

/-- FAULT (16 419). -/
def faultRegs : List Reg := faultRegs0 ++ faultRegs1

def weftRegs0 : List Reg := [
  ⟨0x70000, [⟨0, 1, .rwg, 0x0⟩, ⟨1, 1, .rwg, 0x1⟩, ⟨4, 4, .rwg, 0x4⟩]⟩, -- WEFT_CTRL
  ⟨0x70004, [⟨0, 16, .rwg, 0x3e8⟩]⟩, -- WEFT_WAIT_LIMIT
  ⟨0x70008, [⟨0, 32, .rwg, 0xffffffff⟩]⟩, -- WEFT_STORE_BASE
  ⟨0x7000c, [⟨0, 32, .rwg, 0x0⟩]⟩, -- WEFT_STORE_FRAMES
  ⟨0x70010, [⟨0, 32, .ro, 0x0⟩]⟩, -- WEFT_STORE_FREE
  ⟨0x70014, [⟨0, 9, .ro, 0x0⟩]⟩, -- WEFT_LOADED
  ⟨0x70018, [⟨0, 8, .rw, 0x0⟩]⟩, -- WEFT_HANDLE_SEL
  ⟨0x7001c, [⟨0, 2, .ro, 0x0⟩, ⟨16, 16, .ro, 0x0⟩]⟩, -- WEFT_HANDLE_STATE
  ⟨0x70020, [⟨0, 32, .ro, 0x0⟩]⟩, -- WEFT_HANDLE_INFLIGHT
  ⟨0x70040, [⟨0, 32, .ro, 0x0⟩]⟩, -- WEFT_HANDLE_DIGEST_0
  ⟨0x70044, [⟨0, 32, .ro, 0x0⟩]⟩, -- WEFT_HANDLE_DIGEST_1
  ⟨0x70048, [⟨0, 32, .ro, 0x0⟩]⟩, -- WEFT_HANDLE_DIGEST_2
  ⟨0x7004c, [⟨0, 32, .ro, 0x0⟩]⟩, -- WEFT_HANDLE_DIGEST_3
  ⟨0x70050, [⟨0, 32, .ro, 0x0⟩]⟩, -- WEFT_HANDLE_DIGEST_4
  ⟨0x70054, [⟨0, 32, .ro, 0x0⟩]⟩, -- WEFT_HANDLE_DIGEST_5
  ⟨0x70058, [⟨0, 32, .ro, 0x0⟩]⟩, -- WEFT_HANDLE_DIGEST_6
  ⟨0x7005c, [⟨0, 32, .ro, 0x0⟩]⟩, -- WEFT_HANDLE_DIGEST_7
  ⟨0x70060, [⟨0, 16, .rcseq, 0x0⟩, ⟨16, 1, .rcseq, 0x0⟩, ⟨17, 1, .rcseq, 0x0⟩, ⟨18, 1, .rcseq, 0x0⟩, ⟨19, 1, .rcseq, 0x0⟩, ⟨20, 1, .rcseq, 0x0⟩, ⟨24, 8, .rcseq, 0x0⟩]⟩, -- WEFT_STATUS
  ⟨0x70064, [⟨0, 8, .ro, 0x0⟩, ⟨8, 24, .ro, 0x0⟩]⟩, -- WEFT_LOAD_ERR
  ⟨0x70070, [⟨0, 16, .rwg, 0x1⟩, ⟨16, 16, .rwg, 0x1⟩]⟩, -- WEFT_KIND_COST_0
  ⟨0x70074, [⟨0, 16, .rwg, 0x2⟩, ⟨16, 16, .rwg, 0x2⟩]⟩, -- WEFT_KIND_COST_1
  ⟨0x70078, [⟨0, 16, .rwg, 0x2⟩, ⟨16, 16, .rwg, 0x1⟩]⟩, -- WEFT_KIND_COST_2
  ⟨0x7007c, [⟨0, 16, .rwg, 0x4⟩, ⟨16, 16, .rwg, 0x8⟩]⟩, -- WEFT_KIND_COST_3
  ⟨0x70080, [⟨0, 16, .rwg, 0x8⟩, ⟨16, 16, .rwg, 0x10⟩]⟩] -- WEFT_KIND_COST_4

def weftRegs1 : List Reg := [
  ⟨0x70090, [⟨0, 32, .ro, 0x0⟩]⟩, -- WEFT_ADMIT_CNT_LO
  ⟨0x70094, [⟨0, 32, .ro, 0x0⟩]⟩, -- WEFT_ADMIT_CNT_HI
  ⟨0x70098, [⟨0, 32, .ro, 0x0⟩]⟩] -- WEFT_DEGRADE_CNT

/-- WEFT (05 148). -/
def weftRegs : List Reg := weftRegs0 ++ weftRegs1

/-- COMPRESS (06 166). -/
def compressRegs : List Reg := [
  ⟨0x80000, [⟨0, 1, .rwg, 0x1⟩, ⟨1, 1, .rwg, 0x1⟩]⟩, -- COMP_CTRL
  ⟨0x80004, [⟨0, 6, .rw, 0x0⟩]⟩, -- COMP_SLOT_SEL
  ⟨0x80008, [⟨0, 2, .ro, 0x0⟩, ⟨4, 9, .ro, 0x0⟩, ⟨16, 10, .ro, 0x0⟩, ⟨26, 1, .ro, 0x0⟩]⟩, -- COMP_SLOT_STATE
  ⟨0x8000c, [⟨0, 32, .ro, 0x0⟩]⟩, -- COMP_SLOT_PAGES
  ⟨0x80010, [⟨0, 32, .ro, 0x0⟩]⟩, -- COMP_SLOT_INFLIGHT
  ⟨0x80014, [⟨0, 32, .ro, 0x0⟩]⟩, -- COMP_SLOT_TAG_LO
  ⟨0x80018, [⟨0, 32, .ro, 0x0⟩]⟩, -- COMP_SLOT_TAG_HI
  ⟨0x8001c, [⟨0, 7, .ro, 0x40⟩]⟩, -- COMP_SLOTS_FREE
  ⟨0x80020, [⟨0, 16, .rcseq, 0x0⟩, ⟨16, 1, .rcseq, 0x0⟩, ⟨17, 1, .rcseq, 0x0⟩, ⟨18, 1, .rcseq, 0x0⟩, ⟨19, 1, .rcseq, 0x0⟩, ⟨20, 1, .rcseq, 0x0⟩, ⟨21, 1, .rcseq, 0x0⟩, ⟨24, 6, .rcseq, 0x0⟩]⟩, -- COMP_STATUS
  ⟨0x80024, [⟨0, 6, .rwg, 0x3f⟩]⟩, -- COMP_IRQ_EN
  ⟨0x80028, [⟨0, 32, .ro, 0xffffffff⟩]⟩, -- COMP_ERR_PFN
  ⟨0x8002c, [⟨0, 32, .ro, 0x0⟩]⟩, -- COMP_ERR_CNT
  ⟨0x80030, [⟨0, 7, .rw, 0x0⟩, ⟨8, 4, .rw, 0x0⟩]⟩, -- COMP_CNT_SEL
  ⟨0x80034, [⟨0, 32, .ro, 0x0⟩]⟩, -- COMP_CNT_LO
  ⟨0x80038, [⟨0, 32, .ro, 0x0⟩]⟩] -- COMP_CNT_HI

def plaitRegs0 : List Reg := [
  ⟨0x90000, [⟨0, 1, .rwg, 0x1⟩, ⟨1, 1, .rwg, 0x1⟩]⟩, -- PLAIT_CTRL
  ⟨0x90004, [⟨0, 4, .rw, 0x0⟩]⟩, -- PLAIT_SLICE_SEL
  ⟨0x90008, [⟨0, 32, .ro, 0x0⟩]⟩, -- PLAIT_SLICE_BANKS_LO
  ⟨0x9000c, [⟨0, 32, .ro, 0x0⟩]⟩, -- PLAIT_SLICE_BANKS_HI
  ⟨0x90010, [⟨0, 32, .rwg, 0x0⟩]⟩, -- PLAIT_CMD_KEY_0
  ⟨0x90014, [⟨0, 32, .rwg, 0x0⟩]⟩, -- PLAIT_CMD_KEY_1
  ⟨0x90018, [⟨0, 32, .rwg, 0x0⟩]⟩, -- PLAIT_CMD_KEY_2
  ⟨0x9001c, [⟨0, 32, .rwg, 0x0⟩]⟩, -- PLAIT_CMD_KEY_3
  ⟨0x90020, [⟨0, 32, .rwg, 0xffffffff⟩]⟩, -- PLAIT_CMD_MASK_0
  ⟨0x90024, [⟨0, 32, .rwg, 0xffffffff⟩]⟩, -- PLAIT_CMD_MASK_1
  ⟨0x90028, [⟨0, 32, .rwg, 0xffffffff⟩]⟩, -- PLAIT_CMD_MASK_2
  ⟨0x9002c, [⟨0, 32, .rwg, 0xffffffff⟩]⟩, -- PLAIT_CMD_MASK_3
  ⟨0x90030, [⟨0, 32, .rwg, 0x0⟩]⟩, -- PLAIT_CMD_VALUE_LO
  ⟨0x90034, [⟨0, 32, .rwg, 0x0⟩]⟩, -- PLAIT_CMD_VALUE_HI
  ⟨0x90038, [⟨0, 32, .rwg, 0x0⟩]⟩, -- PLAIT_CMD_BANKS_LO
  ⟨0x9003c, [⟨0, 32, .rwg, 0x0⟩]⟩, -- PLAIT_CMD_BANKS_HI
  ⟨0x90040, [⟨0, 32, .rwg, 0x0⟩]⟩, -- PLAIT_CMD_CURSOR_LO
  ⟨0x90044, [⟨0, 32, .rwg, 0x0⟩]⟩, -- PLAIT_CMD_CURSOR_HI
  ⟨0x90048, [⟨0, 1, .wo, 0x0⟩, ⟨1, 3, .rwg, 0x0⟩, ⟨4, 12, .rwg, 0x0⟩, ⟨16, 16, .rwg, 0x0⟩]⟩, -- PLAIT_CMD
  ⟨0x9004c, [⟨0, 1, .rwg, 0x0⟩, ⟨1, 2, .rwg, 0x1⟩, ⟨8, 1, .ro, 0x0⟩]⟩, -- PLAIT_CMD_OPT
  ⟨0x90050, [⟨0, 1, .ro, 0x0⟩, ⟨1, 1, .ro, 0x0⟩, ⟨2, 1, .ro, 0x0⟩, ⟨4, 4, .ro, 0x0⟩, ⟨8, 6, .ro, 0x0⟩, ⟨16, 16, .ro, 0x0⟩]⟩, -- PLAIT_RESULT
  ⟨0x90054, [⟨0, 32, .ro, 0x0⟩]⟩, -- PLAIT_RESULT_VALUE_LO
  ⟨0x90058, [⟨0, 32, .ro, 0x0⟩]⟩, -- PLAIT_RESULT_VALUE_HI
  ⟨0x9005c, [⟨0, 32, .ro, 0x0⟩]⟩] -- PLAIT_RESULT_CURSOR_LO

def plaitRegs1 : List Reg := [
  ⟨0x90060, [⟨0, 32, .ro, 0x0⟩]⟩, -- PLAIT_RESULT_CURSOR_HI
  ⟨0x90070, [⟨0, 6, .rw, 0x0⟩]⟩, -- PLAIT_BANK_SEL
  ⟨0x90074, [⟨0, 17, .ro, 0x0⟩, ⟨20, 4, .ro, 0x0⟩, ⟨24, 1, .ro, 0x0⟩]⟩, -- PLAIT_BANK_COUNT
  ⟨0x90080, [⟨0, 16, .rcseq, 0x0⟩, ⟨16, 1, .rcseq, 0x0⟩, ⟨17, 1, .rcseq, 0x0⟩, ⟨18, 1, .rcseq, 0x0⟩, ⟨24, 6, .rcseq, 0x0⟩]⟩, -- PLAIT_STATUS
  ⟨0x90084, [⟨0, 3, .rwg, 0x3⟩]⟩, -- PLAIT_IRQ_EN
  ⟨0x90088, [⟨0, 17, .ro, 0x1ffff⟩, ⟨24, 6, .ro, 0x0⟩]⟩, -- PLAIT_ERR
  ⟨0x9008c, [⟨0, 4, .rw, 0x0⟩]⟩, -- PLAIT_CNT_SEL
  ⟨0x90090, [⟨0, 32, .ro, 0x0⟩]⟩, -- PLAIT_CNT_LO
  ⟨0x90094, [⟨0, 32, .ro, 0x0⟩]⟩] -- PLAIT_CNT_HI

/-- PLAIT (09 239). -/
def plaitRegs : List Reg := plaitRegs0 ++ plaitRegs1

/-- COMA (08 221). -/
def comaRegs : List Reg := [
  ⟨0xa0000, [⟨0, 1, .rwg, 0x1⟩, ⟨8, 6, .rwg, 0x10⟩]⟩, -- COMA_CTRL
  ⟨0xa0004, [⟨0, 16, .rwg, 0x3e8⟩]⟩, -- COMA_SHARD_TIMEOUT
  ⟨0xa0008, [⟨0, 12, .rwg, 0x0⟩]⟩, -- COMA_SEED_SEL
  ⟨0xa000c, [⟨0, 32, .rwg, 0x0⟩]⟩, -- COMA_SEED_LO
  ⟨0xa0010, [⟨0, 32, .rwg, 0x0⟩]⟩, -- COMA_SEED_HI
  ⟨0xa0014, [⟨0, 11, .ro, 0x0⟩]⟩, -- COMA_INDEXES
  ⟨0xa0020, [⟨0, 16, .rcseq, 0x0⟩, ⟨16, 1, .rcseq, 0x0⟩, ⟨17, 1, .rcseq, 0x0⟩, ⟨18, 1, .rcseq, 0x0⟩, ⟨19, 1, .rcseq, 0x0⟩, ⟨20, 1, .rcseq, 0x0⟩, ⟨24, 3, .rcseq, 0x0⟩]⟩, -- COMA_STATUS
  ⟨0xa0024, [⟨0, 5, .rwg, 0x3⟩]⟩] -- COMA_IRQ_EN

/-- COMAENG (08 221). -/
def engineRegs : List Reg := [
  ⟨0x0, [⟨0, 7, .ro, 0x0⟩, ⟨16, 7, .ro, 0x0⟩]⟩, -- COMA_ENG_BUSY
  ⟨0x4, [⟨0, 9, .ro, 0x0⟩]⟩, -- COMA_ENG_QUEUE
  ⟨0x8, [⟨0, 4, .rw, 0x0⟩]⟩, -- COMA_CNT_SEL
  ⟨0xc, [⟨0, 32, .ro, 0x0⟩]⟩, -- COMA_CNT_LO
  ⟨0x10, [⟨0, 32, .ro, 0x0⟩]⟩] -- COMA_CNT_HI

/-- TIER (03 86). -/
def tierRegs : List Reg := [
  ⟨0xb0000, [⟨0, 12, .rwg, 0x0⟩, ⟨16, 4, .rwg, 0x0⟩]⟩, -- TIER_SEL
  ⟨0xb0004, [⟨0, 32, .rwg, 0x0⟩]⟩, -- TIER_QUOTA_HBM
  ⟨0xb0008, [⟨0, 32, .rwg, 0x0⟩]⟩, -- TIER_QUOTA_BOARD
  ⟨0xb000c, [⟨0, 32, .rwg, 0x0⟩]⟩, -- TIER_QUOTA_REMOTE
  ⟨0xb0010, [⟨0, 32, .ro, 0x0⟩]⟩, -- TIER_USED_HBM
  ⟨0xb0014, [⟨0, 32, .ro, 0x0⟩]⟩, -- TIER_USED_BOARD
  ⟨0xb0018, [⟨0, 32, .ro, 0x0⟩]⟩, -- TIER_USED_REMOTE
  ⟨0xb0020, [⟨0, 32, .ro, 0x0⟩]⟩, -- TIER_POOL_FREE_HBM
  ⟨0xb0024, [⟨0, 32, .ro, 0x0⟩]⟩, -- TIER_POOL_FREE_BOARD
  ⟨0xb0028, [⟨0, 32, .rwg, 0x0⟩]⟩, -- TIER_POOL_LOW
  ⟨0xb002c, [⟨0, 10, .rwg, 0xa⟩]⟩, -- TIER_HANDOFF_TIMEOUT
  ⟨0xb0030, [⟨0, 16, .rcseq, 0x0⟩, ⟨16, 1, .rcseq, 0x0⟩, ⟨17, 1, .rcseq, 0x0⟩, ⟨18, 1, .rcseq, 0x0⟩, ⟨19, 1, .rcseq, 0x0⟩, ⟨20, 12, .rcseq, 0x0⟩]⟩, -- TIER_STATUS
  ⟨0xb0034, [⟨0, 23, .ro, 0x0⟩]⟩, -- TIER_PREFIX_RECORDS
  ⟨0xb0040, [⟨0, 32, .rwg, 0x0⟩]⟩, -- TIER_FLUSH_BASE
  ⟨0xb0044, [⟨0, 32, .rwg, 0x0⟩]⟩, -- TIER_FLUSH_COUNT
  ⟨0xb0048, [⟨0, 1, .wo, 0x0⟩, ⟨1, 1, .rwg, 0x0⟩, ⟨16, 1, .ro, 0x0⟩]⟩] -- TIER_FLUSH_CTRL

/-- ATTENTION (04 119). -/
def attentionRegs : List Reg := [
  ⟨0x0, [⟨0, 16, .rwg, 0xffff⟩, ⟨16, 16, .ro, 0x0⟩]⟩, -- ATTN_CORE_EN
  ⟨0x4, [⟨0, 4, .ro, 0x0⟩, ⟨4, 4, .ro, 0x0⟩, ⟨8, 4, .ro, 0x0⟩, ⟨12, 4, .ro, 0x0⟩]⟩, -- ATTN_CLUSTER_STATE
  ⟨0x10, [⟨0, 16, .rcseq, 0x0⟩, ⟨16, 1, .rcseq, 0x0⟩, ⟨17, 1, .rcseq, 0x0⟩, ⟨18, 1, .rcseq, 0x0⟩, ⟨19, 1, .rcseq, 0x0⟩, ⟨20, 1, .rcseq, 0x0⟩, ⟨24, 4, .rcseq, 0x0⟩]⟩, -- ATTN_STATUS
  ⟨0x14, [⟨0, 1, .rwg, 0x0⟩, ⟨1, 1, .rwg, 0x1⟩, ⟨2, 1, .rwg, 0x1⟩, ⟨3, 1, .rwg, 0x0⟩, ⟨4, 1, .rwg, 0x0⟩]⟩, -- ATTN_IRQ_EN
  ⟨0x18, [⟨0, 16, .rwg, 0x64⟩, ⟨16, 16, .rwg, 0x7d0⟩]⟩, -- ATTN_MERGE_TIMEOUT
  ⟨0x1c, [⟨0, 1, .rwg, 0x1⟩, ⟨1, 1, .rwg, 0x1⟩]⟩, -- ATTN_PARTIAL_CTRL
  ⟨0x20, [⟨0, 4, .rw, 0x0⟩, ⟨8, 4, .rw, 0x0⟩]⟩, -- ATTN_CNT_SEL
  ⟨0x24, [⟨0, 32, .ro, 0x0⟩]⟩, -- ATTN_CNT_LO
  ⟨0x28, [⟨0, 32, .ro, 0x0⟩]⟩, -- ATTN_CNT_HI
  ⟨0x30, [⟨0, 32, .ro, 0x0⟩]⟩, -- ATTN_DROP_DUP
  ⟨0x34, [⟨0, 32, .ro, 0x0⟩]⟩, -- ATTN_DROP_STALE
  ⟨0x38, [⟨0, 32, .ro, 0x0⟩]⟩] -- ATTN_DROP_BAD

/-- HBM (07 193). -/
def stackRegs : List Reg := [
  ⟨0x0, [⟨0, 3, .ro, 0x0⟩, ⟨3, 1, .ro, 0x0⟩]⟩, -- HBM_STATE
  ⟨0x4, [⟨0, 16, .rcseq, 0x0⟩, ⟨16, 1, .rcseq, 0x0⟩, ⟨17, 1, .rcseq, 0x0⟩, ⟨18, 1, .rcseq, 0x0⟩]⟩, -- HBM_ECC_STATUS
  ⟨0x8, [⟨0, 32, .ro, 0xffffffff⟩]⟩, -- HBM_ECC_PFN
  ⟨0xc, [⟨0, 32, .ro, 0x0⟩]⟩, -- HBM_SBECC_CNT
  ⟨0x10, [⟨0, 32, .ro, 0x0⟩]⟩, -- HBM_ODECC_CNT
  ⟨0x1000, [⟨0, 15, .rw, 0x0⟩]⟩, -- OSIER_REGION_SEL
  ⟨0x1004, [⟨0, 2, .ro, 0x0⟩, ⟨2, 1, .ro, 0x0⟩, ⟨3, 1, .ro, 0x0⟩, ⟨4, 1, .ro, 0x0⟩, ⟨5, 1, .ro, 0x0⟩, ⟨16, 12, .ro, 0x0⟩]⟩, -- OSIER_REGION_STATE
  ⟨0x1008, [⟨0, 1, .wo, 0x0⟩, ⟨1, 2, .rwg, 0x0⟩, ⟨16, 12, .rwg, 0x0⟩]⟩, -- OSIER_REGION_CMD
  ⟨0x100c, [⟨0, 2, .ro, 0x0⟩, ⟨8, 1, .ro, 0x0⟩]⟩, -- OSIER_REGION_RESULT
  ⟨0x1010, [⟨0, 32, .ro, 0x0⟩]⟩, -- OSIER_REGION_GEN_LO
  ⟨0x1014, [⟨0, 32, .ro, 0x0⟩]⟩, -- OSIER_REGION_GEN_HI
  ⟨0x1018, [⟨0, 13, .rwg, 0x800⟩]⟩, -- OSIER_YIELD_WINDOW
  ⟨0x101c, [⟨0, 16, .rcseq, 0x0⟩, ⟨16, 1, .rcseq, 0x0⟩, ⟨17, 1, .rcseq, 0x0⟩, ⟨18, 1, .rcseq, 0x0⟩, ⟨19, 1, .rcseq, 0x0⟩, ⟨20, 1, .rcseq, 0x0⟩, ⟨24, 8, .rcseq, 0x0⟩]⟩, -- OSIER_STATUS
  ⟨0x1020, [⟨0, 5, .rwg, 0x1a⟩]⟩, -- OSIER_IRQ_EN
  ⟨0x1024, [⟨0, 32, .ro, 0x0⟩]⟩, -- OSIER_PREEMPT_CNT
  ⟨0x1028, [⟨0, 32, .ro, 0x0⟩]⟩, -- OSIER_YIELD_CNT
  ⟨0x102c, [⟨0, 8, .rw, 0x0⟩]⟩, -- OSIER_UNIT_SEL
  ⟨0x1030, [⟨0, 3, .ro, 0x0⟩, ⟨8, 8, .ro, 0x0⟩, ⟨16, 16, .ro, 0x0⟩]⟩] -- OSIER_UNIT_STATE

/-- UNIT (07 193). -/
def unitRegs : List Reg := [
  ⟨0x4000, [⟨0, 1, .wo, 0x0⟩, ⟨1, 1, .wo, 0x0⟩, ⟨8, 8, .rwg, 0x0⟩]⟩, -- OSIER_U_CMD
  ⟨0x4004, [⟨0, 3, .ro, 0x0⟩, ⟨8, 8, .ro, 0x0⟩, ⟨16, 8, .ro, 0x0⟩]⟩, -- OSIER_U_STATUS
  ⟨0x4008, [⟨0, 28, .ro, 0x0⟩]⟩, -- OSIER_U_A0
  ⟨0x400c, [⟨0, 28, .ro, 0x0⟩]⟩] -- OSIER_U_C0

/-- DDR (18 460). -/
def ddrRegs : List Reg := [
  ⟨0x0, [⟨0, 3, .ro, 0x0⟩, ⟨4, 2, .ro, 0x0⟩, ⟨8, 8, .ro, 0x0⟩, ⟨16, 16, .ro, 0x0⟩]⟩, -- DDR_STATE
  ⟨0x4, [⟨0, 16, .rcseq, 0x0⟩, ⟨16, 1, .rcseq, 0x0⟩, ⟨17, 1, .rcseq, 0x0⟩, ⟨18, 1, .rcseq, 0x0⟩]⟩, -- DDR_ECC_STATUS
  ⟨0x8, [⟨0, 32, .ro, 0xffffffff⟩]⟩, -- DDR_ECC_PFN
  ⟨0xc, [⟨0, 32, .ro, 0x0⟩]⟩, -- DDR_ECC_CNT
  ⟨0x10, [⟨0, 3, .rwg, 0x6⟩]⟩] -- DDR_IRQ_EN

/-- PORT (11 288). -/
def portRegs : List Reg := [
  ⟨0x0, [⟨0, 3, .ro, 0x0⟩, ⟨4, 8, .ro, 0x0⟩, ⟨16, 1, .ro, 0x0⟩, ⟨17, 13, .ro, 0x0⟩, ⟨30, 2, .ro, 0x0⟩]⟩, -- PORT_STATE
  ⟨0x4, [⟨0, 14, .ro, 0x0⟩]⟩, -- PORT_PEER
  ⟨0x8, [⟨0, 1, .rwg, 0x0⟩, ⟨1, 1, .rwg, 0x1⟩, ⟨2, 1, .wo, 0x0⟩, ⟨8, 8, .rwg, 0xa⟩]⟩, -- PORT_CTRL
  ⟨0xc, [⟨0, 16, .rwg, 0x10⟩]⟩, -- PORT_FEC_LIMIT
  ⟨0x10, [⟨0, 32, .ro, 0x0⟩]⟩, -- PORT_FEC_CORR_CNT
  ⟨0x14, [⟨0, 32, .ro, 0x0⟩]⟩, -- PORT_FEC_UNCORR_CNT
  ⟨0x18, [⟨0, 32, .ro, 0x0⟩]⟩, -- PORT_REPLAY_CNT
  ⟨0x1c, [⟨0, 32, .ro, 0x0⟩]⟩, -- PORT_RETRAIN_CNT
  ⟨0x20, [⟨0, 32, .ro, 0x0⟩]⟩, -- PORT_AUTH_FAIL
  ⟨0x24, [⟨0, 32, .ro, 0x0⟩]⟩, -- PORT_MISROUTE_CNT
  ⟨0x28, [⟨0, 32, .ro, 0x0⟩]⟩, -- PORT_BAD_FRAME_CNT
  ⟨0x30, [⟨0, 16, .rcseq, 0x0⟩, ⟨16, 1, .rcseq, 0x0⟩, ⟨17, 1, .rcseq, 0x0⟩, ⟨18, 1, .rcseq, 0x0⟩, ⟨19, 1, .rcseq, 0x0⟩, ⟨20, 1, .rcseq, 0x0⟩, ⟨21, 5, .rcseq, 0x0⟩]⟩, -- PORT_STATUS
  ⟨0x34, [⟨0, 5, .rwg, 0x1b⟩]⟩] -- PORT_IRQ_EN

/-- PORT0 (11 288). -/
def fabRegs : List Reg := [
  ⟨0x2000, [⟨0, 14, .rwg, 0x0⟩, ⟨31, 1, .rwg, 0x0⟩]⟩, -- FAB_NODE
  ⟨0x2004, [⟨0, 20, .rwg, 0x3e8⟩]⟩, -- FAB_REQ_TIMEOUT
  ⟨0x2008, [⟨0, 14, .rw, 0x0⟩]⟩, -- FAB_ROUTE_SEL
  ⟨0x200c, [⟨0, 24, .rwg, 0x0⟩]⟩, -- FAB_ROUTE_PORTS
  ⟨0x2010, [⟨0, 16, .rcseq, 0x0⟩, ⟨16, 1, .rcseq, 0x0⟩, ⟨17, 1, .rcseq, 0x0⟩, ⟨18, 1, .rcseq, 0x0⟩, ⟨19, 1, .rcseq, 0x0⟩]⟩, -- FAB_STATUS
  ⟨0x2014, [⟨0, 14, .ro, 0x0⟩, ⟨16, 12, .ro, 0x0⟩]⟩, -- FAB_DEAD
  ⟨0x2018, [⟨0, 4, .rwg, 0x5⟩]⟩, -- FAB_IRQ_EN
  ⟨0x201c, [⟨0, 12, .rw, 0x0⟩]⟩, -- FAB_QUIESCE_SEL
  ⟨0x2020, [⟨0, 1, .ro, 0x0⟩, ⟨1, 1, .rwg, 0x0⟩, ⟨16, 16, .ro, 0x0⟩]⟩, -- FAB_QUIESCE
  ⟨0x2024, [⟨0, 32, .rwg, 0x0⟩]⟩, -- FAB_CMD_ADDR_LO
  ⟨0x2028, [⟨0, 32, .rwg, 0x0⟩]⟩, -- FAB_CMD_ADDR_HI
  ⟨0x202c, [⟨0, 32, .rwg, 0x0⟩]⟩, -- FAB_CMD_KEY
  ⟨0x2030, [⟨0, 32, .rwg, 0x0⟩]⟩, -- FAB_CMD_DATA_LO
  ⟨0x2034, [⟨0, 32, .rwg, 0x0⟩]⟩, -- FAB_CMD_DATA_HI
  ⟨0x2038, [⟨0, 32, .rwg, 0x0⟩]⟩, -- FAB_CMD_CMP_LO
  ⟨0x203c, [⟨0, 32, .rwg, 0x0⟩]⟩, -- FAB_CMD_CMP_HI
  ⟨0x2040, [⟨0, 1, .wo, 0x0⟩, ⟨1, 3, .rwg, 0x0⟩, ⟨4, 1, .rwg, 0x0⟩, ⟨5, 1, .rwg, 0x0⟩, ⟨16, 12, .rwg, 0x0⟩]⟩, -- FAB_CMD
  ⟨0x2044, [⟨0, 16, .ro, 0x0⟩, ⟨16, 1, .ro, 0x0⟩, ⟨17, 1, .ro, 0x0⟩, ⟨18, 1, .ro, 0x0⟩]⟩, -- FAB_CMD_RESULT
  ⟨0x2048, [⟨0, 32, .ro, 0x0⟩]⟩, -- FAB_CMD_RDATA_LO
  ⟨0x204c, [⟨0, 32, .ro, 0x0⟩]⟩, -- FAB_CMD_RDATA_HI
  ⟨0x2050, [⟨0, 32, .ro, 0x0⟩]⟩, -- FAB_OUTSTANDING
  ⟨0x2054, [⟨0, 32, .ro, 0x0⟩]⟩] -- FAB_LATE_CNT

def qpeRegs0 : List Reg := [
  ⟨0x600000, [⟨0, 1, .rwg, 0x0⟩, ⟨1, 1, .rwg, 0x0⟩]⟩, -- QPE_CTRL
  ⟨0x600004, [⟨0, 32, .rwg, 0x0⟩]⟩, -- QPE_CTX_BASE_LO
  ⟨0x600008, [⟨0, 32, .rwg, 0x0⟩]⟩, -- QPE_CTX_BASE_HI
  ⟨0x60000c, [⟨0, 24, .rwg, 0x0⟩]⟩, -- QPE_CTX_LIMIT
  ⟨0x600010, [⟨0, 32, .rwg, 0xffffffff⟩]⟩, -- QPE_REGION_BASE
  ⟨0x600018, [⟨0, 32, .rwg, 0xffffffff⟩]⟩, -- QPE_PATH_BASE
  ⟨0x60001c, [⟨0, 32, .rwg, 0xffffffff⟩]⟩, -- QPE_EVT_BASE
  ⟨0x600014, [⟨0, 21, .rwg, 0x0⟩]⟩, -- QPE_REGION_COUNT
  ⟨0x600020, [⟨0, 4, .rwg, 0x0⟩]⟩, -- QPE_EVT_SIZE
  ⟨0x600024, [⟨0, 16, .rwg, 0x0⟩]⟩, -- QPE_EVT_HEAD
  ⟨0x600028, [⟨0, 32, .ro, 0x0⟩]⟩, -- QPE_EVT_TAIL
  ⟨0x60002c, [⟨0, 32, .ro, 0x0⟩]⟩, -- QPE_EVT_LOST
  ⟨0x600030, [⟨0, 16, .rwg, 0x20⟩]⟩, -- QPE_CC_TARGET
  ⟨0x600034, [⟨0, 8, .rwg, 0x80⟩, ⟨8, 8, .rwg, 0x80⟩, ⟨16, 16, .rwg, 0x40⟩]⟩, -- QPE_CC_FACTORS
  ⟨0x600038, [⟨0, 16, .rwg, 0x40⟩, ⟨16, 16, .rwg, 0x1000⟩]⟩, -- QPE_CC_WINDOW
  ⟨0x60003c, [⟨0, 16, .rwg, 0x64⟩, ⟨16, 3, .rwg, 0x7⟩, ⟨20, 4, .rwg, 0x7⟩, ⟨24, 8, .rwg, 0x8⟩]⟩, -- QPE_RETRY
  ⟨0x600040, [⟨0, 16, .rwg, 0xa⟩]⟩, -- QPE_CNR_HINT
  ⟨0x600044, [⟨0, 10, .rwg, 0xa⟩]⟩, -- QPE_CC_BASE
  ⟨0x600050, [⟨0, 24, .rw, 0x0⟩]⟩, -- QPE_QP_SEL
  ⟨0x600054, [⟨0, 12, .rwg, 0x0⟩, ⟨16, 12, .rwg, 0x0⟩, ⟨28, 1, .rwg, 0x0⟩, ⟨29, 3, .rwg, 0x3⟩]⟩, -- QPE_QP_OWNER
  ⟨0x600058, [⟨0, 14, .rwg, 0x0⟩]⟩, -- QPE_QP_PEER
  ⟨0x60005c, [⟨0, 24, .rwg, 0x0⟩]⟩, -- QPE_QP_PEER_QPN
  ⟨0x600060, [⟨0, 32, .rwg, 0xffffffff⟩]⟩, -- QPE_QP_SQ
  ⟨0x600064, [⟨0, 1, .wo, 0x0⟩, ⟨1, 2, .rwg, 0x0⟩]⟩] -- QPE_QP_CMD

def qpeRegs1 : List Reg := [
  ⟨0x600068, [⟨0, 3, .ro, 0x0⟩, ⟨8, 1, .ro, 0x0⟩, ⟨9, 1, .ro, 0x0⟩, ⟨16, 16, .ro, 0x0⟩]⟩, -- QPE_QP_STATE
  ⟨0x600070, [⟨0, 12, .rw, 0x0⟩, ⟨16, 14, .rw, 0x0⟩]⟩, -- QPE_PATH_SEL
  ⟨0x600074, [⟨0, 24, .rwg, 0x0⟩, ⟨31, 1, .rwg, 0x0⟩]⟩, -- QPE_PATH
  ⟨0x600080, [⟨0, 32, .rwg, 0x0⟩]⟩, -- QPE_REG_BASE_LO
  ⟨0x600084, [⟨0, 32, .rwg, 0x0⟩]⟩, -- QPE_REG_BASE_HI
  ⟨0x600088, [⟨0, 32, .rwg, 0x0⟩]⟩, -- QPE_REG_LEN_LO
  ⟨0x60008c, [⟨0, 32, .rwg, 0x0⟩]⟩, -- QPE_REG_LEN_HI
  ⟨0x600090, [⟨0, 12, .rwg, 0x0⟩, ⟨16, 12, .rwg, 0x0⟩, ⟨28, 3, .rwg, 0x0⟩]⟩, -- QPE_REG_OWNER
  ⟨0x600094, [⟨0, 1, .wo, 0x0⟩, ⟨1, 1, .rwg, 0x0⟩]⟩, -- QPE_REG_CMD
  ⟨0x600098, [⟨0, 32, .rwg, 0x0⟩]⟩, -- QPE_REG_KEY
  ⟨0x60009c, [⟨0, 16, .ro, 0x0⟩, ⟨16, 1, .ro, 0x0⟩]⟩, -- QPE_REG_RESULT
  ⟨0x6000a0, [⟨0, 32, .ro, 0x0⟩]⟩, -- QPE_REG_NEWKEY
  ⟨0x6000a4, [⟨0, 32, .ro, 0x0⟩]⟩, -- QPE_REG_INFLIGHT
  ⟨0x6000b0, [⟨0, 32, .rwg, 0x0⟩]⟩, -- QPE_POST_LO
  ⟨0x6000b4, [⟨0, 32, .rwg, 0x0⟩]⟩, -- QPE_POST_HI
  ⟨0x6000b8, [⟨0, 1, .wo, 0x0⟩, ⟨8, 24, .rwg, 0x0⟩]⟩, -- QPE_POST
  ⟨0x6000bc, [⟨0, 16, .ro, 0x0⟩, ⟨16, 1, .ro, 0x0⟩]⟩, -- QPE_POST_RESULT
  ⟨0x6000c0, [⟨0, 5, .rw, 0x0⟩]⟩, -- QPE_HOLD_SEL
  ⟨0x6000c4, [⟨0, 19, .ro, 0x0⟩, ⟨20, 9, .ro, 0x0⟩]⟩, -- QPE_HOLD_STATE
  ⟨0x6000d0, [⟨0, 16, .rcseq, 0x0⟩, ⟨16, 1, .rcseq, 0x0⟩, ⟨17, 1, .rcseq, 0x0⟩, ⟨18, 1, .rcseq, 0x0⟩, ⟨19, 1, .rcseq, 0x0⟩, ⟨20, 1, .rcseq, 0x0⟩, ⟨21, 1, .rcseq, 0x0⟩, ⟨22, 1, .rcseq, 0x0⟩, ⟨24, 5, .rcseq, 0x0⟩]⟩, -- QPE_STATUS
  ⟨0x6000d4, [⟨0, 7, .rwg, 0x37⟩]⟩, -- QPE_IRQ_EN
  ⟨0x6000e0, [⟨0, 4, .rw, 0x0⟩]⟩, -- QPE_CNT_SEL
  ⟨0x6000e4, [⟨0, 32, .ro, 0x0⟩]⟩, -- QPE_CNT_LO
  ⟨0x6000e8, [⟨0, 32, .ro, 0x0⟩]⟩] -- QPE_CNT_HI

/-- QPE (12 312). -/
def qpeRegs : List Reg := qpeRegs0 ++ qpeRegs1

/-- EGRESS (13 332). -/
def egressRegs : List Reg := [
  ⟨0x0, [⟨0, 1, .rwg, 0x0⟩, ⟨1, 1, .rwg, 0x0⟩, ⟨8, 8, .rwg, 0x0⟩]⟩, -- EGR_CTRL
  ⟨0x4, [⟨0, 3, .rw, 0x0⟩]⟩, -- EGR_TC_SEL
  ⟨0x8, [⟨0, 18, .rwg, 0x0⟩, ⟨31, 1, .rwg, 0x0⟩]⟩, -- EGR_SHAPE_RATE
  ⟨0xc, [⟨0, 18, .rwg, 0x100⟩]⟩, -- EGR_SHAPE_BURST
  ⟨0x10, [⟨0, 32, .ro, 0x0⟩]⟩, -- EGR_SHAPE_TOKENS
  ⟨0x14, [⟨0, 14, .rwg, 0x100⟩]⟩, -- EGR_DRR_QUANTUM
  ⟨0x18, [⟨0, 32, .ro, 0x0⟩]⟩, -- EGR_DRR_DEFICIT
  ⟨0x1c, [⟨0, 8, .ro, 0x0⟩, ⟨8, 1, .ro, 0x0⟩]⟩, -- EGR_GATE_GUARD
  ⟨0x20, [⟨0, 32, .rwg, 0x0⟩]⟩, -- EGR_GATE_CYCLE
  ⟨0x24, [⟨0, 32, .rwg, 0x0⟩]⟩, -- EGR_GATE_BASE_LO
  ⟨0x28, [⟨0, 32, .rwg, 0x0⟩]⟩, -- EGR_GATE_BASE_HI
  ⟨0x2c, [⟨0, 3, .rw, 0x1⟩, ⟨8, 8, .rw, 0x0⟩]⟩, -- EGR_GATE_ENT_SEL
  ⟨0x30, [⟨0, 24, .rwg, 0x0⟩, ⟨31, 1, .rwg, 0x0⟩]⟩, -- EGR_GATE_ENTRY
  ⟨0x34, [⟨0, 9, .rwg, 0x0⟩]⟩, -- EGR_GATE_LEN
  ⟨0x38, [⟨0, 1, .wo, 0x0⟩, ⟨1, 1, .wo, 0x0⟩]⟩, -- EGR_GATE_CMD
  ⟨0x3c, [⟨0, 16, .ro, 0x0⟩, ⟨16, 1, .ro, 0x0⟩, ⟨17, 3, .ro, 0x0⟩, ⟨24, 8, .ro, 0x0⟩]⟩, -- EGR_GATE_RESULT
  ⟨0x40, [⟨0, 3, .rw, 0x0⟩]⟩, -- EGR_CNT_SEL
  ⟨0x44, [⟨0, 32, .ro, 0x0⟩]⟩, -- EGR_CNT_LO
  ⟨0x48, [⟨0, 32, .ro, 0x0⟩]⟩, -- EGR_CNT_HI
  ⟨0x50, [⟨0, 16, .rcseq, 0x0⟩, ⟨16, 1, .rcseq, 0x0⟩, ⟨17, 1, .rcseq, 0x0⟩, ⟨18, 1, .rcseq, 0x0⟩, ⟨20, 3, .rcseq, 0x0⟩]⟩, -- EGR_STATUS
  ⟨0x54, [⟨0, 3, .rwg, 0x6⟩]⟩] -- EGR_IRQ_EN

/-- EGR0 (13 332). -/
def policerRegs : List Reg := [
  ⟨0x1000, [⟨0, 12, .rw, 0x0⟩]⟩, -- EGR_POL_SEL
  ⟨0x1004, [⟨0, 23, .rwg, 0x0⟩, ⟨31, 1, .rwg, 0x0⟩]⟩, -- EGR_POL_RATE
  ⟨0x1008, [⟨0, 18, .rwg, 0x100⟩]⟩, -- EGR_POL_BURST
  ⟨0x100c, [⟨0, 32, .ro, 0x0⟩]⟩, -- EGR_POL_DROP_CNT
  ⟨0x1010, [⟨0, 16, .rcseq, 0x0⟩, ⟨16, 1, .rcseq, 0x0⟩, ⟨20, 12, .rcseq, 0x0⟩]⟩, -- EGR_POL_STATUS
  ⟨0x1014, [⟨0, 1, .rwg, 0x0⟩]⟩] -- EGR_POL_IRQ_EN

/-- The register at a normal-view offset, if a table names one (R441, R442), and the offset within its table. Osier
registers exist on HS24 to HS31 only (07 R193); FAB and the policer only in port 0. -/
def regAt (a : Nat) : Option Reg :=
  let seek (l : List Reg) (o : Nat) : Option Reg := l.find? fun r => r.off == o
  match a / 0x10000 with
  | 0x00 => seek globalRegs a
  | 0x01 => seek commitRegs a
  | 0x02 => seek hostqRegs a
  | 0x03 => seek ledgerRegs a
  | 0x04 => seek clockRegs a
  | 0x05 => seek securityRegs a
  | 0x06 => seek faultRegs a
  | 0x07 => seek weftRegs a
  | 0x08 => seek compressRegs a
  | 0x09 => seek plaitRegs a
  | 0x0A => if 0xA1000 ≤ a && a < 0xA1800 then seek engineRegs (a % 0x100) else seek comaRegs a
  | 0x0B => seek tierRegs a
  | 0x40 => seek ddrRegs (a % 0x1000)
  | 0x60 => seek qpeRegs a
  | b =>
    if 0x10 ≤ b && b < 0x18 then seek attentionRegs (a % 0x10000)
    else if 0x20 ≤ b && b < 0x40 then
      let o := a % 0x10000
      if o < 0x1000 then seek stackRegs o
      else if b < 0x38 then none
      else if 0x4000 ≤ o && o < 0x5000 then seek unitRegs (0x4000 + o % 0x10)
      else seek stackRegs o
    else if 0x50 ≤ b && b < 0x56 then
      if a < 0x504000 && 0x502000 ≤ a then seek fabRegs (a % 0x4000) else seek portRegs (a % 0x4000)
    else if 0x70 ≤ b && b < 0x73 then
      if a < 0x702000 && 0x701000 ≤ a then seek policerRegs (a % 0x2000) else seek egressRegs (a % 0x2000)
    else none

end Sys2Proof.Machine
end

