-- ==== Sys2Proof/Config.lean ====
section
/-! DEFINITION. What a part fixes and what the spec leaves open: constants without a body (free values). Nothing can evaluate
them, so what is proved holds whatever they are. -/
namespace Sys2Proof.Config

/-- Draw n of the DRBG (15 R363): keys, nonces, index keys, encoder seeds and stochastic rounding values come from it. -/
opaque random : Nat → Nat
/-- The bytes of a frame read under a key slot and generation it was not written under (15 R368): PFN, slot, generation,
byte offset. -/
opaque noise : Nat → Nat → Nat → Nat → Byte
/-- Byte of the 16-byte ASCII serial of the module (18 R459). -/
opaque serial : Nat → Byte
/-- Measurement of the boot ROM (15 R382), 32 bytes. -/
opaque romMeasurement : Nat → Byte
/-- The security version of a Vitatu image whose Thatrimen signature verifies, or none (15 R381): the image's own format is
not in the spec. -/
opaque vitatuVersion : Bytes → Option Nat
/-- The fused minimum security version of the part when it left the factory (15 R381). -/
opaque fusedMinimum : Nat
/-- The Vitatu image in module flash when the part left the factory (15 R381). -/
opaque factoryImage : Bytes
/-- Byte of the fused identity key fingerprint (15 R379). -/
opaque identityFingerprint : Nat → Byte
/-- Byte of the identity key's modulus (15 R379), 384 bytes. -/
opaque identityModulus : Nat → Byte
/-- RSASSA-PSS signature under the identity key (15 R378): byte of the signature of a message, salted by a draw. -/
opaque identitySign : Bytes → Nat → Nat → Byte
/-- HMAC-SHA256 under the key derived from the fused secret (16 R414): byte of the MAC. -/
opaque fusedMac : Bytes → Nat → Byte
/-- Byte of the ephemeral ECDH public point of draw n (15 R369), 97 bytes. -/
opaque ecdhPoint : Nat → Nat → Byte
/-- The port root of an AUTH exchange (15 R369): from the draw of the own ephemeral key, the peer's point, and both nonces. -/
opaque portRoot : Nat → Bytes → Bytes → Bytes → Nat
/-- HKDF-Expand of a port root under an info string (15 R371): the key of one session direction. -/
opaque sessionKey : Nat → Bytes → Nat
/-- Byte of the AES-256-GCM key stream (11 R276): key, session and frame counter, byte index. -/
opaque gcmStream : Nat → Nat → Nat → Byte
/-- Byte of the AES-256-GCM tag of a frame (11 R276, R279): key, initialisation vector, header, encrypted body, index. -/
opaque gcmTag : Nat → Nat → Bytes → Bytes → Nat → Byte
/-- The port a flow takes among n candidates (11 R275): target node, session, traffic class. -/
opaque routeHash : Nat → Nat → Nat → Nat → Nat
/-- Which of the values a bound of one unit in the last place allows an osier unit answers (07 R179): function, format, bits. -/
opaque actChoice : Nat → Nat → Nat → Nat
/-- Bytes of the I3C identity that no rule gives (18 R456): 0 the manufacturer, 1 the BCR, 2 the DCR. -/
opaque partId : Nat → Nat
/-- Whether a page pushed plain carries FP32 elements, else BF16 (02 R48). -/
opaque plainWide : Bool
/-- How many lines a memory controller evicts beyond what its capacity forces, at an access (03 R69): access number, controller. -/
opaque evictions : Nat → Nat → Nat
/-- Which lines it evicts first (03 R69): access number, line. -/
opaque evictOrder : Nat → Nat → Nat
/-- Whether a line that an osier unit has written behind the page cache is still the cache's (03 R70): access number, line. -/
opaque lineHit : Nat → Nat → Bool
/-- What a field of n bytes of a service record entry holds of a total beyond it (16 R415). -/
opaque svcOver : Nat → Nat → Nat
/-- A value that nothing constrains: the n-th one taken. -/
opaque freeValue : Nat → BitVec 64

end Sys2Proof.Config
end

