-- ==== Sys2Proof/Machine/State.lean ====
section
/-! DEFINITION. The state of the node as plain data: every register, buffer, queue, table, counter, mode and pin the spec
names, the queue of commands that wait, and what the node has put on its interfaces. Sparse tables are lists of key and value
with rising keys and no entry equal to what an unlisted key reads as. -/
namespace Sys2Proof.Machine
open Sys2Proof

/-- Why the node would stop. No command stops: what the spec calls a fault is state of the node (16 R386), so this type has
no value. -/
inductive Fault where
deriving DecidableEq, Repr

/-- Why a command would have no meaning here. -/
inductive Refusal where
  /-- raised by no command once every arm of exec has its meaning; safe: nothing is claimed of a command that raises it -/
  | notModelled (mnemonic : String)
deriving DecidableEq, Repr

/-- A sparse table: keys rise strictly, and no value equals the table's default. -/
abbrev Tbl (α : Type) := List (Nat × α)

/-- An RC-SEQ status register (18 R450): `seq` is bits [15:0], `hi` is bits [31:16], and a read mark for each master. -/
structure StatusReg where
  seq : BitVec 16 := 0
  hi : BitVec 16 := 0
  markPcie : Bool := false
  markSb : Bool := false
deriving DecidableEq, Repr

/-- The state names of COMMIT_BOOT (17 R439). -/
inductive BootState where
  | por | clocks | verify | identity | training | canary | setup | run | recovery | fencedSafe
deriving DecidableEq, Repr

/-- FAULT_STATE (16 R419). -/
inductive NodeState where
  | run | fenced | shadow | fencedSafe
deriving DecidableEq, Repr

inductive RingState where
  | disabled | active | draining | error
deriving DecidableEq, Repr

/-- ATTN_CLUSTER_STATE (04 R119). -/
inductive ClusterState where
  | off | sleep | waking | ready | fenced
deriving DecidableEq, Repr

/-- HBM_STATE (07 R193). -/
inductive StackState where
  | off | training | ready | sleep | fenced
deriving DecidableEq, Repr

/-- DDR_STATE (18 R460). -/
inductive ChannelState where
  | off | training | ready | fenced
deriving DecidableEq, Repr

/-- PORT_STATE (11 R272, R288). -/
inductive PortState where
  | down | detect | equalise | lock | peer | auth | up | degraded
deriving DecidableEq, Repr

inductive StreamState where
  | owned | draining | inDoubt | former | lost
deriving DecidableEq, Repr

inductive HandleState where
  | free | loading | loaded | retiring
deriving DecidableEq, Repr

inductive SlotState where
  | free | bound | draining
deriving DecidableEq, Repr

inductive CtxState where
  | free | active | removing
deriving DecidableEq, Repr

inductive KeyState where
  | empty | live | retiring | scrubbing
deriving DecidableEq, Repr

inductive RegionState where
  | prot | compute | sealing
deriving DecidableEq, Repr

/-- OSIER_UNIT_STATE (07 R193). -/
inductive UnitState where
  | idle | running | parked | preempted | error | fenced
deriving DecidableEq, Repr

inductive QpState where
  | free | ready | error | draining
deriving DecidableEq, Repr

inductive RegEntState where
  | free | valid | revoking
deriving DecidableEq, Repr

inductive BankState where
  | empty | opened | checked | committing
deriving DecidableEq, Repr

inductive GroupState where
  | idle | active | sending | rebuilding
deriving DecidableEq, Repr

inductive RngState where
  | instantiating | ok | failed
deriving DecidableEq, Repr

inductive PfxState where
  | freed | live | unpublished
deriving DecidableEq, Repr

/-- LEDGER_BRAKE.state (14 R357). -/
inductive BrakeState where
  | idle | braked | sustainedReleased | sustainedBraked
deriving DecidableEq, Repr

/-- A completion record (10 R260); `results` is bytes 24 to 55. -/
structure Completion where
  cookie : BitVec 64 := 0
  status : Nat := 0
  flags : Nat := 0
  sqHead : Nat := 0
  kind : Nat := 0
  phase : Bool := false
  stream : Nat := 0
  debit : Nat := 0
  results : Bytes := []
  time : Nat := 0
deriving DecidableEq, Repr

/-- A fault record (16 R389), without its phase bit. -/
structure FaultRec where
  time : Nat := 0
  seq : Nat := 0
  cls : Nat := 0
  source : Nat := 0
  unitKind : Nat := 0
  unitIndex : Nat := 0
  ctx : Nat := 0xFFFF
  status : Nat := 0
  band : Nat := 0
  flags : Nat := 0
  temp : Nat := 0
  stream : Nat := 0
  tag : Nat := 0
  attempt : Nat := 0
  pattern : Nat := 0xFF
  epoch : Nat := 0
  variant : Nat := 0
  detail : Nat := 0
  peer : Nat := 0
deriving DecidableEq, Repr

/-- What the node puts on an interface, in order. -/
inductive Out where
  /-- completion record written to slot of ring (4,096 is the admin ring): with the requester ID of its function, at a host address -/
  | completion (ring slot : Nat) (c : Completion) (fn addr : Nat)
  /-- posted write into host memory by a function's requester ID -/
  | hostWrite (fn addr : Nat) (data : Bytes) (relaxed : Bool)
  /-- MSI-X message of a vector of a function's run: the write of its data at its address -/
  | msix (fn vec addr data : Nat)
  /-- the page tables of a handoff, on a queue pair: stream, counter, and its block entries by key (03 R81 step 2) -/
  | pageTables (qpn stream counter : Nat) (entries : List (Nat × BitVec 128))
  /-- a page that was pushed plain, for a consumer the spec does not name: the queue pair it came on, and its bytes (12 R297) -/
  | plainPage (qpn : Nat) (data : Bytes)
  /-- the copy of a level-2 merge output for a spare that shadows this node, a partial record on TC1; no register tells a primary
  which node that is, so the copy is shown here in place of a routed frame (16 R403; DESIGN CHOICE) -/
  | shadowCopy (record : Bytes)
  /-- a flit on a port -/
  | flit (port : Nat) (data : Bytes)
  /-- I3C in-band interrupt -/
  | ibi (payload : Nat)
  /-- bytes the node drives in answer to a sideband read or CCC -/
  | sideband (data : Bytes)
  /-- output pin -/
  | pinThermTrip (low : Bool)
  /-- PCIe ERR_FATAL message -/
  | errFatal
  /-- answer to a register read -/
  | readData (w : Word)
  /-- PCIe Completer Abort -/
  | completerAbort
deriving DecidableEq, Repr

/-! ### Host rings (10) -/

structure Ring where
  st : RingState := .disabled
  sqTail : Nat := 0
  cqHead : Nat := 0
  fetchHead : Nat := 0
  cqTail : Nat := 0
  phase : Bool := true
  reserved : Nat := 0
deriving DecidableEq, Repr

/-- A pool vector (10 R264). -/
structure Vec where
  /-- the entry of the MSI-X table: message address and data (10 R243) -/
  addr : Nat := 0
  data : Nat := 0
  unsignalled : Nat := 0
  pba : Bool := false
  masked : Bool := true
deriving DecidableEq, Repr

/-- A fetched descriptor not yet admitted, or waiting for a later portion (10 R247, 05 R144). -/
structure Desc where
  id : Nat := 0
  ring : Nat := 0
  pos : Nat := 0
  bytes : Bytes := []
  readyAt : Nat := 0
  /-- windows in a row at whose opening it was first and found no variant (05 R142) -/
  starved : Nat := 0
  /-- items of a kind admitted whole, once its record has been read (05 R144) -/
  items : Nat := 1
  /-- streams of a batch, once their list has been read (10 R258) -/
  streams : Option (List Nat) := none
  /-- engines that a search goes to, once its index is known (08 R195) -/
  engines : List Nat := []
  debit : Nat := 0
deriving DecidableEq, Repr

structure Hostq where
  rings : Tbl Ring := []
  vecs : Tbl Vec := []
  fetched : List Desc := []
  nextId : Nat := 0
  /-- scan interval in ns; 0 before the first scan, when HOSTQ_SCAN_MIN counts (10 R254) -/
  interval : Nat := 0
  /-- ring served first in the previous scan (10 R253) -/
  lastFirst : Nat := 0
  /-- VFs are enabled: one has been reached since the last node reset (10 R266) -/
  vfsOn : Bool := false
  /-- functions after FLR or in D3hot, whose memory is not written (10 R264, R265) -/
  fnStopped : List Nat := []
  pf0D3 : Bool := false
  /-- records held while PF0 is in D3hot: ring, flags.irq, record -/
  held : List (Nat × Bool × Completion) := []
  /-- other writes into host memory with PF0's requester ID, held while PF0 is in D3hot -/
  heldOut : List Out := []
  /-- per ring: descriptors that faulted without a completion and no FENCE has counted yet, as (ring, position) -/
  faulted : List (Nat × Nat) := []
deriving DecidableEq, Repr

/-! ### Weft images (05) -/

structure Geometry where
  layers : Nat := 0
  hq : Nat := 0
  hkv : Nat := 0
  d : Nat := 0
  kFmt : Nat := 0
  vFmt : Nat := 0
  modes : Nat := 0
  sketch : Nat := 0
  classes : Nat := 0
  maxLength : Nat := 0
deriving DecidableEq, Repr

structure Placement where
  cls : Nat := 0
  lo : Nat := 0
  hi : Nat := 0
  tiers : List Nat := []
deriving DecidableEq, Repr

structure Sched where
  op : Nat := 0
  cls : Nat := 0
  lo : Nat := 0
  hi : Nat := 0
  prio : Nat := 0
  vFirst : Nat := 0
  vCount : Nat := 0
  fabricPlan : Nat := 0xFFFFFFFF
deriving DecidableEq, Repr

structure Variant where
  step : Nat := 0
  bucket : Nat := 0
  tierSet : Nat := 0
  bandMask : Nat := 0
  vclass : Nat := 0
  batchLo : Nat := 0
  batchHi : Nat := 0
  flags : Nat := 0
  qFmt : Nat := 0
  scale : Nat := 0
  window : Nat := 0
  nSlots : Nat := 0
  pFirst : Nat := 0
  pLast : Nat := 0
  slots : Nat := 0xFFFFFFFF
  localPlan : Nat := 0xFFFFFFFF
  coreMap : BitVec 128 := 0
  stackMask : Nat := 0
  kTable : Nat := 0xFFFF
  vTable : Nat := 0xFFFF
  osierProg : Nat := 0xFFFFFFFF
  energy : Nat := 0
  duration : Nat := 0
deriving DecidableEq, Repr

/-- A group of a slot shape (05 R129). -/
structure SlotGroup where
  kvHead : Nat := 0
  core : Nat := 0
  count : Nat := 0
  first : Nat := 0
deriving DecidableEq, Repr

/-- An input of a merge entry (05 R131). -/
structure MergeIn where
  rank : Nat := 0
  die : Nat := 0
  cluster : Nat := 0
  core : Nat := 0
  kind : Nat := 0
  isLocal : Bool := false
deriving DecidableEq, Repr

structure MergeEntry where
  head : Nat := 0
  level : Nat := 0
  final : Bool := false
  rank : Nat := 0
  die : Nat := 0
  cluster : Nat := 0
  isLocal : Bool := false
  inputs : List MergeIn := []
deriving DecidableEq, Repr

/-- A record of the TABLES section (05 R134), with the slot and generation it is bound to. -/
structure ImgTable where
  tensor : Nat := 0
  lo : Nat := 0
  hi : Nat := 0
  bytes : Bytes := []
  slot : Nat := 0
  gen : Nat := 0
deriving DecidableEq, Repr

structure Image where
  geo : Geometry := {}
  buckets : List Nat := []
  placement : List Placement := []
  sched : List Sched := []
  variants : List Variant := []
  /-- slot shapes by byte offset in SLOTS -/
  shapes : Tbl (List SlotGroup) := []
  /-- merge plans by byte offset in MERGE -/
  plans : Tbl (List MergeEntry) := []
  tables : List ImgTable := []
  /-- the OSIER section, whole -/
  osier : Bytes := []
  groupSize : Nat := 0
  modelId : Nat := 0
  buildId : Nat := 0
deriving DecidableEq, Repr

structure Handle where
  st : HandleState := .free
  img : Image := {}
  frames : Nat := 0
  digest : Bytes := []
  /-- IMAGE_LOAD in progress: its descriptor, and the outcome of the checks: status, section, record -/
  loading : Option (Nat × Nat × Nat × Nat) := none
deriving DecidableEq, Repr

/-- A table slot (06 R162). -/
structure TSlot where
  st : SlotState := .free
  bytes : Bytes := []
  gen : Nat := 0
  images : Nat := 0
deriving DecidableEq, Repr

/-! ### Pages, streams, shared records (03) -/

/-- A block entry (03 R58). -/
structure BlockEntry where
  pfn : Nat := 0xFFFFFFFF
  spill : Nat := 0xFFFFFFFF
  node : Nat := 0
  tier : Nat := 3
  count : Nat := 0
  shared : Bool := false
  sketch : Bool := false
  compute : Bool := false
  recNo : Nat := 0
deriving DecidableEq, Repr

structure Stream where
  ctx : Nat := 0
  cls : Nat := 0
  st : StreamState := .owned
  counter : Nat := 0
  last : HandoffRec := {}
  /-- the owner that a FORMER record redirects to -/
  newOwner : Nat := 0
  committed : Tbl Nat := []
  /-- block entries by (layer, KV head, block), see blockKey -/
  entries : Tbl BlockEntry := []
  /-- page table frames by (layer, KV head, level, index), see tableKey -/
  tables : Tbl Nat := []
  queries : Nat := 0
  /-- the PAGE_MOVE descriptor that started the handoff -/
  handoffId : Option Nat := none
deriving DecidableEq, Repr

/-- A shared-block record (03 R74). `list` is the page-set list: layer, KV head, entry. -/
structure PfxRec where
  ctx : Nat := 0
  st : PfxState := .freed
  refs : Nat := 0
  /-- board frames that hold the record and its page-set list -/
  frames : List Nat := []
  list : List (Nat × Nat × BlockEntry) := []
deriving DecidableEq, Repr

/-- What an allocated frame is used for (03 R64). -/
inductive Use where
  | page | spill | table | reserved | record | coma | old
deriving DecidableEq, Repr

structure FrameInfo where
  ctx : Nat := 4096
  use : Use := .old
  /-- STEP faults of source 0x10 to 0x12 in this allocation (16 R388) -/
  faults : Nat := 0
  retired : Bool := false
  /-- tables the committed page in the frame names, as slot and generation (06 R162) -/
  tabs : List Nat := []
  /-- map generation stamped on a reservation (17 R432) -/
  mapGen : Nat := 0
deriving DecidableEq, Repr

/-- Old frames that return once the steps admitted before have ended (03 R60, R68). -/
structure OldFrames where
  frames : List Nat := []
  waits : List Nat := []
deriving DecidableEq, Repr

structure Tier where
  frames : Tbl FrameInfo := []
  scrub : List Nat := []
  /-- retired frames whose page has been freed: they return to no pool (16 R388) -/
  retired : List Nat := []
  old : List OldFrames := []
  streams : Tbl Stream := []
  pfx : Tbl PfxRec := []
  /-- answers this node has given to handoff offers, newest first: stream, record and cause -/
  answers : List (Nat × HandoffRec × Nat) := []
  /-- dirty page-cache lines of 128 bytes, by PFN: bit i is line i of the frame (03 R69) -/
  dirty : Tbl (BitVec 128) := []
  /-- accesses that may have changed which lines the page cache holds; numbers the free values of evictions (a model's field) -/
  accesses : Nat := 0
  flushBusy : Bool := false
  /-- streams, by context and number, of which a pushed page was refused for want of a table (06 R165) -/
  unbound : List (Nat × Nat) := []
  /-- remote block entries by context, used under 03 R64 -/
  remoteUsed : Tbl Nat := []
deriving DecidableEq, Repr

/-- The key a frame's bytes lie under (15 R367): slot 4,096 is the node slot; plain is a COMPUTE region (R172). -/
structure EncTag where
  slot : Nat := 4097
  gen : Nat := 0
deriving DecidableEq, Repr

/-! ### Plait store (09) -/

structure PEntry where
  key : BitVec 128 := 0
  prio : Nat := 0
  value : BitVec 48 := 0
  owner : Nat := 0
  kind : Nat := 0
  valid : Bool := true
  parityOk : Bool := true
  /-- the delete that left this gap; 0 for a live entry, and for one whose parity failed -/
  gap : Nat := 0
deriving DecidableEq, Repr

/-- Structural work of a bank's shift engine, served in issue order (09 R235): a staged insert to place, the gaps of one delete
to close. -/
inductive ShiftWork where
  | place (reg : Nat)
  | close (gap : Nat)
deriving DecidableEq, Repr

structure Bank where
  placed : List PEntry := []
  staged : List (Option PEntry) := [none, none, none, none, none, none, none, none]
  work : List ShiftWork := []
deriving DecidableEq, Repr

inductive PSrc where
  | regs
  | desc (id ix : Nat)
  | residue (ctx : Nat)
deriving DecidableEq, Repr

inductive PKind where
  | search | next | insert | insertUnique | delete
deriving DecidableEq, Repr

/-- The operation comes from a residue scrub. -/
def PSrc.isResidue : PSrc → Bool
  | .residue _ => true
  | _ => false

structure POp where
  kind : PKind := .search
  key : BitVec 128 := 0
  mask : BitVec 128 := 0
  value : BitVec 48 := 0
  banks : BitVec 64 := 0
  owner : Nat := 0
  ekind : Nat := 0
  prio : Nat := 0
  anyPrio : Bool := false
  cursor : BitVec 64 := 0
  src : PSrc := .regs
  gen : Nat := 0
deriving DecidableEq, Repr

/-- Result of an operation (09 R230 to R234): status as PLAIT_RESULT numbers it. -/
structure PRes where
  op : POp := {}
  hit : Bool := false
  multiple : Bool := false
  moved : Bool := false
  status : Nat := 0
  bank : Nat := 0
  pos : Nat := 0
  prio : Nat := 0
  value : BitVec 48 := 0
  cursor : BitVec 64 := 0
  /-- values of the entries a delete removed -/
  gone : List (BitVec 48) := []
deriving DecidableEq, Repr

structure Plait where
  banks : Tbl Bank := []
  updates : Nat := 0
  searchQ : List POp := []
  updateQ : List POp := []
  /-- operations that wait at their source for room in their queue, oldest first (09 R228) -/
  waiting : List POp := []
  lastUpdate : Bool := false
  inflight : List PRes := []
  busy : Bool := false
  res : PRes := {}
  errPos : Nat := 0x1FFFF
  errBank : Nat := 0
deriving DecidableEq, Repr

/-! ### Attention (04) -/

/-- A partial record's content (04 R107): FP32 values as bit patterns. -/
structure Partial where
  m : Word := 0xFF800000
  l : Word := 0
  covered : Nat := 0
  o : List Word := []
  empty : Bool := true
  nan : Bool := false
  bf16 : Bool := false
  p8l : Bool := false
  sparse : Bool := false
deriving DecidableEq, Repr

/-- A filled input slot of a rim-merge unit (04 R109), by the key of its record, with the rank it came from. -/
structure RimSlot where
  tag : Nat := 0
  attempt : Nat := 0
  head : Nat := 0
  level : Nat := 0
  slot : Nat := 0
  src : Nat := 0
  part : Partial := {}
deriving DecidableEq, Repr

structure Attn where
  clusters : Tbl ClusterState := []
  /-- cores fenced, bit 16 x die + core -/
  coreFenced : BitVec 128 := 0
  rim : Tbl (List RimSlot) := []
  /-- highest attempt admitted of a tag, plus one -/
  tags : Tbl Nat := []
  /-- decode tables each core's port cache holds, as slot and generation, most recent first (06 R159) -/
  portCache : Tbl (List (Nat × Nat)) := []
deriving DecidableEq, Repr

/-! ### Admitted steps (05 R140) -/

/-- One page-list slot: stream of the batch, core, KV head, and the block it holds. -/
structure PageSlot where
  si : Nat := 0
  core : Nat := 0
  kvHead : Nat := 0
  block : Option Nat := none
deriving DecidableEq, Repr

/-- A stream of a step: number, query position, committed length and entries fixed at admission (04 R92, 03 R59). -/
structure StepStream where
  stream : Nat := 0
  position : Nat := 0
  committed : Nat := 0
  entries : Tbl BlockEntry := []
deriving DecidableEq, Repr

/-- A portion of a step of R143: the items admitted up to its end, the map generation it is stamped with and the Plait banks
its context's slice had then (09 R226; 17 R432). -/
structure Portion where
  upTo : Nat := 0
  gen : Nat := 0
  banks : BitVec 64 := 0
deriving DecidableEq, Repr

structure Step where
  desc : Desc := {}
  kind : Nat := 0
  ctx : Nat := 0
  slice : Nat := 0
  keyGen : Nat := 0
  mapGen : Nat := 0
  handle : Nat := 0
  variant : Nat := 0
  debit : Nat := 0
  streams : List StepStream := []
  rankGroup : List Nat := []
  query : Bytes := []
  slots : List PageSlot := []
  filled : Bool := false
  coresDone : List Nat := []
  /-- entries of the merge plans that have merged: (stream of the batch, head, level, die, cluster) -/
  merged : List (Nat × Nat × Nat × Nat × Nat) := []
  /-- internal merges of an entry that have run, by the same mark (04 R105) -/
  ran : List ((Nat × Nat × Nat × Nat × Nat) × Nat) := []
  /-- records of this node that their sender holds, with the rim-merge unit they go to (04 R109) -/
  queued : List (Nat × RimSlot) := []
  flags : Nat := 0
  /-- frames taken at admission (03 R65) -/
  reserve : List Nat := []
  /-- entries the commit writes: block key and entry -/
  newEntries : List (Nat × BlockEntry) := []
  /-- table frames the commit adds -/
  newTables : List (Nat × Nat) := []
  /-- parity deltas outstanding (01 R19), and the messages sent: node and body (16 R397) -/
  deltas : Nat := 0
  parity : List (Nat × Bytes) := []
  /-- records a lookup has raised: chain index, record number -/
  raised : List (Nat × Nat) := []
  /-- a lookup or publish has met its end; results still to come are discarded -/
  stopped : Bool := false
  /-- results taken in chain order so far -/
  taken : Nat := 0
  /-- operands: keys of a prefix kind -/
  keys : List (BitVec 128) := []
  /-- PUBLISH: published, EXISTS, FULL -/
  published : Nat := 0
  existing : Nat := 0
  full : Nat := 0
  /-- HANDOFF: the pages and the offer are on the send queue (03 R81 step 2) -/
  handed : Bool := false
  /-- frames the allocator will choose, in turn (17 R430 leaves the choice open) -/
  picks : List Nat := []
  /-- items admitted and items left of a portioned kind (05 R144) -/
  items : Nat := 0
  left : Nat := 0
  portions : List Portion := []
  status : Nat := 0
  /-- OSIER_RUN: units that failed, in the order they did -/
  counts : List Nat := []
  /-- OSIER_RUN: stacks, units lo and hi, regions as (stack, region, generation) -/
  stackSet : Nat := 0
  unitLo : Nat := 0
  unitHi : Nat := 0
  regions : List (Nat × Nat × Nat) := []
  params : List Word := []
  started : Bool := false
  /-- remote pages a core waits for, and those that have arrived: stream of the batch, block key, primary and spill (03 R62) -/
  awaits : List (Nat × Nat) := []
  /-- APPEND_KV: the K and V it was given, while it waits for a remote page (03 R62) -/
  input : Bytes × Bytes := ([], [])
  /-- MOVE: remote blocks on their way here: key, entry, and the frames reserved for each (03 R67) -/
  fetches : List (Nat × BlockEntry × List Nat) := []
  pages : List (Nat × Nat × Bytes × Bytes) := []
  /-- frames of this step that found no route yet -/
  unsent : List Frame := []
deriving DecidableEq, Repr

structure Weft where
  handles : Tbl Handle := []
  steps : List Step := []
  guardId : Option Nat := none
  errSection : Nat := 0
  errRecord : Nat := 0
  admits : Nat := 0
  degrades : Nat := 0
  slots : Tbl TSlot := []
  compErrPfn : Nat := 0xFFFFFFFF
  compErrCnt : Nat := 0
  loads : Nat := 0
deriving DecidableEq, Repr

/-! ### Osier (07) -/

structure Region where
  st : RegionState := .prot
  owner : Option Nat := none
  gen : Nat := 0
  /-- the generation was returned since its last advance (07 R173) -/
  returned : Bool := false
  /-- controller writes so far: tells a flush whether one landed while it ran (a model's field) -/
  writes : Nat := 0
  sealPending : Bool := false
  run : Option Nat := none
  /-- a RELEASE has been accepted and its scrub is under way (07 R172) -/
  scrubbing : Bool := false
deriving DecidableEq, Repr

/-- Walker streams of an ATTEND unit (07 R184): blocks left in slot order, as K bytes, V bytes and mask. -/
structure Walk where
  k : Bytes := []
  v : Bytes := []
  msk : BitVec 64 := 0
  /-- the block fails the walker's checks: status and frame -/
  bad : Option (Nat × Nat) := none
deriving DecidableEq, Repr

structure OUnit where
  v : List (BitVec 256) := List.replicate 16 0
  a : List (BitVec 28) := [0, 0, 0, 0]
  c : List (BitVec 16) := [0, 0]
  p : List Word := List.replicate 16 0
  pc : Nat := 0
  rows : Tbl (BitVec 256) := []
  prog : List Word := []
  progHandle : Nat := 0
  progOrd : Nat := 0
  /-- offset of the program in the store, where there is one (07 R182) -/
  progOff : Option Nat := none
  attendKind : Bool := false
  msk : BitVec 64 := 0
  st : UnitState := .idle
  err : Nat := 0
  /-- the run or step that holds the unit -/
  run : Option Nat := none
  due : Bool := false
  walk : List Walk := []
  k : Bytes := []
  vv : Bytes := []
  /-- the stream of the batch and KV head whose blocks are walked, and those still to come -/
  job : Nat × Nat := (0, 0)
  jobs : List (Nat × Nat × List Walk) := []
  /-- OUT parts sent to the collector: stream of the batch, query head, part number, and the register (07 R178, R187) -/
  outs : List (Nat × Nat × Nat × BitVec 256) := []
  /-- A0 and C0 as last stopped or saved (07 R193) -/
  a0 : BitVec 28 := 0
  c0 : BitVec 16 := 0
deriving DecidableEq, Repr

structure Osier where
  regions : Tbl Region := []
  units : Tbl OUnit := []
  /-- OSIER_REGION_RESULT per stack: result, and the region, plus 1, of the last command that was accepted -/
  result : Tbl Nat := []
  busy : Tbl Nat := []
  /-- accesses that controllers hold, oldest first: the regions each touches, and the command (07 R168, R175) -/
  waits : List (List Nat × Instr) := []
  /-- a held access is being carried out (a model's field, true within one step alone) -/
  resuming : Bool := false
deriving DecidableEq, Repr

/-! ### Coma (08) -/

structure Index where
  ctx : Nat := 0
  m : Nat := 0
  b : Nat := 0
  rcode : Nat := 7
  degree : Nat := 0
  tier : Nat := 0
  home : Nat := 0
  capacity : Nat := 0
  key : Nat := 0
  entry : List Nat := []
  updates : Nat := 0
  dropping : Bool := false
  /-- first frame of each secTypes run -/
  rows : Nat := 0
  nbrs : Nat := 0
  book : Nat := 0
  frames : List Nat := []
deriving DecidableEq, Repr

/-- One result of a search: id, row, distance, shard position. -/
structure Hit where
  id : Nat := 0
  row : Nat := 0
  dist : Nat := 0
  shard : Nat := 0
deriving DecidableEq, Repr

structure SResult where
  hits : List Hit := []
  underfull : Bool := false
  missing : Bool := false
  entryDead : Bool := false
  visitedFull : Bool := false
  updated : Bool := false
  rounds : Nat := 0
  answered : Nat := 0
  tombs : Nat := 0
  examined : Nat := 0
deriving DecidableEq, Repr

/-- A search in an engine or an open sharded query. `shards` lists (node, index, QPN, key); `answers` what came. -/
structure Query where
  q : Nat := 0
  /-- local descriptor's step, or the QP whose peer asked -/
  id : Option Nat := none
  qpn : Nat := 0
  die : Nat := 0
  ctx : Nat := 0
  index : Nat := 0
  hdr : Bytes := []
  bits : Bytes := []
  updates0 : Nat := 0
  /-- entry rows as they stood when the search started (08 R208) -/
  entry0 : List Nat := []
  running : Bool := false
  /-- a local shard: the query it belongs to and its position in the shard list -/
  parent : Option (Nat × Nat) := none
  shards : List (Nat × Nat × Nat × Nat) := []
  answers : List (Nat × Option SResult) := []
  /-- shards that will not answer: their request could not leave, or failed -/
  failed : List Nat := []
  timedOut : Bool := false
deriving DecidableEq, Repr

structure Coma where
  indexes : Tbl Index := []
  queries : List Query := []
  nextQ : Nat := 0
deriving DecidableEq, Repr

/-! ### Brynty Link (11, 15) -/

structure Session where
  ctx : Nat := 4096
  tenant : Nat := 0
  opened : Bool := false
  txKey : Nat := 0
  rxKey : Nat := 0
  txCtr : Nat := 0
  rxCtr : Nat := 0
  /-- a rekey keeps the old receive key until a frame authenticates under the new (15 R373) -/
  oldKey : Option Nat := none
  oldCtr : Nat := 0
  replaces : Option Nat := none
  /-- the port left the context's slice: closed once the frames in its queues have left (17 R438) -/
  closing : Bool := false
deriving DecidableEq, Repr

/-- A frame on its way out, with the context it leaves for (4,096 for link control). -/
structure QFrame where
  ctx : Nat := 4096
  frame : Frame := {}
  /-- a response that holds the in-flight count of a region entry until it is sent (11 R281) -/
  region : Option Nat := none
deriving DecidableEq, Repr

/-- A flit sent and not yet acknowledged: its sequence number, times resent, payload, the class whose frame it carries, and
the frame itself on its last flit. -/
structure SentFlit where
  seq : Nat := 0
  resent : Nat := 0
  payload : Bytes := []
  cls : Nat := 0
  frame : Option QFrame := none
deriving DecidableEq, Repr

structure Port where
  st : PortState := .down
  lanes : BitVec 8 := 0
  peerNode : Nat := 0
  peerSwitch : Bool := false
  txSeq : Nat := 0
  rxSeq : Nat := 0
  rxNak : Bool := false
  /-- what the next flit carries as ack_kind: 0 nothing, 1 an ack, 2 a nak (11 R269) -/
  ackDue : Nat := 0
  /-- flits sent and not acknowledged, oldest first -/
  replay : List SentFlit := []
  rxBuf : Bytes := []
  txCredits : List Nat := [0, 0, 0, 0, 0, 0, 0, 0]
  /-- credits to return to the peer, by class -/
  owed : List Nat := [0, 0, 0, 0, 0, 0, 0, 0]
  /-- frames of the replay buffer of a port that left UP, until they are issued again (11 R273) -/
  held : List QFrame := []
  sessions : Tbl Session := []
  /-- the draws of the AUTH exchange under way: ephemeral key, then nonce; and whether the own AUTH_HELLO is out -/
  draw : Nat := 0
  helloSent : Bool := false
  peerHello : Bytes := []
  root : Nat := 0
  epoch : Nat := 0
  fails : Nat := 0
  fenced : Bool := false
  /-- cause of the retrain under way (16 R415) -/
  retrain : Option Nat := none
deriving DecidableEq, Repr

inductive ReqSrc where
  | fabCmd
  | rim (id : Nat)
deriving DecidableEq, Repr

structure Req where
  ctx : Nat := 0
  src : ReqSrc := .fabCmd
  target : Nat := 0
  addr : Nat := 0
  op : Nat := 0
  /-- timed out, and held until a second timeout has passed (11 R286) -/
  held : Bool := false
  /-- the unit that issued it, kind and index, and its state epoch then (16 R409) -/
  unit : Option (Nat × Nat) := none
  epoch : Nat := 0
deriving DecidableEq, Repr

/-- A region table entry (12 R301). -/
structure RegEnt where
  base : Nat := 0
  len : Nat := 0
  ctx : Nat := 0
  pd : Nat := 0
  gen : Nat := 0
  st : RegEntState := .free
  rights : Nat := 0
  inflight : Nat := 0
deriving DecidableEq, Repr

structure Fab where
  reqs : Tbl Req := []
  nextTag : Nat := 0
  regions : Tbl RegEnt := []
  status : Nat := 0
  busy : Bool := false
  poison : Bool := false
  combined : Bool := false
  rdata : BitVec 64 := 0
  deadNode : Nat := 0
  deadCtx : Nat := 0
  late : Nat := 0
deriving DecidableEq, Repr

/-! ### Page transfer queues (12) -/

/-- A work request (12 R294). -/
structure Wr where
  op : Nat := 0
  flags : Nat := 0
  msgType : Nat := 0
  length : Nat := 0
  loc : Nat := 0
  remote : Nat := 0
  key : Nat := 0
  wrId : Nat := 0
  page : Nat := 0
  block : Nat := 0
  /-- message body of a SEND -/
  body : Bytes := []
  /-- posted through QPE_POST -/
  posted : Bool := false
  /-- bytes or pages already sent, and the PSN after its last packet once sent -/
  sent : Nat := 0
  endPsn : Option Nat := none
  placed : Nat := 0
  /-- the status it completes with once it is done -/
  failed : Nat := 0
deriving DecidableEq, Repr

/-- An arrived packet held on a port while the context of its queue pair is fetched (12 R309). -/
structure HeldPkt where
  port : Nat := 0
  frame : Frame := {}
  ask : PageAsk := {}
deriving DecidableEq, Repr

/-- A sent packet not yet acknowledged. -/
structure SentPkt where
  psn : Nat := 0
  frame : Frame := {}
  resent : Bool := false
  sentAt : Nat := 0
deriving DecidableEq, Repr

/-- The QP context of 12 R292. -/
structure Qp where
  st : QpState := .free
  domain : Bool := false
  tc : Nat := 3
  ctx : Nat := 0
  pd : Nat := 0
  peer : Nat := 0
  peerQpn : Nat := 0
  sqPfn : Nat := 0xFFFFFFFF
  sq : List Wr := []
  /-- work requests that wait at their engine for an entry of the send queue to be free, oldest first -/
  sqWait : List Wr := []
  sqHead : Nat := 0
  sqTail : Nat := 0
  sendPsn : Nat := 0
  unaPsn : Nat := 0
  recvPsn : Nat := 0
  recvMsg : Nat := 0
  /-- bytes of the message being received, of a SEND or a PAGE -/
  recvBuf : Bytes := []
  recvRegion : Option Nat := none
  msgSeq : Nat := 0
  window : Nat := 0
  incAcc : Nat := 0
  srtt : Nat := 0
  target : Nat := 0
  lastDec : Nat := 0
  inflight : Nat := 0
  timeout : Nat := 0
  retryMax : Nat := 0
  retries : Nat := 0
  busyMax : Nat := 0
  busyUsed : Nat := 0
  gain : Nat := 0
  maxMd : Nat := 0
  ai : Nat := 0
  winMax : Nat := 0
  baseRtt : Nat := 0xFFFFFFFF
  baseRun : Nat := 0xFFFFFFFF
  basePeriod : Nat := 0
  baseStart : Nat := 0
  unacked : List SentPkt := []
  /-- waits for the hint of a busy NAK, then resends from the PSN it named -/
  waiting : Option Nat := none
  /-- one NAK per gap: a PSN_SEQUENCE NAK is out for recv_psn -/
  nakSent : Bool := false
  /-- drops every later packet until this PSN arrives: a busy NAK is out -/
  dropTo : Option Nat := none
  /-- packets placed since the last ACK, and the t_send to echo -/
  sinceAck : Nat := 0
  echo : Nat := 0
  /-- a fetch of the context is under way (12 R293, R309) -/
  fetching : Bool := false
  /-- the 256 bytes last written to the backing store (12 R293); none before the first -/
  saved : Bytes := []
deriving DecidableEq, Repr

structure Qpe where
  qps : Tbl Qp := []
  /-- QPNs whose contexts are cached, most recently used first (12 R293) -/
  cache : List Nat := []
  /-- packets in the ports' hold buffers, in arrival order (12 R309) -/
  hold : List HeldPkt := []
  cmdStatus : Nat := 0
  regStatus : Nat := 0
  newKey : Nat := 0
  postStatus : Nat := 0
  postBusy : Bool := false
  evtTail : Nat := 0
  evtLost : Nat := 0
deriving DecidableEq, Repr

/-! ### Egress (13) -/

structure GateEntry where
  dur : Nat := 0
  opened : Bool := false
deriving DecidableEq, Repr

structure GateSet where
  lists : Tbl (List GateEntry) := []
  cycle : Nat := 0
  base : Nat := 0
deriving DecidableEq, Repr

structure EPort where
  /-- class queues of 64 KiB (13 R314) -/
  queues : Tbl (List QFrame) := []
  /-- frames whose sources wait for room in a class queue, in order -/
  waiting : Tbl (List QFrame) := []
  /-- the cycle at which a class queue last took a frame while it was empty -/
  heads : Tbl Nat := []
  /-- bucket of each class, in units of 2^-24 byte (13 R320), as of the cycle `stamp` -/
  tokens : Tbl Nat := []
  stamp : Nat := 0
  deficit : Tbl Nat := []
  turn : Nat := 3
  /-- the class has its turn and its quantum has been added -/
  inTurn : Bool := false
  active : Option GateSet := none
  pending : Option GateSet := none
  resStatus : Nat := 0
  resClass : Nat := 0
  resEntry : Nat := 0
deriving DecidableEq, Repr

structure Policer where
  tokens : Nat := 0
  stamp : Nat := 0
  drops : Nat := 0
deriving DecidableEq, Repr

structure Egr where
  ports : Tbl EPort := []
  policers : Tbl Policer := []
  /-- the port each flow is bound to (11 R275), see flowKey -/
  flows : Tbl Nat := []
  /-- the cycle at which every bucket was empty: that of the last node reset -/
  since : Nat := 0
deriving DecidableEq, Repr

/-! ### Ledger, thermal, sleep (14) -/

/-- A reconciliation record (14 R343). -/
structure Recon where
  index : Nat := 0
  d : Nat := 0
  m : Nat := 0
  err : Int := 0
  scale : Nat := 0
  skipped : Bool := false
deriving DecidableEq, Repr

structure Ledger where
  window : Nat := 0
  refill : Nat := 0x7D00
  remain : Nat := 0
  /-- p_eff in force, in W -/
  peff : Nat := 3200
  /-- the term of 14 R341 that gave it: 0 the set budget, 1 the ceiling of the thermal band, 2 the floor of a sustained brake -/
  term : Nat := 0
  scale : Nat := 0x4000
  /-- a write to LEDGER_SCALE waits for the next opening -/
  scaleWrite : Option Nat := none
  debits : Nat := 0
  meas : Nat := 0
  lapsed : Nat := 0
  /-- debits and measured energy at the last reconciliation, and the refills since -/
  debits0 : Nat := 0
  meas0 : Nat := 0
  refills : Nat := 0
  recs : List Recon := []
deriving DecidableEq, Repr

structure Brake where
  st : BrakeState := .idle
  input : Bool := false
  /-- the release count runs -/
  releasing : Bool := false
  ack : Bool := false
  count : Nat := 0
  chatter : Nat := 0
  aborts : Nat := 0
deriving DecidableEq, Repr

structure Sensor where
  temp : Nat := 0
  misses : Nat := 0
  failed : Bool := false
deriving DecidableEq, Repr

structure Therm where
  sensors : Tbl Sensor := []
  band : Nat := 0
  hottest : Nat := 0
  hotSensor : Nat := 0
  /-- the configuration in force: entry, ceiling, hot of bands 0 to 7 -/
  cfg : List (Nat × Nat × Bool) := [(0, 3200, false), (60, 3200, false), (70, 3200, false), (80, 3000, false),
    (88, 2600, true), (95, 2000, true), (100, 1400, true), (105, 800, true)]
  /-- the band registers hold a configuration that was refused -/
  cfgBad : Bool := false
deriving DecidableEq, Repr

structure Mem where
  stackSet : Tbl StackState := []
  channels : Tbl ChannelState := []
  dimms : Tbl Nat := []
  gib : Tbl Nat := []
  /-- frame of the newest ECC event of a stack, or of a channel at 32 + n (07 R193; 18 R460) -/
  eccPfn : Tbl Nat := []
  /-- cycles of a stack's uncorrectable reads within the last second (16 R387) -/
  lostAt : Tbl (List Nat) := []
  cells : List Host.Cell := []
  tags : Tbl EncTag := []
  /-- lines of COMPUTE regions whose bytes in the DRAM may differ from what the controllers hold for them, by line number: the bytes
  in the DRAM, which the osier units see (03 R70) -/
  behind : Tbl Bytes := []
deriving DecidableEq, Repr

/-! ### Contexts, keys (15) -/

structure Ctx where
  st : CtxState := .free
  slice : Nat := 0
  tenant : Nat := 0
  salt : Bytes := []
  quiesced : Bool := false
  fmtExceptions : Nat := 0
  /-- CONTEXT_REMOVE in progress: descriptor, dropped items, frames handed to the scrub -/
  removal : Option (Desc × Nat × Nat) := none
deriving DecidableEq, Repr

structure KeySlot where
  st : KeyState := .empty
  gen : Nat := 0
  /-- the draw the key pair came from -/
  key : Option Nat := none
deriving DecidableEq, Repr

structure KeyEnt where
  valid : Bool := false
  roles : Nat := 0
  modulus : Bytes := []
deriving DecidableEq, Repr

structure Sec where
  ctxs : Tbl Ctx := []
  keys : Tbl KeySlot := []
  rng : RngState := .instantiating
  reseeds : Nat := 0
  store : Tbl KeyEnt := []
  cred : Bytes := []
  buf : Tbl Word := []
  drops : Nat := 0
  guardKind : Nat := 0
  guardRing : Nat := 0
  guardAddr : Nat := 0
  guardCnt : Nat := 0
  status : Nat := 0
  busy : Bool := false
  /-- ERASE in progress: full_overwrite, keep_keys, contexts removed, images unloaded -/
  erasing : Option (Bool × Bool × Nat × Nat) := none
deriving DecidableEq, Repr

/-! ### Faults (16) -/

/-- A parity row or rebuild accumulator, by row key: two byte strings, and the board frame that holds a parity row. -/
structure Row where
  a0 : Bytes := []
  a1 : Bytes := []
  pfn : Option Nat := none
deriving DecidableEq, Repr

structure Group where
  st : GroupState := .idle
  /-- rows of this node's blocks: block key of the stream, row number t (16 R396) -/
  rowMap : List (Nat × Nat × Nat) := []
  rows : Tbl Row := []
  ends : List Nat := []
deriving DecidableEq, Repr

structure Canary where
  due : List (Nat × Nat) := []
  next : Nat := 0
  lastCore : Nat := 0
  lastPattern : Nat := 0
  lastFail : Bool := false
deriving DecidableEq, Repr

structure Shadow where
  own : List (Nat × Nat × Nat × Partial) := []
  prim : List (Nat × Nat × Nat × Partial) := []
  compared : Nat := 0
  mismatch : Nat := 0
  unmatched : Nat := 0
deriving DecidableEq, Repr

/-- A service record entry (16 R414), without its signature. -/
structure SvcEntry where
  type : Nat := 0
  signed : Nat := 1
  index : Nat := 0
  seconds : Nat := 0
  counter : Nat := 0
  prev : Bytes := []
  body : Bytes := []
  /-- the draw that salts the signature -/
  draw : Nat := 0
deriving DecidableEq, Repr

/-- Totals a CHECKPOINT carries (16 R415). -/
structure Totals where
  /-- thermal samples taken in each band: one every 20 us (14 R350) -/
  bandSamples : List Nat := [0, 0, 0, 0, 0, 0, 0, 0]
  /-- energy in uJ -/
  energy : Nat := 0
  hottest : Nat := 0
  corrections : Nat := 0
  onDie : Nat := 0
  retrains : Nat := 0
  replays : Nat := 0
  canaryRuns : Nat := 0
  canaryFails : Nat := 0
  unitFaults : Nat := 0
  /-- UNIT faults with data_lost -/
  dataLost : Nat := 0
  /-- dirty page-cache lines that rejoins dropped (16 R410) -/
  lostLines : Nat := 0
  seals : Nat := 0
  seals42 : Nat := 0
  erases : Nat := 0
  boots : Nat := 0
  brakes : Nat := 0
deriving DecidableEq, Repr

structure Svc where
  /-- both halves, newest first -/
  entries : List SvcEntry := []
  /-- entries in the active half -/
  used : Nat := 0
  nextIndex : Nat := 0
  seconds : Nat := 0
  life : Totals := {}
  /-- totals since the last HOURLY entry -/
  hour : Totals := {}
  /-- hourly totals of the trailing 1,000 powered hours, newest first -/
  trail : List Totals := []
  grade : Nat := 0
  rule : Nat := 0
  /-- the record did not verify at the last power-on (R416) -/
  broken : Bool := false
deriving DecidableEq, Repr

structure FaultB where
  st : NodeState := .run
  cause : Nat := 0
  log : List FaultRec := []
  seq : Nat := 0
  ringTail : Nat := 0
  ringPhase : Bool := true
  status : Nat := 0
  busy : Bool := false
  retired : Nat := 0
  /-- units marked FENCED of kinds without a state of their own: kind x 4,096 + index -/
  fencedUnits : List Nat := []
  epochs : Tbl Nat := []
  /-- the unit whose rejoin waits for the advance of its epoch (16 R409), as kind and index -/
  rejoin : Option (Nat × Nat) := none
  groups : Tbl Group := []
  canary : Canary := {}
  shadow : Shadow := {}
deriving DecidableEq, Repr

/-! ### Slices and the staged commit (17) -/

structure Slice where
  enabled : Bool := false
  clusters : BitVec 32 := 0
  stackSet : BitVec 32 := 0
  quarters : BitVec 96 := 0
  channels : BitVec 16 := 0
  ports : BitVec 24 := 0
  banks : BitVec 64 := 0
deriving DecidableEq, Repr

/-- A stage entry (17 R433). -/
structure StageEnt where
  item : Nat := 0
  index : Nat := 0
  value : BitVec 64 := 0
deriving DecidableEq, Repr

structure WarpMap where
  slices : Tbl Slice := []
  gen : Nat := 0
  /-- older resident generations, newest first -/
  older : List Nat := []
  bank : List StageEnt := []
  bankSt : BankState := .empty
  status : Nat := 0
  infoEntry : Nat := 0x3FFF
  infoKind : Nat := 0
  infoIndex : Nat := 0
  ctxNamed : Option Nat := none
  recStatus : Nat := 0
deriving DecidableEq, Repr

structure Boot where
  st : BootState := .por
  cause : Nat := 0
  boots : Nat := 0
  image : Bytes := []
  vitatuSv : Nat := 0
  minSv : Nat := 0
  resetKind : Nat := 0
  nodeResets : Nat := 0
  /-- holds at phase 1 for want of rails (19 R467) -/
  held : Bool := false
deriving DecidableEq, Repr

structure Pins where
  /-- MOD_POR_N is high -/
  por : Bool := false
  /-- PCIE_PERST_N is high -/
  perst : Bool := true
  brake : Bool := true
  thermTrip : Bool := false
deriving DecidableEq, Repr

structure Clk where
  counter : Nat := 0
  locked : Bool := false
  fallback : Bool := false
deriving DecidableEq, Repr

/-- The register file: stored bits of every RW and RW-G register instance (and reserved bits), by instance key; the
copies each master holds (18 R447). -/
structure Regs where
  store : Tbl Word := []
  selPcie : Tbl Word := []
  selSb : Tbl Word := []
  latchPcie : Tbl Word := []
  latchSb : Tbl Word := []
  status : Tbl StatusReg := []
  /-- saturating and 64-bit counters behind registers, by counter key -/
  cnt : Tbl Nat := []
  /-- instances whose hidden parity fails (18 R451) -/
  badParity : List Nat := []
  parAddr : Nat := 0
  parMore : Bool := false
  parUnread : Bool := false
  parSel : Nat := 0
  accAddr : Nat := 0
  accKind : Nat := 0
  accMaster : Nat := 0
deriving DecidableEq, Repr

structure Sideband where
  dynAddr : Option Nat := none
  events : Bool := false
  resp : Option Bytes := none
  /-- the enabled summary was non-zero at the last look (18 R454) -/
  lastSummary : Bool := false
deriving DecidableEq, Repr

/-- The node. -/
structure State where
  pending : List Instr := []
  out : List Out := []
  freeCtr : Nat := 0
  rngCtr : Nat := 0
  pins : Pins := {}
  boot : Boot := {}
  clk : Clk := {}
  regs : Regs := {}
  hostq : Hostq := {}
  weft : Weft := {}
  tier : Tier := {}
  mem : Mem := {}
  plait : Plait := {}
  attn : Attn := {}
  osier : Osier := {}
  coma : Coma := {}
  ports : Tbl Port := []
  fab : Fab := {}
  qpe : Qpe := {}
  egr : Egr := {}
  ledger : Ledger := {}
  brake : Brake := {}
  therm : Therm := {}
  sec : Sec := {}
  fault : FaultB := {}
  svc : Svc := {}
  map : WarpMap := {}
  sb : Sideband := {}
deriving DecidableEq, Repr

/-- The service record as the part leaves manufacture: its MANUFACTURE entry (16 R415). -/
def Svc.factory : Svc :=
  { entries := [{ type := 1, body := (List.range 16).map Config.serial ++ (List.range 32).map Config.identityFingerprint ++
                                       List.replicate 16 0 }],
    used := 1, nextIndex := 1 }

/-- The node as it left manufacture, held in reset by MOD_POR_N: every register and unit at the value the spec states for
reset, nothing listed in memory, the queue empty. The part's own values (firmware image in flash, fused minimum) are constants
of Config. -/
def State.reset : State :=
  { boot := { image := Config.factoryImage, minSv := Config.fusedMinimum }, svc := Svc.factory }

end Sys2Proof.Machine
end

