-- ==== Sys2Proof/Machine/Ops.lean ====
section
/-! DEFINITION. The named operations every command is written over: sparse tables, the register file, status events and
interrupts, completion records, fault records, the service record, memory. -/
namespace Sys2Proof.Machine
open Sys2Proof

/-! ### Sparse tables -/

/-- The entry of a key. -/
def tfind {α : Type} : Tbl α → Nat → Option α
  | [], _ => none
  | (k, v) :: t, key => if k = key then some v else tfind t key

/-- The value of a key, the default where it is not listed. -/
def tget {α : Type} (d : α) (t : Tbl α) (key : Nat) : α := (tfind t key).getD d

/-- Without a key. -/
def tdel {α : Type} (t : Tbl α) (key : Nat) : Tbl α := t.filter fun e => e.1 != key

/-- With a key's entry replaced, keys rising. -/
def tput {α : Type} (t : Tbl α) (key : Nat) (v : α) : Tbl α :=
  t.filter (fun e => e.1 < key) ++ (key, v) :: t.filter (fun e => key < e.1)

/-- With a key set to a value; the default is not listed. -/
def tset {α : Type} [DecidableEq α] (d : α) (t : Tbl α) (key : Nat) (v : α) : Tbl α :=
  if v = d then tdel t key else tput t key v

/-- With a key's value changed by a function. -/
def tmod {α : Type} [DecidableEq α] (d : α) (t : Tbl α) (key : Nat) (f : α → α) : Tbl α := tset d t key (f (tget d t key))

/-- The lowest number below `n` that satisfies `p`. -/
def lowest (n : Nat) (p : Nat → Bool) : Option Nat := (List.range n).find? p

/-- Saturating 32-bit count. -/
def sat32 (n : Nat) : Nat := min n 0xFFFFFFFF

/-! ### The register file -/

/-- Instance key of a register: normal-view offset and selector value (R451). -/
def rkey (off sel : Nat) : Nat := off + sel * 2 ^ 24

/-- Reset value of a register instance (R455); PF0 starts with all 2,048 vectors (10 R266). -/
def resetWord (key : Nat) : Nat :=
  let off := key % 2 ^ 24
  if key = Off.HOSTQ_FUNC_VECTORS then 0x800
  else match regAt off with
    | some r => r.fields.foldl (fun n f => n + f.reset * 2 ^ f.lo) 0
    | none => 0

/-- The stored word of an instance. -/
def regWord (s : State) (key : Nat) : Nat :=
  match tfind s.regs.store key with
  | some w => w.toNat
  | none => resetWord key

/-- Field [lo + w - 1 : lo] of a register without selector. -/
def rf (s : State) (off lo w : Nat) : Nat := fld (regWord s off) lo w

/-- Bit of a register without selector. -/
def rbit (s : State) (off lo : Nat) : Bool := bitOf (regWord s off) lo

/-- Field of a selected instance. -/
def rfs (s : State) (off sel lo w : Nat) : Nat := fld (regWord s (rkey off sel)) lo w

/-- Store the word of an instance; its hidden parity is right again (R451). -/
def regPut (s : State) (key w : Nat) : State :=
  let w := w % 2 ^ 32
  { s with regs := { s.regs with
      store := if w = resetWord key then tdel s.regs.store key else tput s.regs.store key (BitVec.ofNat 32 w),
      badParity := s.regs.badParity.filter (· != key) } }

/-- A LO and HI pair as one 64-bit number. -/
def rpair (s : State) (lo : Nat) : Nat := regWord s lo + 2 ^ 32 * regWord s (lo + 4)

/-- The copy of a `_SEL` register, SEC_DATA_INDEX or FAULT_SVC_INDEX that a master holds (R447). -/
def selWord (s : State) (m : Master) (off : Nat) : Nat :=
  let t := match m with
    | .pcie _ => s.regs.selPcie
    | .sideband => s.regs.selSb
  match tfind t off with
  | some w => w.toNat
  | none => resetWord off

/-- Key of the hidden parity of a master's copy (R451). -/
def copyKey (m : Master) (off : Nat) : Nat :=
  match m with
  | .pcie _ => off
  | .sideband => off + 2 ^ 24

/-- Store a master's copy; its hidden parity is right again (R451). -/
def selPut (s : State) (m : Master) (off w : Nat) : State :=
  let w := w % 2 ^ 32
  let up (t : Tbl Word) := if w = resetWord off then tdel t off else tput t off (BitVec.ofNat 32 w)
  let good := s.regs.badParity.filter (· != copyKey m off)
  match m with
  | .pcie _ => { s with regs := { s.regs with selPcie := up s.regs.selPcie, badParity := good } }
  | .sideband => { s with regs := { s.regs with selSb := up s.regs.selSb, badParity := good } }

/-- Key of event `ev` of the counter block at `off` (the CNT_LO register), of core or unit `ix`. -/
def ckey (off ev ix : Nat) : Nat := off + (ev + 16 * ix) * 2 ^ 24

/-- The value of a counter. -/
def cnt (s : State) (key : Nat) : Nat := tget 0 s.regs.cnt key

/-- A 64-bit event counter counts. -/
def count (s : State) (key n : Nat) : State :=
  { s with regs := { s.regs with cnt := tmod 0 s.regs.cnt key fun v => (v + n) % 2 ^ 64 } }

/-- A saturating 32-bit counter counts. -/
def countSat (s : State) (key n : Nat) : State :=
  { s with regs := { s.regs with cnt := tmod 0 s.regs.cnt key fun v => sat32 (v + n) } }

/-! ### Draws and free values -/

/-- A draw of the DRBG (15 R363): its number. -/
def draw (s : State) : Nat × State := (s.rngCtr, { s with rngCtr := s.rngCtr + 1 })

/-- A value nothing constrains. -/
def free64 (s : State) : BitVec 64 × State := (Config.freeValue s.freeCtr, { s with freeCtr := s.freeCtr + 1 })

def emit (s : State) (o : Out) : State := { s with out := s.out ++ [o] }

/-! ### Vectors (10 R244, R264) -/

/-- First vector and length of a function's run. -/
def vecFirst (s : State) (fn : Nat) : Nat := rfs s Off.HOSTQ_FUNC_VECTORS fn 16 11
def vecCount (s : State) (fn : Nat) : Nat := rfs s Off.HOSTQ_FUNC_VECTORS fn 0 12

def vecGet (s : State) (pv : Nat) : Vec := tget {} s.hostq.vecs pv

def vecPut (s : State) (pv : Nat) (v : Vec) : State :=
  { s with hostq := { s.hostq with vecs := tset {} s.hostq.vecs pv v } }

/-- A write or message that goes out under a function's requester ID: dropped for a function after FLR or in D3hot, held
while PF0 is in D3hot (10 R264, R265). -/
def emitAs (s : State) (fn : Nat) (o : Out) : State :=
  if fn = 0 && s.hostq.pf0D3 then { s with hostq := { s.hostq with heldOut := s.hostq.heldOut ++ [o] } }
  else if s.hostq.fnStopped.contains fn then s
  else emit s o

/-- The message of a pool vector leaves, or sets the PBA bit of a masked vector. -/
def fireVec (s : State) (fn pv : Nat) : State :=
  let v := vecGet s pv
  if v.masked then vecPut s pv { v with unsignalled := 0, pba := true }
  else
    let s := vecPut s pv { v with unsignalled := 0 }
    count (emitAs s fn (.msix fn (pv - vecFirst s fn) v.addr v.data)) (ckey Off.HOSTQ_CNT_LO 6 0) 1

/-- One record posted for a vector: the message leaves at the count threshold, with timer 0, or at once with flags.irq. -/
def armVec (s : State) (fn pv : Nat) (now : Bool) : State :=
  let v := vecGet s pv
  let c := max 1 (rfs s Off.HOSTQ_VEC_MOD pv 0 9)
  let t := rfs s Off.HOSTQ_VEC_MOD pv 16 16
  let s := vecPut s pv { v with unsignalled := v.unsignalled + 1 }
  if now || v.unsignalled + 1 ≥ c || t = 0 then fireVec s fn pv else s

/-! ### Status events (18 R450, R453, R454) -/

/-- The interrupt enable register of a status register; none where any flag sets the summary bit (R453). -/
def irqEnOf (off : Nat) : Option Nat :=
  let b := off / 0x10000
  if b = 0 || b = 7 || b = 0xB then none
  else if 0x20 ≤ b && b < 0x40 && off % 0x10000 = 4 then none
  else if b = 0x40 then some (off + 0xC)
  else if off = Off.FAB_STATUS then some Off.FAB_IRQ_EN
  else some (off + 4)

/-- Summary bit of the block a status register lies in (R453). -/
def summaryBit (off : Nat) : Nat :=
  let b := off / 0x10000
  if b < 8 then b
  else if b < 12 then b
  else if b < 0x18 then 12
  else if b < 0x40 then 13
  else if b = 0x40 then 14
  else if b < 0x60 then 15
  else if b = 0x60 then 16
  else 17

/-- How many flags a status register has from bit 16 up: its one-bit fields. -/
def flagCount (off : Nat) : Nat :=
  match regAt off with
  | some r => (r.fields.filter fun f => f.ty = .rcseq && f.w = 1).length
  | none => 0

def statusOf (s : State) (off : Nat) : StatusReg := tget {} s.regs.status off

def statusPut (s : State) (off : Nat) (v : StatusReg) : State :=
  { s with regs := { s.regs with status := tset {} s.regs.status off v } }

/-- Flags that are enabled for interrupts, as a mask from bit 0. -/
def irqMask (s : State) (off : Nat) : Nat :=
  let all := 2 ^ flagCount off - 1
  match irqEnOf off with
  | some en => regWord s en &&& all
  | none => all

/-- A status register has an enabled flag set. -/
def irqPending (s : State) (off : Nat) : Bool := ((statusOf s off).hi.toNat &&& irqMask s off) != 0

/-- GLOBAL_IRQ_SUMMARY.pending (R453). -/
def irqSummary (s : State) : Nat :=
  s.regs.status.foldl (fun n e => if irqPending s e.1 then n ||| 2 ^ summaryBit e.1 else n) 0

/-- The in-band interrupt of R454: once when the enabled summary turns non-zero. -/
def ibiCheck (s : State) : State :=
  let now := (irqSummary s &&& rf s Off.GLOBAL_SB_IRQ_EN 0 18) != 0
  let s' := { s with sb := { s.sb with lastSummary := now } }
  if now && !s.sb.lastSummary && s.sb.events && s.sb.dynAddr.isSome then emit s' (.ibi 1) else s'

/-- An event of a status register: `flags` from bit 16, `puts` the fields that name the newest event (lowest bit, width,
value). The sequence advances, the flags are set, both read marks clear (R450); an enabled event counts as one record of PF0
vector 0 (R453). -/
def raise (s : State) (off flags : Nat) (puts : List (Nat × Nat × Nat) := []) : State :=
  let st := statusOf s off
  let hi := puts.foldl (fun h p => putFld h (p.1 - 16) p.2.1 p.2.2) (st.hi.toNat ||| flags)
  let s := statusPut s off { seq := st.seq + 1, hi := BitVec.ofNat 16 hi, markPcie := false, markSb := false }
  let s := if (flags &&& irqMask s off) != 0 && rbit s Off.GLOBAL_IRQ_EN (summaryBit off) then armVec s 0 (vecFirst s 0) false else s
  ibiCheck s

/-! ### Unit states -/

def clusterSt (s : State) (c : Nat) : ClusterState := tget .off s.attn.clusters c
def setCluster (s : State) (c : Nat) (v : ClusterState) : State :=
  { s with attn := { s.attn with clusters := tset .off s.attn.clusters c v } }

def stackSt (s : State) (i : Nat) : StackState := tget .off s.mem.stackSet i
def setStack (s : State) (i : Nat) (v : StackState) : State :=
  { s with mem := { s.mem with stackSet := tset .off s.mem.stackSet i v } }

def channelSt (s : State) (n : Nat) : ChannelState := tget .off s.mem.channels n
def setChannel (s : State) (n : Nat) (v : ChannelState) : State :=
  { s with mem := { s.mem with channels := tset .off s.mem.channels n v } }

def coreFenced (s : State) (c : Nat) : Bool := s.attn.coreFenced.getLsbD c
def setCoreFenced (s : State) (c : Nat) (b : Bool) : State :=
  { s with attn := { s.attn with coreFenced :=
                                 if b then s.attn.coreFenced ||| (1#128 <<< c) else s.attn.coreFenced &&& ~~~(1#128 <<< c) } }

def portOf (s : State) (p : Nat) : Port := tget {} s.ports p
def setPort (s : State) (p : Nat) (v : Port) : State := { s with ports := tset {} s.ports p v }

def unitOf (s : State) (u : Nat) : OUnit := tget {} s.osier.units u
def setUnit (s : State) (u : Nat) (v : OUnit) : State :=
  { s with osier := { s.osier with units := tset {} s.osier.units u v } }

def ctxOf (s : State) (c : Nat) : Ctx := tget {} s.sec.ctxs c
def setCtx (s : State) (c : Nat) (v : Ctx) : State := { s with sec := { s.sec with ctxs := tset {} s.sec.ctxs c v } }

def keySlot (s : State) (c : Nat) : KeySlot := tget {} s.sec.keys c
def setKey (s : State) (c : Nat) (v : KeySlot) : State := { s with sec := { s.sec with keys := tset {} s.sec.keys c v } }

def sliceOf (s : State) (n : Nat) : Slice := tget {} s.map.slices n

def ringOf (s : State) (r : Nat) : Ring := tget {} s.hostq.rings r
def setRing (s : State) (r : Nat) (v : Ring) : State :=
  { s with hostq := { s.hostq with rings := tset {} s.hostq.rings r v } }

/-! ### The service record (16 R413 to R417) -/

/-- The 128 bytes of an entry that are signed (R414). -/
def SvcEntry.signedBytes (e : SvcEntry) : Bytes :=
  putLe 4 0x44525653 ++ putLe 2 e.type ++ putLe 1 e.signed ++ putLe 1 0 ++ putLe 8 e.index ++ putLe 8 e.seconds ++
    putLe 8 e.counter ++ fit 32 e.prev ++ fit 64 e.body

/-- All 512 bytes of an entry: signature under the identity key, or the MAC then zeros. -/
def SvcEntry.bytes (e : SvcEntry) : Bytes :=
  let m := e.signedBytes
  m ++ (if e.signed = 2 then (List.range 32).map (Config.fusedMac m) ++ zeros 352
    else (List.range 384).map (Config.identitySign m e.draw))

/-- Write one entry at the head. -/
def svcPush (s : State) (type signed : Nat) (body : Bytes) (first : Bool) : State :=
  let prev := if first then zeros 32 else match s.svc.entries with
    | [] => zeros 32
    | e :: _ => sha256 e.bytes
  let e : SvcEntry := { type := type, signed := signed, index := s.svc.nextIndex, seconds := s.svc.seconds,
                        counter := s.clk.counter, prev := prev, body := body, draw := s.rngCtr }
  { s with rngCtr := s.rngCtr + 1,
           svc := { s.svc with entries := e :: s.svc.entries, used := s.svc.used + 1, nextIndex := s.svc.nextIndex + 1 } }

/-- Sum of a total over the trailing 1,000 powered hours (R417). -/
def trailing (s : State) (f : Totals → Nat) : Nat := f s.svc.hour + (s.svc.trail.map f).sum

def bandShare (s : State) (lo : Nat) (pct : Nat) : Bool :=
  100 * (s.svc.life.bandSamples.drop lo).sum > pct * s.svc.life.bandSamples.sum

/-- Grade and rule of R417: the first grade whose rule holds. DESIGN CHOICE: rules are numbered from 1 in the order of the
table, 0 for grade A (the spec does not number them). -/
def gradeNow (s : State) : Nat × Nat :=
  let l := s.svc.life
  let fails := trailing s (·.canaryFails)
  if s.svc.broken then (4, 1)
  else if l.seals42 > 0 then (4, 2)
  else if fails ≥ 3 then (3, 3)
  else if l.dataLost > 0 then (3, 4)
  else if l.seals > 0 then (3, 5)
  else if fails ≥ 1 then (2, 6)
  else if l.unitFaults > 0 then (2, 7)
  else if bandShare s 6 1 then (2, 8)
  else if trailing s (·.corrections) > 10000 then (1, 9)
  else if trailing s (·.retrains) > 100 then (1, 10)
  else if bandShare s 4 5 then (1, 11)
  else (0, 0)

/-- Re-evaluate the grade; a change writes a GRADE entry (R417). -/
def gradeEval (s : State) : State :=
  let g := gradeNow s
  if g.1 = s.svc.grade then s
  else
    let s' := svcPush s 0x000B 1 (putLe 1 s.svc.grade ++ putLe 1 g.1 ++ putLe 1 g.2) false
    { s' with svc := { s'.svc with grade := g.1, rule := g.2 } }

def svcHalf : Nat := 65536

/-- Seconds spent in each band, from the samples of 20 us. -/
def Totals.bandSeconds (l : Totals) : List Nat := l.bandSamples.map (· / 50000)

/-- A total in a field of an entry; what the field holds of a total beyond it is open. -/
def svcField (n x : Nat) : Bytes := putLe n (if x < 2 ^ (8 * n) then x else Config.svcOver n x)

/-- Body of a CHECKPOINT (R415). -/
def checkpointBody (l : Totals) : Bytes :=
  l.bandSeconds.flatMap (svcField 4) ++ svcField 8 (l.energy / 1000000) ++ svcField 4 l.corrections ++ svcField 4 l.retrains ++ svcField 4 l.canaryFails ++
    svcField 4 l.unitFaults ++ svcField 2 l.seals ++ svcField 2 l.erases ++ svcField 4 l.boots

/-- When the active half is full, the other half is erased and begins with a CHECKPOINT (R413). -/
def svcRoom (s : State) : State :=
  if s.svc.used < svcHalf then s
  else
    let s := { s with svc := { s.svc with entries := s.svc.entries.take svcHalf, used := 0 } }
    gradeEval (svcPush s 0x000A 1 (checkpointBody s.svc.life) true)

/-- Write a service record entry (R413, R415). -/
def svcWrite (s : State) (type : Nat) (body : Bytes) : State := svcPush (svcRoom s) type 1 body false

/-- Add to a lifetime total and to the running hour. -/
def total (s : State) (f : Totals → Totals) : State :=
  { s with svc := { s.svc with life := f s.svc.life, hour := f s.svc.hour } }

/-! ### Fault records (16 R386 to R390) -/

/-- Class of a source (R387). -/
def sourceClass (src : Nat) : Nat := src / 16

def FaultRec.bytes (r : FaultRec) (phase : Bool) : Bytes :=
  putLe 8 r.time ++ putLe 4 r.seq ++ putLe 1 r.cls ++ putLe 1 r.source ++ putLe 2 (r.unitIndex % 4096 + r.unitKind % 16 * 4096) ++
    putLe 2 r.ctx ++ putLe 2 r.status ++ putLe 1 r.band ++ putLe 1 (r.flags % 128 + 128 * b2n phase) ++ putLe 2 r.temp ++
    putLe 4 r.stream ++ putLe 4 r.tag ++ putLe 1 r.attempt ++ putLe 1 r.pattern ++ putLe 2 r.epoch ++ putLe 4 r.variant ++
    putLe 8 r.detail ++ putLe 2 r.peer ++ zeros 14

/-- Entries of the host fault ring (16 R419). -/
def faultRingSize (s : State) : Nat := 64 * 2 ^ min 10 (rf s Off.FAULT_RING_CFG 0 4)

/-- The record's copy in host memory (R390): one record stays free; a full ring drops and counts. -/
def faultRingWrite (s : State) (r : FaultRec) : State :=
  if !rbit s Off.FAULT_RING_CFG 31 then s
  else
    let n := faultRingSize s
    let t := s.fault.ringTail
    if (t + 1) % n = rf s Off.FAULT_RING_HEADS 16 16 % n then count s (ckey Off.FAULT_CNT_LO 6 0) 1
    else
      let a := rpair s Off.FAULT_RING_LO / 4096 * 4096 + 64 * t
      let s := emitAs s 0 (.hostWrite 0 a (r.bytes s.fault.ringPhase) false)
      { s with fault := { s.fault with ringTail := (t + 1) % n,
                                       ringPhase := if t + 1 = n then !s.fault.ringPhase else s.fault.ringPhase } }

/-- Report a fault of a class (R386 to R390). A CORRECTED fault is only counted. -/
def faultReportAs (s : State) (cls : Nat) (r : FaultRec) : State :=
  if cls = 0 then count s (ckey Off.FAULT_CNT_LO 0 0) 1
  else
    let r := { r with time := s.clk.counter, seq := s.fault.seq, cls := cls, band := s.therm.band, temp := s.therm.hottest }
    let s := { s with fault := { s.fault with seq := (s.fault.seq + 1) % 2 ^ 32, log := (r :: s.fault.log).take 256 } }
    let s := if cls ≤ 2 then count s (ckey Off.FAULT_CNT_LO cls 0) 1 else s
    let s := faultRingWrite s r
    let s := if cls ≥ 2 then
        let s := if cls = 2 then total s fun t => { t with unitFaults := t.unitFaults + 1, dataLost := t.dataLost + b2n (bitOf r.flags 1) }
          else s
        gradeEval (svcWrite s 0x0005 (r.bytes false))
      else s
    if cls ≤ 3 then raise s Off.FAULT_STATUS (2 ^ (cls - 1)) [(24, 8, r.source)] else s

/-- Report a fault under the class of its source (R387). -/
def faultReport (s : State) (r : FaultRec) : State := faultReportAs s (sourceClass r.source) r

/-! ### Completions (10 R260 to R264) -/

def adminRing : Nat := 4096

def ringCfg (s : State) (r : Nat) : Nat :=
  if r = adminRing then regWord s Off.HOSTQ_ADMIN_CFG else regWord s (rkey Off.HOSTQ_RING_CFG r)

/-- Entries of a ring: 64 << size, size at most 10 (R266). -/
def ringSize (s : State) (r : Nat) : Nat := 64 * 2 ^ min 10 (ringCfg s r % 16)

/-- The function a ring belongs to, and its vector in the pool; the admin ring signals vector 1 of PF0 (R244, R246). -/
def ringFn (s : State) (r : Nat) : Nat := if r = adminRing then 0 else fld (ringCfg s r) 4 6
def ringVec (s : State) (r : Nat) : Nat :=
  if r = adminRing then vecFirst s 0 + 1 else vecFirst s (ringFn s r) + fld (ringCfg s r) 10 11

/-- Base of a ring's completion ring: bits [11:0] are ignored (R245, R266). -/
def cqBase (s : State) (r : Nat) : Nat :=
  (if r = adminRing then rpair s Off.HOSTQ_ADMIN_CQ_LO
    else rfs s Off.HOSTQ_RING_CQ_LO r 0 32 + 2 ^ 32 * rfs s Off.HOSTQ_RING_CQ_HI r 0 32) / 4096 * 4096

def Completion.bytes (c : Completion) : Bytes :=
  putLe 8 c.cookie.toNat ++ putLe 2 c.status ++ putLe 2 c.flags ++ putLe 2 c.sqHead ++ putLe 1 c.kind ++ putLe 1 (b2n c.phase) ++
    putLe 4 c.stream ++ putLe 4 c.debit ++ fit 32 c.results ++ putLe 8 c.time

/-- Write a record into the ring's next slot, with the ring's phase, and arm its vector (R260, R264). -/
def postRecord (s : State) (r : Nat) (c : Completion) (now : Bool) : State :=
  let g := ringOf s r
  let c := { c with sqHead := g.fetchHead, phase := g.phase, time := s.clk.counter }
  let n := ringSize s r
  let s := setRing s r { g with cqTail := (g.cqTail + 1) % n, phase := if g.cqTail + 1 ≥ n then !g.phase else g.phase,
                                reserved := g.reserved - 1 }
  let s := emit s (.completion r g.cqTail c (ringFn s r) (cqBase s r + 64 * g.cqTail))
  let s := count s (ckey Off.HOSTQ_CNT_LO 5 0) 1
  armVec s (ringFn s r) (ringVec s r) now

/-- A descriptor ends with a record. A ring that is disabled, or whose function is stopped, posts nothing; the rings of PF0
hold their records while PF0 is in D3hot (R264, R265). -/
def complete (s : State) (d : Desc) (status : Nat) (flags : Nat := 0) (results : Bytes := []) : State :=
  let g := ringOf s d.ring
  let c : Completion := { cookie := BitVec.ofNat 64 (leAt d.bytes 8 8), status := status, flags := flags, kind := leAt d.bytes 0 1,
                          stream := leAt d.bytes 4 4, debit := d.debit, results := results }
  if g.st = .disabled || s.hostq.fnStopped.contains (ringFn s d.ring) then s
  else if s.hostq.pf0D3 && ringFn s d.ring = 0 then { s with hostq := { s.hostq with held := s.hostq.held ++ [(d.ring, bitOf (leAt d.bytes 1 1) 0, c)] } }
  else postRecord s d.ring c (bitOf (leAt d.bytes 1 1) 0)

/-- A descriptor ends in a reported fault, without a record: its reservation is given up and a FENCE counts it (R146, R259). -/
def endFaulted (s : State) (d : Desc) : State :=
  let g := ringOf s d.ring
  let s := if g.st = .disabled then s else setRing s d.ring { g with reserved := g.reserved - 1 }
  { s with hostq := { s.hostq with faulted := s.hostq.faulted ++ [(d.ring, d.pos)] } }

/-! ### Host memory (10 R241, R261) -/

/-- What reads with a function's requester ID find. -/
def fnView (hv : HostView) (fn : Nat) : AddrView := ((hv.find? fun e => e.1 == fn).map (·.2)).getD []

/-- `n` bytes at a host address as the view gives them; none where the read fails. -/
def hostRead (hv : AddrView) (a n : Nat) : Option Bytes :=
  match hv.find? (fun c => c.1 ≤ a && a + n ≤ c.1 + (c.2.getD []).length && c.2.isSome) with
  | some c => c.2.map fun b => slice b (a - c.1) n
  | none => if n = 0 then some [] else none

/-! ### Memory of the node: frames of HBM and board (03 R50) -/

/-- An unlisted byte of memory reads as zero (DESIGN CHOICE: the spec gives no contents after power-on). -/
def emptyByte : Byte := 0

/-- The memory list is in its one form: addresses rise strictly, and no entry holds the empty byte. -/
def wfFrom : Nat → List Host.Cell → Bool
  | _, [] => true
  | n, c :: cs => decide (n ≤ c.1) && (c.2 != emptyByte) && wfFrom (c.1 + 1) cs

def Mem.wf (m : Mem) : Bool := wfFrom 0 m.cells

/-- Listed cells of a byte string at an address. -/
def cellsOf : Nat → Bytes → List Host.Cell
  | _, [] => []
  | a, b :: bs => if b = emptyByte then cellsOf (a + 1) bs else (a, b) :: cellsOf (a + 1) bs

/-- Overwrite the bytes from `a` on. -/
def memWrite (cells : List Host.Cell) (a : Nat) (bs : Bytes) : List Host.Cell :=
  cells.filter (fun c => c.1 < a) ++ cellsOf a bs ++ cells.filter (fun c => a + bs.length ≤ c.1)

/-- The byte at an address. -/
def memByte (cells : List Host.Cell) (a : Nat) : Byte :=
  match cells.find? (fun c => c.1 == a) with
  | some c => c.2
  | none => emptyByte

/-- Walk down a list of listed cells. -/
def memFill : Nat → Nat → List Host.Cell → Bytes
  | _, 0, _ => []
  | a, n + 1, [] => emptyByte :: memFill (a + 1) n []
  | a, n + 1, c :: cs => if c.1 = a then c.2 :: memFill (a + 1) n cs else emptyByte :: memFill (a + 1) n (c :: cs)

/-- `n` bytes from an address. -/
def memRead (cells : List Host.Cell) (a n : Nat) : Bytes :=
  memFill a n (cells.filter fun c => a ≤ c.1 && c.1 < a + n)

/-- Byte address of a frame (03 R50). -/
def frameAddr (pfn : Nat) : Nat := pfn * 16384

/-- The tag of a context's key slot now in force (15 R366, R367). -/
def tagOf (s : State) (slot : Nat) : EncTag := { slot := slot, gen := (keySlot s slot).gen }

def nodeSlot : Nat := 4096

/-- Write bytes into a frame under a tag. A frame written in part under another tag than before keeps nothing readable of its
old contents: the rest reads as noise under the new key (15 R368). -/
def frameWrite (s : State) (tag : EncTag) (pfn off : Nat) (bs : Bytes) : State :=
  let base := if tget {} s.mem.tags pfn = tag || (off = 0 && 16384 ≤ bs.length) then s.mem.cells
    else memWrite s.mem.cells (frameAddr pfn) ((List.range 16384).map (Config.noise pfn tag.slot tag.gen))
  { s with mem := { s.mem with cells := memWrite base (frameAddr pfn + off) bs, tags := tset {} s.mem.tags pfn tag } }

/-- Read bytes of a frame under a tag; another key than that of the last write gives noise (15 R368). -/
def frameRead (s : State) (tag : EncTag) (pfn off n : Nat) : Bytes :=
  let have' := tget {} s.mem.tags pfn
  if have' = tag then memRead s.mem.cells (frameAddr pfn + off) n
  else (List.range n).map fun i => Config.noise pfn tag.slot tag.gen (off + i)

/-- Zero a whole frame, as the scrub does (15 R376), in the page cache and in the DRAM; it lies under no key then. -/
def frameScrub (s : State) (pfn : Nat) : State :=
  { s with mem := { s.mem with
             cells := memWrite s.mem.cells (frameAddr pfn) (zeros 16384),
             tags := tdel s.mem.tags pfn,
             behind := s.mem.behind.filter fun e => e.1 / 128 != pfn } }

end Sys2Proof.Machine
end

