-- ==== Sys2Proof/Machine/Pools.lean ====
section
/-! DEFINITION. Frames, pools, quotas and scrubbing (spec 03 R50, R64, R65; 15 R366 to R376; 17 R428 to R436). -/
namespace Sys2Proof.Machine
open Sys2Proof

/-! ### Frame numbers (03 R50) -/

def isHbm (pfn : Nat) : Bool := pfn < 0x08000000
def isBoard (pfn : Nat) : Bool := 0x10000000 ≤ pfn && pfn < 0x30000000
def stackOf (pfn : Nat) : Nat := pfn / 2 ^ 22
def channelOf (pfn : Nat) : Nat := (pfn - 0x10000000) / 2 ^ 25
/-- Frames of a stack: 64 GiB, or 48 GiB for an osier stack. -/
def stackFrames (i : Nat) : Nat := if i < 24 then 4194304 else 3145728
/-- Frames of a board channel. -/
def channelFrames (s : State) (n : Nat) : Nat := tget 0 s.mem.gib n * 65536

/-- The frame exists (R50). -/
def pfnOk (s : State) (pfn : Nat) : Bool :=
  if isHbm pfn then pfn % 2 ^ 22 < stackFrames (stackOf pfn)
  else isBoard pfn && (pfn - 0x10000000) % 2 ^ 25 < channelFrames s (channelOf pfn)

/-- Tier of a frame: 0 HBM, 1 board (R58). -/
def pfnTier (pfn : Nat) : Nat := if isHbm pfn then 0 else 1

/-! ### Regions of the osier stacks (07 R167 to R173) -/

/-- Key of region `r` of stack `i`. -/
def regionKey (i r : Nat) : Nat := (i - 24) * 2 ^ 15 + r

/-- The region a frame of an osier stack lies in. -/
def regionOf (pfn : Nat) : Option Nat :=
  if isHbm pfn && 24 ≤ stackOf pfn then some (regionKey (stackOf pfn) (pfn % 2 ^ 22 / 128)) else none

def regionSt (s : State) (key : Nat) : Region := tget {} s.osier.regions key
def setRegion (s : State) (key : Nat) (v : Region) : State :=
  { s with osier := { s.osier with regions := tset {} s.osier.regions key v } }

/-- The frame lies in a COMPUTE region. -/
def inCompute (s : State) (pfn : Nat) : Bool :=
  match regionOf pfn with
  | some k => (regionSt s k).st == .compute
  | none => false

/-- A controller write into a region advances its write generation if the value was returned since the last advance (R173). -/
def touchRegion (s : State) (pfn : Nat) : State :=
  match regionOf pfn with
  | none => s
  | some k =>
    let r := regionSt s k
    if r.returned then setRegion s k { r with gen := (r.gen + 1) % 2 ^ 48, returned := false, writes := r.writes + 1 }
    else setRegion s k { r with writes := r.writes + 1 }

/-- The key a context's data lies under in a frame; COMPUTE regions are not encrypted (15 R367, 07 R172). -/
def frameTag (s : State) (slot pfn : Nat) : EncTag := if inCompute s pfn then {} else tagOf s slot

/-- The sweep or scrub of a stack's last command is under way (07 R193). -/
def regionBusy (s : State) (stack : Nat) : Bool := match tget 0 s.osier.busy stack with
  | 0 => false
  | r + 1 => (regionSt s (regionKey stack r)).st == .sealing || (regionSt s (regionKey stack r)).scrubbing

/-! ### The page cache (03 R69, R70)

`mem.cells` is what the controllers hold for every address, cached or not. The DRAM of a COMPUTE region, which the osier units see,
differs from it in the lines of `mem.behind`: a line that is dirty, and one that a unit has written while the cache may hold it. -/

/-- Line of 128 bytes that a byte of a frame lies in. -/
def lineOf (pfn off : Nat) : Nat := pfn * 128 + off / 128

/-- Lines that bytes of a frame touch. -/
def frameLines (pfn off n : Nat) : List Nat := if n = 0 then [] else span (lineOf pfn off) (lineOf pfn (off + n - 1))

/-- The memory controller of a line: its stack, or 32 and its board channel. -/
def lineCtrl (l : Nat) : Nat := if isHbm (l / 128) then stackOf (l / 128) else 32 + channelOf (l / 128)

/-- Lines a controller's page cache holds: 2 MiB at a stack, 1 MiB at a channel. -/
def cacheLines (c : Nat) : Nat := if c < 32 then 16384 else 8192

/-- Lines of a frame that bytes of it touch, as a mask. -/
def lineMask (off n : Nat) : BitVec 128 :=
  if n = 0 then 0 else (BitVec.allOnes 128 >>> (127 - ((off + n - 1) / 128 - off / 128))) <<< (off / 128)

def isDirty (s : State) (l : Nat) : Bool := (tget 0 s.tier.dirty (l / 128)).getLsbD (l % 128)

/-- Dirty lines, each by its number. -/
def dirtyLines (s : State) : List Nat := s.tier.dirty.flatMap fun e => (maskBits 128 e.2.toNat).map (e.1 * 128 + ·)

def dirtyCount (d : Tbl (BitVec 128)) : Nat := (d.map fun e => (maskBits 128 e.2.toNat).length).sum

/-- A region that a run holds or that is being sealed: its controller holds every access (07 R168, R175). -/
def regionHeld (s : State) (k : Nat) : Bool := (regionSt s k).run.isSome || (regionSt s k).st == .sealing

def frameHeld (s : State) (pfn : Nat) : Bool := match regionOf pfn with
  | some k => regionHeld s k
  | none => false

/-- Dirty lines of some frames are written back. -/
def cleanFrames (s : State) (p : Nat → Bool) : State :=
  { s with tier := { s.tier with dirty := s.tier.dirty.filter fun e => !p e.1 },
           mem := { s.mem with behind := s.mem.behind.filter fun e => !(p (e.1 / 128) && isDirty s e.1) } }

/-- Dirty lines of some frames are written back, then all their lines leave the cache: what a unit has written shows (03 R70). -/
def dropFrames (s : State) (p : Nat → Bool) : State :=
  let s := cleanFrames s p
  let t := (s.mem.behind.filter fun e => p (e.1 / 128)).foldl (fun t e => frameWrite t {} (e.1 / 128) (e.1 % 128 * 128) e.2) s
  { t with mem := { t.mem with behind := s.mem.behind.filter fun e => !p (e.1 / 128) } }

/-- The lines of some frames leave the cache and are not written back. -/
def forgetFrames (s : State) (p : Nat → Bool) : State :=
  { s with tier := { s.tier with dirty := s.tier.dirty.filter fun e => !p e.1 },
           mem := { s.mem with behind := s.mem.behind.filter fun e => !p (e.1 / 128) } }

/-- Lines that a controller evicts at an access: at least what its capacity forces, and which ones is open. A held region's lines
stay. -/
def victims (s : State) (c : Nat) : List Nat :=
  let dirty := (dirtyLines s).filter fun l => lineCtrl l == c
  let n := s.tier.accesses
  (sortBy (fun a b => Config.evictOrder n a < Config.evictOrder n b) (dirty.filter fun l => !frameHeld s (l / 128))).take
    (max (dirty.length - cacheLines c) (Config.evictions n c))

/-- A controller evicts dirty lines: they are written back. -/
def evict (s : State) (c : Nat) : State :=
  let out := victims s c
  { s with tier := { s.tier with
             accesses := s.tier.accesses + 1,
             dirty := out.foldl (fun d l => tset 0 d (l / 128) (tget 0 d (l / 128) &&& ~~~(1#128 <<< (l % 128)))) s.tier.dirty },
           mem := { s.mem with behind := s.mem.behind.filter fun e => !out.contains e.1 } }

/-- Bytes of a line where a unit may have written behind the cache. -/
def staleLine (s : State) (l : Nat) : Option Bytes :=
  match tfind s.mem.behind l with
  | some bs => if isDirty s l || Config.lineHit s.tier.accesses l then none else some bs
  | none => none

/-- Bytes read from a frame with one line of it put over them. -/
def overlay (off : Nat) (b : Bytes) (l : Nat) (line : Bytes) : Bytes :=
  b.zipIdx.map fun x => if (off + x.2) / 128 = l % 128 then line.getD ((off + x.2) % 128) 0 else x.1

/-- A controller reads bytes of a frame for the owner of a key slot. A line that a unit has written since reads as the cache holds
it, or as the DRAM does: which is open (03 R70). -/
def getFrame (s : State) (slot pfn off n : Nat) : Bytes :=
  (s.mem.behind.filter fun e => e.1 / 128 == pfn).foldl (fun b e => match staleLine s e.1 with
    | some line => overlay off b e.1 line
    | none => b) (frameRead s (frameTag s slot pfn) pfn off n)

/-- The lines of a write enter the cache: what the DRAM holds of a COMPUTE region's is kept beside, and a line that a unit has written
enters as the cache holds it, or as the DRAM does. -/
def fillLines (s : State) (pfn off n : Nat) : State :=
  if !inCompute s pfn then s
  else
    let t := (frameLines pfn off n).foldl (fun t l => match staleLine s l with
      | some bs => frameWrite t {} pfn (l % 128 * 128) (fit 128 bs)
      | none => t) s
    { t with mem := { t.mem with behind := (frameLines pfn off n).foldl (fun b l =>
                        if (tfind b l).isSome then b else tput b l (frameRead s {} pfn (l % 128 * 128) 128)) s.mem.behind } }

/-- An access brings a sleeping stack to READY (14 R356). -/
def wakeFrame (s : State) (pfn : Nat) : State :=
  if isHbm pfn && stackSt s (stackOf pfn) == .sleep then setStack s (stackOf pfn) .ready else s

/-- A controller writes bytes of a frame for the owner of a key slot; the lines become dirty in the page cache (03 R69). -/
def putFrame (s : State) (slot pfn off : Nat) (bs : Bytes) : State :=
  let s := fillLines (wakeFrame s pfn) pfn off bs.length
  let s := frameWrite s (frameTag s slot pfn) pfn off bs
  let s := touchRegion s pfn
  evict { s with tier := { s.tier with dirty := tset 0 s.tier.dirty pfn (tget 0 s.tier.dirty pfn ||| lineMask off bs.length) } }
    (lineCtrl (pfn * 128))

/-! ### The DRAM behind the cache (03 R70) -/

/-- Bytes of a COMPUTE frame as the osier units see them. -/
def dramRead (s : State) (pfn off n : Nat) : Bytes :=
  (s.mem.behind.filter fun e => e.1 / 128 == pfn).foldl (fun b e => overlay off b e.1 e.2) (frameRead s {} pfn off n)

/-- A unit writes one byte of a COMPUTE frame. What the controllers hold does not change. -/
def dramWrite (s : State) (pfn off : Nat) (b : Byte) : State :=
  let l := lineOf pfn off
  { s with mem := { s.mem with behind := tput s.mem.behind l ((dramRead s pfn (l % 128 * 128) 128).set (off % 128) b) },
           tier := { s.tier with accesses := s.tier.accesses + 1 } }

/-! ### Accesses that a controller holds (07 R168, R175) -/

/-- Osier regions that frames lie in. -/
def regionsOf (pfns : List Nat) : List Nat := (pfns.filterMap regionOf).eraseDups

/-- An access waits: a region of it is held, or an earlier access to it still waits. -/
def mustWait (s : State) (ks : List Nat) : Bool :=
  !s.osier.resuming && ks.any fun k => regionHeld s k || s.osier.waits.any fun w => w.1.contains k

/-- An access under some keys, regions or others that order it: done, or held until no run and no sweep holds a region of it. -/
def heldBy (s : State) (ks : List Nat) (c : Instr) (go : State → State) : State :=
  if mustWait s ks then { s with osier := { s.osier with waits := s.osier.waits ++ [(ks, c)] } } else go s

/-- A command's access to frames. -/
def heldOr (s : State) (pfns : List Nat) (c : Instr) (go : State → State) : State := heldBy s (regionsOf pfns) c go

/-! ### Frame space: bytes that may lie in several frames (11 R274) -/

/-- Frames that a run of bytes of frame space lies in. -/
def framesAt (off len : Nat) : List Nat := if len = 0 then [] else span (off / 16384) ((off + len - 1) / 16384)

/-- The pieces of a run of bytes, one in each frame: frame, offset in it, bytes of the run before it, and its length. -/
def spacePieces (off len : Nat) : List (Nat × Nat × Nat × Nat) :=
  (framesAt off len).map fun p =>
    let lo := max off (p * 16384)
    (p, lo % 16384, lo - off, min (off + len) ((p + 1) * 16384) - lo)

/-- Bytes at an offset of frame space, through the page cache, each frame under the key of the owner given. -/
def spaceRead (s : State) (c off n : Nat) : Bytes := (spacePieces off n).flatMap fun x => getFrame s c x.1 x.2.1 x.2.2.2

def spaceWrite (s : State) (c off : Nat) (bs : Bytes) : State :=
  (spacePieces off bs.length).foldl (fun s x => putFrame s c x.1 x.2.1 (slice bs x.2.2.1 x.2.2.2)) s

/-- A write into a table of the node that a register places in board frames; nothing is written while the register is unset, or where
no frame of the board tier lies. -/
def nodeWrite (s : State) (pfn off : Nat) (bs : Bytes) : State :=
  if isBoard (pfn + off / 16384) && pfnOk s (pfn + off / 16384) then spaceWrite s nodeSlot (pfn * 16384 + off) bs else s

/-- The oldest held access that may go on: its regions are free, and no older one waits for them. -/
def readyAccess (s : State) : Option (Nat × Instr) :=
  (s.osier.waits.zipIdx.find? fun w => w.1.1.all fun k =>
    !regionHeld s k && !((s.osier.waits.take w.2).any fun v => v.1.contains k)).map fun w => (w.2, w.1.2)

/-- The unit whose bank holds a frame of an osier stack. -/
def bankUnit (pfn : Nat) : Nat := (stackOf pfn - 24) * 256 + pfn % 2 ^ 22 / 128 / 96

/-! ### The staged map (17 R433) -/

/-- A slice with one stage entry applied. -/
def applySliceItem (sl : Slice) (n : Nat) (e : StageEnt) : Slice :=
  if e.item = 4 then
    (if e.index / 2 = n then
      (if e.index % 2 = 0 then { sl with quarters := (sl.quarters >>> 64 <<< 64) ||| (e.value.setWidth 96) }
        else { sl with quarters := (sl.quarters &&& 0xFFFFFFFFFFFFFFFF#96) ||| (e.value.setWidth 96 <<< 64) })
      else sl)
  else if e.index ≠ n then sl
  else if e.item = 1 then { sl with enabled := e.value.getLsbD 0 }
  else if e.item = 2 then { sl with clusters := e.value.setWidth 32 }
  else if e.item = 3 then { sl with stackSet := e.value.setWidth 32 }
  else if e.item = 5 then { sl with channels := e.value.setWidth 16 }
  else if e.item = 6 then { sl with ports := e.value.setWidth 24 }
  else if e.item = 7 then { sl with banks := e.value }
  else sl

/-- Slice `n` of the staged map: the current slice under the bank's entries, the later entry governing. -/
def stagedSlice (s : State) (n : Nat) : Slice := s.map.bank.foldl (fun sl e => applySliceItem sl n e) (sliceOf s n)

/-- The staged slice of a context. -/
def stagedCtxSlice (s : State) (c : Nat) : Nat :=
  match s.map.bank.reverse.find? (fun e => e.item == 0x10 && e.index == c) with
  | some e => e.value.toNat
  | none => (ctxOf s c).slice

/-- The slice's memory holds the frame (17 R430). -/
def sliceHolds (sl : Slice) (pfn : Nat) : Bool :=
  sl.enabled &&
    (if isHbm pfn then sl.stackSet.getLsbD (stackOf pfn) || (stackOf pfn < 24 && sl.quarters.getLsbD (4 * stackOf pfn + pfn / 2 ^ 20 % 4))
      else isBoard pfn && sl.channels.getLsbD (channelOf pfn))

/-- A bank that is CHECKED or COMMITTING keeps its check true (17 R436). -/
def bankHeld (s : State) : Bool := s.map.bankSt == .checked || s.map.bankSt == .committing

/-- The staged map moves the frame's stack, quarter or channel away from slice `n`. -/
def frameMoves (s : State) (n pfn : Nat) : Bool := bankHeld s && !sliceHolds (stagedSlice s n) pfn

/-! ### Node frames (17 R428) -/

/-- The ranges of frames that registers and queue pairs name as node frames: first frame and count. The QPE backing store
holds 256 bytes for each QPN, the region table 32 bytes an entry, the path table 256 MiB, the event log 512 << size records of
32 bytes (12 R291, R293, R301, R307). -/
def nodeRanges (s : State) : List (Nat × Nat) :=
  let unset (b n : Nat) := if b = 0xFFFFFFFF then [] else [(b, n)]
  unset (rf s Off.WEFT_STORE_BASE 0 32) (rf s Off.WEFT_STORE_FRAMES 0 32) ++
    (if rbit s Off.QPE_CTRL 1 || rf s Off.QPE_CTX_LIMIT 0 24 = 0 then []
      else [(rf s Off.QPE_CTX_BASE_LO 0 32, cdiv (rf s Off.QPE_CTX_LIMIT 0 24 * 256) 16384)]) ++
    unset (rf s Off.QPE_REGION_BASE 0 32) (cdiv (rf s Off.QPE_REGION_COUNT 0 21 * 32) 16384) ++
    unset (rf s Off.QPE_PATH_BASE 0 32) 16384 ++
    unset (rf s Off.QPE_EVT_BASE 0 32) (cdiv (512 * 2 ^ rf s Off.QPE_EVT_SIZE 0 4 * 32) 16384) ++
    (s.qpe.qps.flatMap fun q => if q.2.st = .free then [] else unset q.2.sqPfn 1)

def inRanges (rs : List (Nat × Nat)) (pfn : Nat) : Bool := rs.any fun r => r.1 ≤ pfn && pfn < r.1 + r.2

/-- The frame is a node frame (R428). -/
def isNodeFrame (s : State) (pfn : Nat) : Bool :=
  (isHbm pfn && pfn % 2 ^ 22 + 256 ≥ stackFrames (stackOf pfn)) || inRanges (nodeRanges s) pfn

/-! ### Pools (17 R430) -/

/-- Placements a frame is taken for: 0 HBM, 1 board, 2 COMPUTE pool regions (10 R257). -/
def placeOk (s : State) (place pfn : Nat) : Bool :=
  if place = 1 then isBoard pfn
  else isHbm pfn && (match regionOf pfn with
    | none => place == 0
    | some k =>
      let r := regionSt s k
      if place = 0 then r.st == .prot else r.st == .compute && r.owner.isNone && !r.sealPending)

/-- The stack or channel serves accesses: fenced and absent ones add nothing to a pool (R424). -/
def memReady (s : State) (pfn : Nat) : Bool :=
  if isHbm pfn then stackSt s (stackOf pfn) == .ready || stackSt s (stackOf pfn) == .sleep
  else channelSt s (channelOf pfn) == .ready

/-- The frame belongs to the pool of slice `n` for a placement. -/
def inPool (s : State) (n place pfn : Nat) : Bool :=
  pfnOk s pfn && sliceHolds (sliceOf s n) pfn && placeOk s place pfn && memReady s pfn && !isNodeFrame s pfn && !frameMoves s n pfn

/-- The frame is not allocated, not waiting for its scrub and not retired. -/
def frameIdle (s : State) (pfn : Nat) : Bool :=
  (tfind s.tier.frames pfn).isNone && !s.tier.scrub.contains pfn && !s.tier.retired.contains pfn

/-- The frame can be taken now. -/
def frameFree (s : State) (n place pfn : Nat) : Bool := inPool s n place pfn && frameIdle s pfn

/-- Frames of a run [lo, hi) that lie in some range, each counted once. -/
def unionIn (rs : List (Nat × Nat)) (lo hi : Nat) : Nat :=
  let cut := sortBy (fun a b => a.1 < b.1) (rs.map fun r => (max lo r.1, min hi (r.1 + r.2)))
  (cut.foldl (fun (st : Nat × Nat) r => if r.2 ≤ max st.1 r.1 then st else (r.2, st.2 + (r.2 - max st.1 r.1))) (lo, 0)).2

/-- Whole runs of frames a slice holds for HBM or board: base and length, of READY stacks and channels. -/
def sliceRuns (s : State) (n place : Nat) : List (Nat × Nat) :=
  let sl := sliceOf s n
  let moves (b : Nat) := frameMoves s n b || !memReady s b
  if !sl.enabled then []
  else if place = 1 then
    (maskBits 16 sl.channels.toNat).filterMap fun c =>
      let b := 0x10000000 + c * 2 ^ 25
      if moves b then none else some (b, channelFrames s c)
  else
    ((maskBits 32 sl.stackSet.toNat).filterMap fun i =>
      let b := i * 2 ^ 22
      if moves b then none else some (b, stackFrames i)) ++
    ((maskBits 96 sl.quarters.toNat).filterMap fun k =>
      let b := k / 4 * 2 ^ 22 + k % 4 * 2 ^ 20
      if moves b then none else some (b, 2 ^ 20))

/-- Frames TIER_POOL_FREE counts (03 R86, 15 R376): the pool's frames but those allocated, waiting for scrub or retired. -/
def poolFree (s : State) (n place : Nat) : Nat :=
  let taken := (s.tier.frames.map (·.1) ++ s.tier.scrub ++ s.tier.retired).countP fun p => inPool s n place p
  if place = 2 then
    ((s.osier.regions.filter fun e => placeOk s 2 ((e.1 / 2 ^ 15 + 24) * 2 ^ 22 + e.1 % 2 ^ 15 * 128)).map fun e =>
      (span ((e.1 / 2 ^ 15 + 24) * 2 ^ 22 + e.1 % 2 ^ 15 * 128) ((e.1 / 2 ^ 15 + 24) * 2 ^ 22 + e.1 % 2 ^ 15 * 128 + 127)).countP
        (inPool s n 2)).sum - taken
  else
    let compute := s.osier.regions.filterMap fun e =>
      if e.2.st = .prot then none else some ((e.1 / 2 ^ 15 + 24) * 2 ^ 22 + e.1 % 2 ^ 15 * 128, 128)
    let tops := (List.range 32).map fun i => (i * 2 ^ 22 + stackFrames i - 256, 256)
    ((sliceRuns s n place).map fun r => r.2 - unionIn (nodeRanges s ++ tops ++ compute) r.1 (r.1 + r.2)).sum - taken

/-- Free frames of the COMPUTE pool of a slice in one unit's bank (07 R185). -/
def bankFree (s : State) (n u : Nat) : Nat :=
  let first (k : Nat) : Nat := (k / 2 ^ 15 + 24) * 2 ^ 22 + k % 2 ^ 15 * 128
  ((s.osier.regions.filter fun e => bankUnit (first e.1) == u && placeOk s 2 (first e.1)).map fun e =>
    (span (first e.1) (first e.1 + 127)).countP (frameFree s n 2)).sum

/-- Where a search for a free frame goes on after `p`: past a range of node frames, a region, or the frame. -/
def nextCandidate (s : State) (place p : Nat) : Nat :=
  match (nodeRanges s).find? (fun r => r.1 ≤ p && p < r.1 + r.2) with
  | some r => r.1 + r.2
  | none => match regionOf p with
    | some _ => if placeOk s place p then p + 1 else (p / 128 + 1) * 128
    | none => p + 1

/-- The lowest free frame of a run from `p` on. -/
def seekFree (s : State) (n place hi : Nat) : Nat → Nat → Option Nat
  | 0, _ => none
  | fuel + 1, p =>
    if p ≥ hi then none
    else if frameFree s n place p then some p
    else seekFree s n place hi fuel (nextCandidate s place p)

/-- The lowest free frame of the pool that `fits`. COMPUTE frames lie in listed regions. -/
def lowestFree (s : State) (n place : Nat) (fits : Nat → Bool) : Option Nat :=
  if place = 2 then
    s.osier.regions.findSome? fun e =>
      let b := (e.1 / 2 ^ 15 + 24) * 2 ^ 22 + e.1 % 2 ^ 15 * 128
      if placeOk s 2 b then (span b (b + 127)).find? fun p => frameFree s n 2 p && fits p else none
  else
    let fuel := s.tier.frames.length + s.tier.scrub.length + s.tier.retired.length + (nodeRanges s).length + s.osier.regions.length + 300
    ((sortBy (fun a b => a.1 < b.1) (sliceRuns s n place)).findSome? fun r => seekFree s n place (r.1 + r.2) fuel r.1).filter fits

/-- Take one frame: the allocator's choice `pick` when it is a free frame of the pool that `fits`, else the lowest free one
that does. The spec leaves the allocator's choice open. -/
def pickFrame (s : State) (n place : Nat) (fits : Nat → Bool) (pick : Option Nat) : Option Nat :=
  match pick with
  | some p => if frameFree s n place p && fits p then some p else lowestFree s n place fits
  | none => lowestFree s n place fits

def setFrameInfo (s : State) (pfn : Nat) (i : FrameInfo) : State :=
  { s with tier := { s.tier with frames := tput s.tier.frames pfn i } }

/-- Frames of a context used in a tier (03 R64); owned COMPUTE regions count 128 frames of HBM each (07 R169). -/
def usedFrames (s : State) (c tier : Nat) : Nat :=
  if tier = 2 then tget 0 s.tier.remoteUsed c
  else s.tier.frames.countP (fun e => e.2.ctx == c && pfnTier e.1 == tier) +
    (if tier = 0 then 128 * s.osier.regions.countP (fun e => e.2.owner == some c && e.2.st != .prot) else 0)

def quotaOf (s : State) (c tier : Nat) : Nat := regWord s (rkey (Off.TIER_QUOTA_HBM + 4 * tier) c)

/-- Quota a context has left in a tier. -/
def quotaLeft (s : State) (c tier : Nat) : Nat := quotaOf s c tier - usedFrames s c tier

/-- A pool that has fallen below TIER_POOL_LOW raises pool_low (03 R86). -/
def poolLowCheck (s : State) (n place c before : Nat) : State :=
  let t := rf s Off.TIER_POOL_LOW 0 32
  let now := poolFree s n place
  if now < t && t ≤ before then raise s Off.TIER_STATUS 2 [(20, 12, c)] else s

/-- Take `k` frames one after another. -/
def takeEach (s : State) (n place c : Nat) (use : Use) (fits : Nat → Bool) : Nat → List Nat → Option (List Nat × State)
  | 0, _ => some ([], s)
  | k + 1, picks =>
    match pickFrame s n place fits picks.head? with
    | none => none
    | some p =>
      match takeEach (setFrameInfo s p { ctx := c, use := use, mapGen := s.map.gen }) n place c use fits k picks.tail with
      | none => none
      | some (ps, s') => some (p :: ps, s')

/-- Take `k` frames of a pool for a context, in turn; `fits` names the bank a COMPUTE frame must lie in. None when the pool
cannot give them. A pool that so falls below TIER_POOL_LOW raises pool_low (03 R86). -/
def takeFrames (s : State) (n place c : Nat) (use : Use) (fits : Nat → Bool) (k : Nat) (picks : List Nat) : Option (List Nat × State) :=
  match takeEach s n place c use fits k picks with
  | none => none
  | some (ps, t) => some (ps, poolLowCheck t n place c (poolFree s n place))

def anyFrame (_ : Nat) : Bool := true

/-! ### Release and scrub (03 R60, R68; 15 R376) -/

/-- Frames leave their owner: to the scrub, or, retired, out of use (16 R388). -/
def releaseFrames (s : State) (ps : List Nat) : State :=
  ps.foldl (fun s p =>
    match tfind s.tier.frames p with
    | none => s
    | some i =>
      let s := forgetFrames s (· == p)
      { s with tier := { s.tier with
          frames := tdel s.tier.frames p,
          retired := if i.retired then s.tier.retired ++ [p] else s.tier.retired,
          scrub := if i.retired then s.tier.scrub else s.tier.scrub ++ [p] } }) s

/-- Frames wait until every step in `waits` has ended (R60, R68); with none, they leave at once. -/
def retireFrames (s : State) (ps : List Nat) (waits : List Nat) : State :=
  if ps.isEmpty then s
  else if waits.isEmpty then releaseFrames s ps
  else
    let s := ps.foldl (fun s p => match tfind s.tier.frames p with
      | some i => setFrameInfo s p { i with use := .old }
      | none => s) s
    { s with tier := { s.tier with old := s.tier.old ++ [{ frames := ps, waits := waits }] } }

/-- Reserved frames not used return to their pool: nothing was written into them (R65). -/
def returnFrames (s : State) (ps : List Nat) : State :=
  { s with tier := { s.tier with frames := s.tier.frames.filter fun e => !ps.contains e.1 } }

/-! ### Table slots (06 R162) -/

def tslotOf (s : State) (k : Nat) : TSlot := tget {} s.weft.slots k
def setTslot (s : State) (k : Nat) (v : TSlot) : State :=
  { s with weft := { s.weft with slots := tset {} s.weft.slots k v } }

/-- Table slot and generation as headers name them (R53, R153). -/
def tableRef (slot gen : Nat) : Nat := slot % 64 + gen % 1024 * 64

/-- The table a reference decodes under: its slot is BOUND or DRAINING at that generation (R162). -/
def tableAt (s : State) (ref : Nat) : Option Bytes :=
  let t := tslotOf s (ref % 64)
  if t.st = .free || t.gen ≠ ref / 64 % 1024 then none else some t.bytes

/-- Committed pages that name a slot's current generation; a page that has landed and is not committed is none yet. -/
def slotPages (s : State) (k : Nat) : Nat :=
  ((s.tier.frames.filter fun e => e.2.use != .reserved).map fun e => e.2.tabs.countP (· == tableRef k (tslotOf s k).gen)).sum

end Sys2Proof.Machine
end

