-- ==== Sys2Proof/Machine/Regs.lean ====
section
/-! DEFINITION. Who may write a register, which instance an access reaches, how a write acts on the fields, and what a refused
or faulty access leaves (18 R441 to R452, 15 R362). -/
namespace Sys2Proof.Machine
open Sys2Proof

/-! ### Masters and served blocks -/

/-- A privileged master (R445): the sideband, or the PCIe requester GLOBAL_MGMT_RID lets through. -/
def privileged (s : State) : Master → Bool
  | .sideband => true
  | .pcie rid => !rbit s Off.GLOBAL_MGMT_RID 31 || rf s Off.GLOBAL_MGMT_RID 0 16 == rid

def masterCode (s : State) (m : Master) : Nat :=
  match m with
  | .sideband => 2
  | .pcie _ => if privileged s m then 0 else 1

/-- The node was set up: the whole window answers (R425, R458). -/
def setUp (s : State) : Bool := s.boot.st == .setup || s.boot.st == .run

/-- Registers the always-on domain serves (R458, first row). -/
def alwaysOn (off : Nat) : Bool :=
  off ≤ Off.GLOBAL_SERIAL_3 || off == Off.GLOBAL_RESET_CAUSE || off == Off.COMMIT_BOOT || off == Off.FAULT_STATE ||
    off == Off.FAULT_GRADE || off == Off.FAULT_SVC_INDEX || off == Off.FAULT_SVC_DATA || off == Off.FAULT_SVC_HEAD

/-- Blocks that answer before SETUP (R425). -/
def earlyBlock (off : Nat) : Bool :=
  let b := off / 0x10000
  b == 0 || b == 1 || b == 4 || b == 5 || b == 6

/-- FENCED_SAFE, where BAR0 answers nothing (R412, R455). -/
def inSafe (s : State) : Bool := s.fault.st == .fencedSafe

/-- The node works: power is up, no reset holds it, and it is not in FENCED_SAFE (R412, R467). -/
def alive (s : State) : Bool := s.pins.por && !s.boot.held && !inSafe s

/-- The outcome of a command that only a working node carries out: `t` is what it leaves there. -/
def whileAlive (s t : State) : Host.Outcome State Fault Refusal := .next (if alive s then t else s)

/-- The block at a normal-view offset serves an access (R425, R458). -/
def served (s : State) (m : Master) (off : Nat) : Bool :=
  s.pins.por && match m with
  | .sideband =>
    if inSafe s then alwaysOn off || off == Off.FAULT_LOG_SEL || off == Off.FAULT_LOG_DATA
    else if s.boot.st == .por || s.boot.held then alwaysOn off
    else setUp s || earlyBlock off
  | .pcie _ => s.pins.perst && !s.boot.held && !inSafe s && (setUp s || earlyBlock off)

/-! ### Instances (R447, R451) -/

/-- Registers of which each master holds a copy (R447). -/
def perMaster (off : Nat) : Bool :=
  let b := off / 0x10000
  [Off.COMMIT_GEN_SEL, Off.COMMIT_MAP_SEL, Off.HOSTQ_RING_SEL, Off.HOSTQ_VEC_SEL, Off.HOSTQ_FUNC_SEL, Off.HOSTQ_CNT_SEL,
    Off.LEDGER_RECON_SEL, Off.THERM_SENSOR_SEL, Off.SEC_CTX_SEL, Off.SEC_DATA_INDEX, Off.SEC_KEY_SEL, Off.FAULT_LOG_SEL,
    Off.FAULT_CNT_SEL, Off.FAULT_GROUP_SEL, Off.FAULT_GROUP_MEMBER_SEL, Off.FAULT_EPOCH_SEL, Off.FAULT_SVC_INDEX,
    Off.WEFT_HANDLE_SEL, Off.COMP_SLOT_SEL, Off.COMP_CNT_SEL, Off.PLAIT_SLICE_SEL, Off.PLAIT_BANK_SEL, Off.PLAIT_CNT_SEL,
    Off.COMA_SEED_SEL, Off.TIER_SEL, Off.FAB_ROUTE_SEL, Off.FAB_QUIESCE_SEL, Off.QPE_QP_SEL, Off.QPE_PATH_SEL,
    Off.QPE_HOLD_SEL, Off.QPE_CNT_SEL, Off.EGR_POL_SEL].contains off ||
  (b == 0xA && 0xA1000 ≤ off && off < 0xA1800 && off % 0x100 == 8) ||
  (0x10 ≤ b && b < 0x18 && off % 0x10000 == 0x20) ||
  (0x38 ≤ b && b < 0x40 && (off % 0x10000 == 0x1000 || off % 0x10000 == 0x102C)) ||
  (0x70 ≤ b && b < 0x73 && (off % 0x2000 == 4 || off % 0x2000 == 0x2C || off % 0x2000 == 0x40))

/-- The number a selector's copy holds in its lowest field. -/
def selNum (s : State) (m : Master) (off : Nat) : Nat :=
  match regAt off with
  | some r => match r.fields.head? with
    | some f => fld (selWord s m off) f.lo f.w
    | none => 0
  | none => 0

/-- Class that EGR_TC_SEL of a port selects. -/
def tcSel (s : State) (m : Master) (p : Nat) : Nat := selWord s m (Off.EGR_TC_SEL p) % 8

/-- Class that EGR_GATE_ENT_SEL of a port selects; 0 acts as 1 (13 R332). -/
def gateSel (s : State) (m : Master) (p : Nat) : Nat := max 1 (selWord s m (Off.EGR_GATE_ENT_SEL p) % 8)

/-- The selector value of the instance of `off` that a master's access reaches; 0 for a register without a selector. -/
def selOf (s : State) (m : Master) (off : Nat) : Nat :=
  let b := off / 0x10000
  if b = 0x2 then
    (if Off.HOSTQ_RING_SQ_LO ≤ off && off ≤ Off.HOSTQ_RING_CFG then selNum s m Off.HOSTQ_RING_SEL
    else if off = Off.HOSTQ_VEC_MOD then selNum s m Off.HOSTQ_VEC_SEL
    else if off = Off.HOSTQ_FUNC_VECTORS then selNum s m Off.HOSTQ_FUNC_SEL else 0)
  else if b = 0x6 then
    (if off = Off.FAULT_GROUP_CFG || off = Off.FAULT_GROUP_CTX then selNum s m Off.FAULT_GROUP_SEL
    else if off = Off.FAULT_GROUP_MEMBER then selNum s m Off.FAULT_GROUP_SEL * 32 + selNum s m Off.FAULT_GROUP_MEMBER_SEL else 0)
  else if b = 0xA then (if off = Off.COMA_SEED_LO || off = Off.COMA_SEED_HI then selNum s m Off.COMA_SEED_SEL else 0)
  else if b = 0xB then (if Off.TIER_QUOTA_HBM ≤ off && off ≤ Off.TIER_QUOTA_REMOTE then selNum s m Off.TIER_SEL else 0)
  else if off = Off.FAB_ROUTE_PORTS then selNum s m Off.FAB_ROUTE_SEL
  else if off = Off.FAB_QUIESCE then selNum s m Off.FAB_QUIESCE_SEL
  else if off = Off.QPE_PATH then selWord s m Off.QPE_PATH_SEL % 2 ^ 30
  else if Off.EGR_POL_RATE ≤ off && off ≤ Off.EGR_POL_BURST then selNum s m Off.EGR_POL_SEL
  else if 0x70 ≤ b && b < 0x73 then
    let p := (off - 0x700000) / 0x2000
    let o := off % 0x2000
    if o = 8 || o = 0xC || o = 0x14 then tcSel s m p
    else if o = 0x30 then gateSel s m p * 256 + fld (selWord s m (Off.EGR_GATE_ENT_SEL p)) 8 8
    else if o = 0x34 then gateSel s m p else 0
  else 0

/-- Instance key that a master's access reaches. -/
def keyOf (s : State) (m : Master) (off : Nat) : Nat := rkey off (selOf s m off)

/-! ### Refusals (R362, R449) -/

/-- An access error: offset with view, kind, master; counted; status event (R449). -/
def accessError (s : State) (m : Master) (addr kind : Nat) : State :=
  let s := { s with regs := { s.regs with accAddr := addr % 2 ^ 26, accKind := kind, accMaster := masterCode s m } }
  raise (countSat s Off.GLOBAL_ACCESS_CNT 1) Off.GLOBAL_STATUS (if kind = 3 then 4 else 2)

/-- A refused guarded write: logged, counted, status event (R362). -/
def guardRefuse (s : State) (kind ring addr : Nat) : State :=
  let s := { s with sec := { s.sec with guardKind := kind, guardRing := if kind = 2 then ring else s.sec.guardRing,
                                        guardAddr := if kind = 1 then addr % 2 ^ 26 else s.sec.guardAddr,
                                        guardCnt := sat32 (s.sec.guardCnt + 1) } }
  raise s Off.SEC_STATUS 4

/-! ### Writes by type and view (R444) -/

/-- Bits of the fields of given types. -/
def typeMask (r : Reg) (p : RegTy → Bool) : Nat := (r.fields.filter fun f => p f.ty).foldl (fun n f => n ||| (2 ^ f.w - 1) * 2 ^ f.lo) 0

/-- `old` with the bits of `mask` taken from `new`. -/
def under (mask old new : Nat) : Nat := (old &&& (0xFFFFFFFF ^^^ mask)) ||| (new &&& mask)

/-- What a view makes of the old bits (R444). -/
def viewWord : View → Nat → Nat → Nat
  | .normal, _, d => d
  | .set, old, d => old ||| d
  | .clear, old, d => old &&& (0xFFFFFFFF ^^^ d)
  | .toggle, old, d => old ^^^ d

/-- Bits a master may write in a register, reserved bits of a normal-view write apart. -/
def writable (s : State) (m : Master) (r : Reg) : Nat :=
  typeMask r fun t => t == .rw || (t == .rwg && privileged s m)

/-- Reserved bits of a register. -/
def reservedMask (r : Reg) : Nat := 0xFFFFFFFF ^^^ typeMask r fun _ => true

def hasGuarded (r : Reg) : Bool := r.fields.any fun f => f.ty == .rwg

/-- The word an access leaves in an instance (R444): the master's fields by the view, reserved bits in the normal view only. A write
that the guard refuses reaches no reserved bit (15 R362; 18 R449). -/
def writtenWord (s : State) (m : Master) (v : View) (r : Reg) (old d : Nat) : Nat :=
  let w := under (writable s m r) old (viewWord v old d)
  if v = .normal && !(hasGuarded r && !privileged s m) then under (reservedMask r) w d else w

/-- WO bits that an access sets (R444): privileged masters, normal and SET view. -/
def writtenWo (s : State) (m : Master) (v : View) (r : Reg) (d : Nat) : Nat :=
  if privileged s m && (v = .normal || v = .set) then d &&& typeMask r (· == .wo) else 0

/-- The stored word a master's access to a register reaches, its own copy where it holds one. -/
def storedWord (s : State) (m : Master) (off : Nat) : Nat :=
  if perMaster off then selWord s m off else regWord s (keyOf s m off)

def putStored (s : State) (m : Master) (off w : Nat) : State :=
  if perMaster off then selPut s m off w else regPut s (keyOf s m off) w

/-- Key of the hidden parity of the instance an access reaches. -/
def parityKey (s : State) (m : Master) (off : Nat) : Nat := if perMaster off then copyKey m off else keyOf s m off

/-- The register takes the word of a write, unless the write may reach no field of it and leaves its bits as they are: a refused write
is none, and repairs no parity (R362, R451). -/
def takeWord (s : State) (m : Master) (off : Nat) (r : Reg) (w : Nat) : State :=
  let t := putStored s m off w
  if writable s m r = 0 && w = storedWord s m off then { t with regs := { t.regs with badParity := s.regs.badParity } } else t

/-- A write of a register without side effects of its own; none where nothing further happens. -/
def typedWrite (s : State) (m : Master) (v : View) (addr : Nat) (r : Reg) (d : Nat) : State :=
  let off := addr % 2 ^ 24
  let old := storedWord s m off
  if v ≠ .normal && s.regs.badParity.contains (parityKey s m off) then accessError s m addr 4
  else
    let s := if hasGuarded r && !privileged s m then guardRefuse s 1 0 addr else s
    let w := writtenWord s m v r old d
    let s := takeWord s m off r w
    if v = .normal && (w ^^^ old) &&& reservedMask r != 0 then accessError s m addr 3 else s

/-! ### Commands issued by registers -/

/-- The stored word with fields (lowest bit, width, value) written into it. -/
def withFields (old : Nat) (puts : List (Nat × Nat × Nat)) : Nat := puts.foldl (fun w p => putFld w p.1 p.2.1 p.2.2) old

/-- A normal-view write of a command register: the row's fields over the stored word, and its WO bits. The command runs for a
privileged master whose access the block serves (R425, R445); the write of another is refused (R362). -/
def regCmd (s : State) (m : Master) (off : Nat) (puts : List (Nat × Nat × Nat)) (run : State → State) : State :=
  if !served s m off then (if inSafe s && m != .sideband then emit s .completerAbort else s)
  else match regAt off with
    | none => s
    | some r =>
      let s' := typedWrite s m .normal off r (withFields (storedWord s m off) puts)
      if privileged s m then run s' else s'

end Sys2Proof.Machine
end

