-- ==== Sys2Proof/Machine/Ledger.lean ====
section
/-! DEFINITION. The Energy Ledger's account, the effective budget, thermal bands and the brake (14 R338 to R353). -/
namespace Sys2Proof.Machine
open Sys2Proof

/-! ### Effective budget and refill -/

/-- A power setting outside 800 to 3,200 W acts as the nearer limit (R341, R357). -/
def clampWatts (w : Nat) : Nat := min 3200 (max 800 w)

def clampScale (x : Nat) : Nat := min 0x7FFF (max 0x2000 x)

def inSustained (s : State) : Bool := s.brake.st == .sustainedReleased || s.brake.st == .sustainedBraked

/-- Ceiling of the thermal band now in force (R352). -/
def bandCeiling (s : State) : Nat := clampWatts (s.therm.cfg.getD s.therm.band (0, 3200, false)).2.1

/-- The least of the three terms of R341. -/
def peffTarget (s : State) : Nat :=
  let p := min (clampWatts (rf s Off.LEDGER_BUDGET 0 12)) (bandCeiling s)
  if inSustained s then min p (clampWatts (rf s Off.LEDGER_BRAKE_FLOOR 0 12)) else p

/-- Which of the three terms that is: the set budget, else the band's ceiling, else the floor, where several are least. -/
def peffTerm (s : State) : Nat :=
  if peffTarget s = clampWatts (rf s Off.LEDGER_BUDGET 0 12) then 0 else if peffTarget s = bandCeiling s then 1 else 2

/-- Refill at a budget and scale (R339). -/
def refillOf (p scale : Nat) : Nat := p * 10 * 16384 / scale

/-- A fall of the effective budget acts at once on refill and remaining units; a rise waits for the next window (R342). -/
def applyFall (s : State) : State :=
  let p := peffTarget s
  if p < s.ledger.peff then
    let r := refillOf p s.ledger.scale
    { s with ledger := { s.ledger with peff := p, term := peffTerm s, refill := r, remain := s.ledger.remain - (s.ledger.refill - r) } }
  else s

/-- Units debited from the account (R140, R144, R407). -/
def debit (s : State) (u : Nat) : State :=
  { s with ledger := { s.ledger with remain := s.ledger.remain - u, debits := (s.ledger.debits + u) % 2 ^ 64 } }

/-- An event of LEDGER_STATUS; it names the band (R357). -/
def ledgerEvent (s : State) (bit : Nat) : State := raise s Off.LEDGER_STATUS (2 ^ bit) [(24, 3, s.therm.band)]

/-! ### Windows (R338 to R343) -/

/-- 1000 x (m - x) / x for x = d x scale / 16384, rounded to nearest, halves upward. -/
def reconErr (d m scale : Nat) : Int :=
  if d = 0 then 0
  else (2000 * ((m : Int) * 16384 - d * scale) + d * scale) / (2 * (d * scale : Nat))

/-- Reconciliation at the opening of window `k`, a multiple of 100 (R343). -/
def reconcile (s : State) (k : Nat) : State :=
  let l := s.ledger
  let d := (l.debits + 2 ^ 64 - l.debits0) % 2 ^ 64
  let m := (l.meas + 2 ^ 64 - l.meas0) % 2 ^ 64
  let err := reconErr d m l.scale
  let skip := l.scaleWrite.isSome || rbit s Off.LEDGER_SCALE 16 || d = 0 || 2 * d < l.refills
  let raw := m * 16384 / d
  let sObs := clampScale raw
  let next : Int := l.scale + ((sObs : Int) - l.scale) / 4
  let scale := if skip then l.scaleWrite.getD l.scale else clampScale next.toNat
  let clamped := !skip && (raw != sObs || next != scale)
  let r : Recon := { index := k / 100, d := d, m := m, err := err, scale := scale, skipped := skip }
  let s := { s with ledger := { l with scale := scale, debits0 := l.debits, meas0 := l.meas, refills := 0,
                                       recs := (r :: l.recs).take 64 } }
  let s := if skip then s else regPut s Off.LEDGER_SCALE (putFld (regWord s Off.LEDGER_SCALE) 0 16 scale)
  let s := if err.natAbs > rf s Off.LEDGER_RECON_LIMIT 0 11 then ledgerEvent s 3 else s
  if clamped then ledgerEvent s 5 else s

/-- The window whose opening comes next: the first boundary not yet opened and not past (R338). -/
def nextWindow (s : State) : Nat := max (s.ledger.window + 1) (cdiv s.clk.counter 8000)

/-- A window opens: reconciliation, budget changes, refill (R340 steps 1 to 3). `measured` is the energy of the window that
ends, in uJ. -/
def openWindow (s : State) (measured : Nat) : State :=
  let k := nextWindow s
  let s := total s fun t => { t with energy := t.energy + measured }
  let s := { s with clk := { s.clk with counter := max s.clk.counter (8000 * k) },
                    ledger := { s.ledger with window := k, meas := (s.ledger.meas + measured) % 2 ^ 64 } }
  let s := if k % 100 = 0 then reconcile s k else s
  let scale := s.ledger.scaleWrite.getD s.ledger.scale
  let p := peffTarget s
  let r := refillOf p scale
  { s with ledger := { s.ledger with peff := p, term := peffTerm s, scale := scale, scaleWrite := none, refill := r, remain := r,
                                     lapsed := sat32 (s.ledger.lapsed + s.ledger.remain), refills := s.ledger.refills + r } }

def budgetWrite (m : Master) (watts : Nat) (s : State) : State :=
  regCmd s m Off.LEDGER_BUDGET [(0, 12, watts)] applyFall

/-- BUDGET_WRITE (R341, R342). -/
def execBudgetWrite (m : Master) (watts : Nat) (s : State) : Host.Outcome State Fault Refusal := .next (budgetWrite m watts s)

/-! ### Brake (R344 to R349) -/

/-- The braked set is held: by the input, until the release count ends, or by FENCED_SAFE (R344, R346, R353). -/
def braked (s : State) : Bool := s.brake.st == .braked || s.brake.st == .sustainedBraked || inSafe s

def brakeTotal (s : State) : State := total s fun t => { t with brakes := t.brakes + 1 }

/-- The input falls. Only the input follows the pin in a node that does not work. A pulse shorter than 1 ns may not act (R347): `acts` is what the part did. -/
def brakeAssert (acts : Bool) (s : State) : State :=
  let b := s.brake
  if !acts then s
  else if !alive s then { s with pins := { s.pins with brake := false }, brake := { b with input := true } }
  else
    let s := { s with pins := { s.pins with brake := false } }
    match b.st with
    | .idle => { brakeTotal s with brake := { b with st := .braked, input := true, releasing := false, count := sat32 (b.count + 1) } }
    | .sustainedReleased =>
      { brakeTotal s with brake := { b with st := .sustainedBraked, input := true, releasing := false, ack := false, count := sat32 (b.count + 1) } }
    | _ => { s with brake := { b with input := true, releasing := false } }

/-- BRAKE_ASSERT (R345, R347, R349). -/
def execBrakeAssert (acts : Bool) (s : State) : Host.Outcome State Fault Refusal := .next (brakeAssert acts s)

/-- The synchronised input deasserts for `held` CLK_CORE cycles: under 13 is chatter, under 66 an aborted release, both leave
the brake applied (R348); a longer one starts the release count. -/
def brakeDeassert (held : Nat) (s : State) : State :=
  let b := s.brake
  if !b.input then s
  else if !alive s then
    if held < 66 then s else { s with pins := { s.pins with brake := true }, brake := { b with input := false } }
  else if held < 13 then ledgerEvent { s with brake := { b with chatter := sat32 (b.chatter + 1) } } 2
  else if held < 66 then { s with brake := { b with aborts := sat32 (b.aborts + 1) } }
  else { s with pins := { s.pins with brake := true }, brake := { b with input := false, releasing := true } }

/-- BRAKE_DEASSERT (R346, R348). -/
def execBrakeDeassert (held : Nat) (s : State) : Host.Outcome State Fault Refusal := .next (brakeDeassert held s)

/-- The release count of R346 ends. -/
def brakeRelease (s : State) : State :=
  let b := s.brake
  if !b.releasing then s
  else { s with brake := { b with releasing := false, st := match b.st with
                                                           | .sustainedBraked => .sustainedReleased
                                                           | .sustainedReleased => .sustainedReleased
                                                           | _ => .idle } }

def sustainedBrakeEnter (s : State) : State :=
  if s.brake.st ≠ .braked then s
  else ledgerEvent (applyFall { s with brake := { s.brake with st := .sustainedBraked } }) 0

/-- SUSTAINED_BRAKE_ENTER (R349). -/
def execSustainedBrakeEnter (s : State) : Host.Outcome State Fault Refusal := whileAlive s (sustainedBrakeEnter s)

def sustainedBrakeExit (s : State) : State :=
  if s.brake.st ≠ .sustainedReleased || !s.brake.ack then s
  else ledgerEvent { s with brake := { s.brake with st := .idle, ack := false } } 1

/-- SUSTAINED_BRAKE_EXIT (R349). -/
def execSustainedBrakeExit (s : State) : Host.Outcome State Fault Refusal := whileAlive s (sustainedBrakeExit s)

def brakeAck (m : Master) (s : State) : State :=
  regCmd s m Off.LEDGER_BRAKE [] fun s => if inSustained s then { s with brake := { s.brake with ack := true } } else s

/-- BRAKE_ACK (R349, R357). -/
def execBrakeAck (m : Master) (s : State) : Host.Outcome State Fault Refusal := .next (brakeAck m s)

/-! ### Units that steps may use (05 R138 test 9, 14 R354, 16 R407) -/

/-- The cluster counts as READY: a sleep request counts against it at once (R354). -/
def clusterReady (s : State) (c : Nat) : Bool := clusterSt s c == .ready && !rbit s Off.CLK_CLUSTER_REQ c

/-- The core takes canaries: its cluster READY, the core not fenced (16 R407, R408). -/
def coreReady (s : State) (c : Nat) : Bool := clusterReady s (c / 4) && !coreFenced s c

def canaryDue (s : State) (c : Nat) : Bool := s.fault.canary.due.any (·.1 == c)

/-- A variant may use the core (test 9): its cluster READY, not disabled, not fenced, no canary due. -/
def coreUsable (s : State) (c : Nat) : Bool :=
  coreReady s c && rbit s (Off.ATTN_CORE_EN (c / 16)) (c % 16) && !canaryDue s c

/-- Every READY core runs all 8 patterns (16 R407). -/
def canaryRound (s : State) : State :=
  if !rbit s Off.FAULT_CTRL 0 then s
  else
    let due := ((List.range 128).filter (coreReady s)).flatMap fun c => (List.range 8).map fun p => (c, p)
    { s with fault := { s.fault with canary := { s.fault.canary with due := s.fault.canary.due ++ due } } }

/-! ### Thermal control (R350 to R352) -/

/-- The configuration the band registers hold: entry in degrees, ceiling, hot. -/
def bandRegs (s : State) : List (Nat × Nat × Bool) :=
  (List.range 8).map fun b =>
    let w := regWord s (Off.THERM_BAND_CFG_0 + 4 * b)
    (if b = 0 then 0 else fld w 0 8, clampWatts (fld w 8 12), bitOf w 20)

/-- Entry temperatures rise strictly from band 1 to band 7 (R351). -/
def bandCfgOk (cfg : List (Nat × Nat × Bool)) : Bool :=
  (span 1 6).all fun b => decide ((cfg.getD b (0, 0, false)).1 < (cfg.getD (b + 1) (0, 0, false)).1)

def bandEntry (s : State) (b : Nat) : Nat := 4 * (s.therm.cfg.getD b (0, 0, false)).1

/-- The highest band whose entry is at most `x`, in units of 0.25 °C; 0 when there is none. -/
def bandOf (s : State) (x : Nat) : Nat := ((span 1 7).filter fun b => bandEntry s b ≤ x).getLastD 0

/-- Band registers written since take effect at a sample; an invalid configuration is kept out (R351). -/
def takeBandCfg (s : State) : State :=
  let cfg := bandRegs s
  if bandCfgOk cfg then { s with therm := { s.therm with cfg := cfg, cfgBad := false } }
  else if s.therm.cfgBad then s
  else ledgerEvent { s with therm := { s.therm with cfgBad := true } } 6

/-- A sensor was marked failed: a UNIT fault, and the sensor is FENCED until it rejoins (16 R386, R387). -/
def sensorFault (s : State) (i : Nat) : State :=
  let s := faultReport s { source := 0x24, unitKind := 7, unitIndex := i, flags := 4 }
  let k := 7 * 4096 + i
  { s with fault := { s.fault with fencedUnits := if s.fault.fencedUnits.contains k then s.fault.fencedUnits else s.fault.fencedUnits ++ [k] } }

/-- One sensor's reading at a sample, none when invalid (R350). The failed mark goes with the next valid reading, the fence only with a
rejoin (DEDUCED). -/
def takeReading (s : State) (i : Nat) (r : Option Nat) : State :=
  let x := tget {} s.therm.sensors i
  match r with
  | some t => { s with therm := { s.therm with sensors := tset {} s.therm.sensors i { temp := min 1023 t, misses := 0, failed := false } } }
  | none =>
    let y : Sensor := { x with misses := min 2 (x.misses + 1), failed := x.misses + 1 ≥ 2 }
    let s := { s with therm := { s.therm with sensors := tset {} s.therm.sensors i y } }
    if y.failed && !x.failed then
      ledgerEvent (sensorFault s i) 7
    else s

/-- What a sensor counts as: a failed one reads the entry temperature of band 7 (R350). -/
def sensorCounts (s : State) (i : Nat) : Nat :=
  let x := tget {} s.therm.sensors i
  if x.failed then bandEntry s 7 else x.temp

/-- The band follows the hottest reading (R351). -/
def setBand (s : State) : State :=
  let hot := (List.range 128).foldl (fun (b : Nat × Nat) i => if sensorCounts s i > b.1 then (sensorCounts s i, i) else b)
    (sensorCounts s 0, 0)
  let s := { s with therm := { s.therm with hottest := hot.1, hotSensor := hot.2 } }
  let hyst := 4 * rf s Off.THERM_HYST 0 4
  let up := bandOf s hot.1
  let down := bandOf s (hot.1 + hyst)
  let b := if up > s.therm.band then up else if down < s.therm.band then down else s.therm.band
  if b = s.therm.band then applyFall s
  else
    let s := { s with therm := { s.therm with band := b } }
    canaryRound (ledgerEvent (applyFall s) 4)

/-- The time since the last sample counts for the band in force (16 R415). -/
def bandTime (s : State) : State :=
  let b := s.therm.band
  total s fun t => { t with bandSamples := t.bandSamples.set b (t.bandSamples.getD b 0 + 1) }

def thermalSample (readings : List (Option Nat)) (s : State) : State :=
  let s := takeBandCfg (bandTime s)
  let s := (List.range 128).foldl (fun s i => takeReading s i (readings.getD i none)) s
  let s := setBand s
  total s fun t => { t with hottest := max t.hottest s.therm.hottest }

/-- THERMAL_SAMPLE (R350 to R352). -/
def execThermalSample (readings : List (Option Nat)) (s : State) : Host.Outcome State Fault Refusal :=
  whileAlive s (thermalSample readings s)

end Sys2Proof.Machine
end

