-- ==== Sys2Proof/Machine/Wire.lean ====
section
/-! DEFINITION. What the node puts on the fabric: frames, routes, class queues, outstanding requests, and work requests on
queue pairs (11 R275 to R279, R286; 12 R291 to R296; 13 R314). -/
namespace Sys2Proof.Machine
open Sys2Proof

/-! ### Frames (11 R276) -/

/-- This node's number (11 R288). -/
def nodeNum (s : State) : Nat := rf s Off.FAB_NODE 0 14

/-- The node has a number: without one it takes and answers nothing on the fabric (11 R272). -/
def numbered (s : State) : Bool := rbit s Off.FAB_NODE 31

/-- Frame bytes: header, body and tag; a body is filled to a multiple of 8 bytes. -/
def frameLen (f : Frame) : Nat := 56 + cdiv f.body.length 8 * 8

def frameHeader (f : Frame) : Bytes :=
  putLe 1 f.op ++ putLe 1 f.flags ++ putLe 1 (f.tc % 8) ++ putLe 1 f.hops ++ putLe 2 (frameLen f / 8) ++ putLe 2 f.combine ++
    putLe 2 (f.dst % 2 ^ 14) ++ putLe 2 (f.src % 2 ^ 14) ++ putLe 2 f.session ++ putLe 2 f.rtag ++ putLe 4 f.key ++ putLe 2 f.size ++
    zeros 2 ++ putLe 8 f.addr ++ putLe 8 (f.counter % 2 ^ 48)

/-- Initialisation vector as one number: session and frame counter (R279). -/
def gcmIv (session counter : Nat) : Nat := session + 2 ^ 16 * (counter % 2 ^ 48)

/-- The body under a key's stream; the same operation encrypts and decrypts. -/
def gcmBody (key iv : Nat) (b : Bytes) : Bytes := b.zipIdx.map fun x => x.1 ^^^ Config.gcmStream key iv x.2

def gcmTagOf (key iv : Nat) (header cipher : Bytes) : Bytes := (List.range 16).map (Config.gcmTag key iv header cipher)

/-- A frame on the wire under a key: header, encrypted body, tag. -/
def sealFrame (f : Frame) (key : Nat) : Bytes :=
  let iv := gcmIv f.session f.counter
  let c := gcmBody key iv (fit (frameLen f - 56) f.body)
  frameHeader f ++ c ++ gcmTagOf key iv (frameHeader f) c

/-- A flag bit of a frame. -/
def frameFlag (f : Frame) (i : Nat) : Bool := bitOf f.flags i

/-! ### Routes (11 R275) -/

def portUp (p : Port) : Bool := p.st == .up || p.st == .degraded

/-- The UP ports that may carry frames toward a node. -/
def routeSet (s : State) (dst : Nat) : List Nat :=
  (maskBits 24 (regWord s (rkey Off.FAB_ROUTE_PORTS dst))).filter fun p => portUp (portOf s p)

/-- The session a port holds open for a context: the newer one while a rekey is under way (15 R373). -/
def sessionOf (p : Port) (ctx : Nat) : Option Nat :=
  (p.sessions.find? fun e => e.2.ctx == ctx && e.2.opened && !e.2.closing && e.1 != 0 &&
    !(p.sessions.any fun o => o.2.opened && o.2.replaces == some e.1)).map (·.1)

/-- The session under which a queued frame of a context leaves: that of new frames, else one that is being closed. -/
def carrier (p : Port) (ctx : Nat) : Option Nat :=
  match sessionOf p ctx with
  | some n => some n
  | none => (p.sessions.find? fun e => e.2.ctx == ctx && e.2.opened && e.2.closing && e.1 != 0).map (·.1)

/-- Key of a flow: class, target node and context. A context has one session on a port, so the context stands for it. -/
def flowKey (ctx dst tc : Nat) : Nat := tc % 8 + 8 * (dst % 2 ^ 14) + 2 ^ 17 * ctx

/-- The ports a flow may take: the UP ports of the route on which the context has a session (15 R372). -/
def flowPorts (s : State) (ctx dst : Nat) : List Nat := (routeSet s dst).filter fun p => (sessionOf (portOf s p) ctx).isSome

/-- The port of a flow: the one its frames have left on while that may carry them, else one of its ports by a hash of target node,
session and class; the part's hash is open. -/
def flowPort (s : State) (ctx dst tc : Nat) : Option Nat :=
  let ps := flowPorts s ctx dst
  match ps.head? with
  | none => none
  | some p0 =>
    let bound := tget 24 s.egr.flows (flowKey ctx dst tc)
    some (if ps.contains bound then bound
      else ps.getD (Config.routeHash dst ((sessionOf (portOf s p0) ctx).getD 0) tc ps.length % ps.length) p0)

/-- A flow is bound to a port. -/
def bindFlow (s : State) (ctx dst tc p : Nat) : State :=
  { s with egr := { s.egr with flows := tset 24 s.egr.flows (flowKey ctx dst tc) p } }

def eport (s : State) (p : Nat) : EPort := tget {} s.egr.ports p
def setEport (s : State) (p : Nat) (e : EPort) : State := { s with egr := { s.egr with ports := tset {} s.egr.ports p e } }

/-- Bytes a class queue holds (13 R314). -/
def queueCap : Nat := 65536

/-- The frames a queue takes within a number of bytes, in order, and those that wait. -/
def takeIn : Nat → List QFrame → List QFrame × List QFrame
  | _, [] => ([], [])
  | room, x :: xs =>
    if frameLen x.frame ≤ room then
      let r := takeIn (room - frameLen x.frame) xs
      (x :: r.1, r.2)
    else ([], x :: xs)

/-- The frames of a class on a port, in order: those in its queue, then those whose sources wait for room there. -/
def classFrames (e : EPort) (cls : Nat) : List QFrame := tget [] e.queues cls ++ tget [] e.waiting cls

/-- A class has these frames, in this order: its queue takes what fits (13 R314). -/
def putClass (s : State) (p cls : Nat) (l : List QFrame) : State :=
  let e := eport s p
  let r := takeIn queueCap l
  setEport s p { e with queues := tset [] e.queues cls r.1, waiting := tset [] e.waiting cls r.2,
                        heads := if (tget [] e.queues cls).isEmpty then tset 0 e.heads cls s.clk.counter else e.heads }

/-- Put a frame at the end of its class on a port; a source that finds the queue full waits. -/
def enqueue (s : State) (p ctx : Nat) (f : Frame) (region : Option Nat := none) : State :=
  putClass s p f.tc (classFrames (eport s p) f.tc ++ [{ ctx := ctx, frame := f, region := region }])

/-- Send a frame for a context: routed by its target, under the context's session on that port. None when no UP port of the
route holds one (NO_ROUTE). -/
def sendFrame (s : State) (ctx : Nat) (f : Frame) (region : Option Nat := none) : Option State :=
  match flowPort s ctx f.dst f.tc with
  | none => none
  | some p => match sessionOf (portOf s p) ctx with
    | none => none
    | some n => some (enqueue (bindFlow s ctx f.dst f.tc p) p ctx { f with src := nodeNum s, session := n } region)

/-- Send a frame that nothing waits for; without a route it is not sent and no_route is raised. -/
def trySend (s : State) (ctx : Nat) (f : Frame) : State :=
  match sendFrame s ctx f with
  | some s' => s'
  | none => raise s Off.FAB_STATUS 4

/-- Put a link control frame of session 0 into a port's TC0 queue. -/
def sendControl (s : State) (p : Nat) (op : Nat) (body : Bytes) : State :=
  enqueue s p 4096 { op := op, tc := 0, dst := (portOf s p).peerNode, src := nodeNum s, session := 0, body := body }

/-! ### Regions (11 R280, R281; 12 R301) -/

def regionEnt (s : State) (i : Nat) : RegEnt := tget {} s.fab.regions i
def setRegionEnt (s : State) (i : Nat) (v : RegEnt) : State := { s with fab := { s.fab with regions := tset {} s.fab.regions i v } }

/-- A response of a request that passed has been sent, or is dropped: the in-flight count of its region falls. -/
def leaveRegion (s : State) (region : Option Nat) : State :=
  match region with
  | some i => setRegionEnt s i { regionEnt s i with inflight := (regionEnt s i).inflight - 1 }
  | none => s

/-! ### Outstanding TC2 requests (11 R286) -/

/-- A free request tag, from the last one taken on. -/
def freeTag (s : State) : Option Nat :=
  ((List.range 65536).find? fun i => (tfind s.fab.reqs ((s.fab.nextTag + i) % 65536)).isNone).map fun i => (s.fab.nextTag + i) % 65536

/-- The state epoch of a unit (16 R409). -/
def epochOf (s : State) (kind index : Nat) : Nat := tget 0 s.fault.epochs (kind * 4096 + index)

/-- Issue a request, stamped with the epoch of the unit that issues it (16 R409); none when it has no route. A source that finds no free tag waits: it is not issued. -/
def issueReq (s : State) (ctx : Nat) (src : ReqSrc) (f : Frame) (unit : Option (Nat × Nat) := none) : Option State :=
  match freeTag s with
  | none => some s
  | some t => match sendFrame s ctx { f with rtag := t } with
    | none => none
    | some s' => some { s' with fab := { s'.fab with nextTag := (t + 1) % 65536,
                                                     reqs := tput s'.fab.reqs t { ctx := ctx, src := src, target := f.dst, addr := f.addr, op := f.op,
                                                                                  unit := unit,
                                                                                  epoch := (unit.map fun u => epochOf s u.1 u.2).getD 0 } } }

/-- Requests outstanding, held tags apart. -/
def outstanding (s : State) (p : Req → Bool) : Nat := s.fab.reqs.countP fun e => !e.2.held && p e.2

/-! ### Queue pairs (12 R290 to R294) -/

def qpOf (s : State) (n : Nat) : Qp := tget {} s.qpe.qps n
def setQp (s : State) (n : Nat) (q : Qp) : State := { s with qpe := { s.qpe with qps := tset {} s.qpe.qps n q } }

/-- Offset of a path entry from QPE_PATH_BASE (R291). -/
def pathAt (ctx node : Nat) : Nat := (ctx * 16384 + node) * 4

/-- The word of a path entry; 0 while QPE_PATH_BASE is unset. -/
def pathWord (s : State) (ctx node : Nat) : Nat :=
  let base := rf s Off.QPE_PATH_BASE 0 32
  if base = 0xFFFFFFFF then 0 else le (spaceRead s nodeSlot (base * 16384 + pathAt ctx node) 4)

/-- The queue pair the engines use for a context and peer node: a valid entry of the path table (R291). -/
def pathQp (s : State) (ctx node : Nat) : Option Nat :=
  let w := pathWord s ctx node
  if bitOf w 31 && (qpOf s (w % 2 ^ 24)).st == .ready then some (w % 2 ^ 24) else none

/-- A send-queue entry (R294). The source of an engine's message lies in no frame: its `local` is 0 (DESIGN CHOICE). -/
def Wr.bytes (w : Wr) : Bytes :=
  putLe 1 w.op ++ putLe 1 w.flags ++ putLe 2 w.msgType ++ putLe 4 w.length ++ putLe 8 w.loc ++ putLe 8 w.remote ++ putLe 4 w.key ++ zeros 4 ++
    putLe 8 w.wrId ++ putLe 8 w.page ++ putLe 4 w.block ++ zeros 12

/-- Entries of a send queue (R292). -/
def sqSize : Nat := 256

/-- A work request takes the entry at the tail. -/
def putWr (s : State) (qpn : Nat) (w : Wr) : State :=
  let q := qpOf s qpn
  setQp (nodeWrite s q.sqPfn (64 * q.sqTail) w.bytes) qpn { q with sq := q.sq ++ [w], sqTail := (q.sqTail + 1) % sqSize }

/-- Put a work request at the tail of a send queue (R294); while all its entries are taken, the request waits at its engine. -/
def postWr (s : State) (qpn : Nat) (w : Wr) : State :=
  let q := qpOf s qpn
  if q.sq.length < sqSize && q.sqWait.isEmpty then putWr s qpn w else setQp s qpn { q with sqWait := q.sqWait ++ [w] }

/-- An entry has become free: the oldest waiting work request takes it. -/
def nextWr (s : State) (qpn : Nat) : State :=
  let q := qpOf s qpn
  match q.sqWait with
  | w :: rest => if q.sq.length < sqSize then putWr (setQp s qpn { q with sqWait := rest }) qpn w else s
  | [] => s

/-- A SEND of an engine's message on a queue pair; `id` is the step it works for (R296). -/
def postSend (s : State) (qpn type id : Nat) (body : Bytes) : State :=
  let b := putLe 2 type ++ zeros 6 ++ body
  postWr s qpn { op := 2, msgType := type, length := cdiv b.length 8 * 8, wrId := id, body := fit (cdiv b.length 8 * 8) b }

/-- A SEND to a peer node by the path table; none is NO_PATH. -/
def sendMsg (s : State) (ctx node type id : Nat) (body : Bytes) : Option State :=
  (pathQp s ctx node).map fun n => postSend s n type id body

end Sys2Proof.Machine
end

