-- ==== Sys2Proof/Machine/Steps.lean ====
section
/-! DEFINITION. Descriptors and steps: how a descriptor ends, which variant of a step is chosen and when it may be admitted
(05 R137 to R145), how a step ends, faults or is cut (05 R146, 16 R388 to R392). -/
namespace Sys2Proof.Machine
open Sys2Proof

/-! ### Descriptors (10 R257) -/

def Desc.n (d : Desc) (off n : Nat) : Nat := leAt d.bytes off n
def Desc.kind (d : Desc) : Nat := d.n 0 1
def Desc.handle (d : Desc) : Nat := d.n 2 1
def Desc.stream (d : Desc) : Nat := d.n 4 4 % 2 ^ 24
def Desc.attempt (d : Desc) : Nat := d.n 24 1
def Desc.tag (d : Desc) : Nat := d.n 20 4
/-- A buffer address: its bits [5:0] are ignored. -/
def Desc.addr (d : Desc) (off : Nat) : Nat := d.n off 8 / 64 * 64

def findDesc (s : State) (id : Nat) : Option Desc := s.hostq.fetched.find? fun d => d.id == id
/-- The function whose requester ID the reads of a descriptor carry: that of its ring (R241). -/
def descFn (s : State) (id : Nat) : Nat := match findDesc s id with
  | some d => ringFn s d.ring
  | none => 0

/-- What a descriptor's reads find in host memory. -/
def descView (s : State) (id : Nat) (hv : HostView) : AddrView := fnView hv (descFn s id)

def dropDesc (s : State) (id : Nat) : State :=
  { s with hostq := { s.hostq with fetched := s.hostq.fetched.filter fun d => d.id != id } }

def findStep (s : State) (id : Nat) : Option Step := s.weft.steps.find? fun t => t.desc.id == id
def dropStep (s : State) (id : Nat) : State := { s with weft := { s.weft with steps := s.weft.steps.filter fun t => t.desc.id != id } }
def putStep (s : State) (t : Step) : State :=
  { s with weft := { s.weft with steps := s.weft.steps.map fun u => if u.desc.id = t.desc.id then t else u } }
def addStep (s : State) (t : Step) : State := { s with weft := { s.weft with steps := s.weft.steps ++ [t] } }

/-- The steps that are admitted and have not ended. -/
def liveSteps (s : State) : List Nat := s.weft.steps.map fun t => t.desc.id

/-! ### Streams (03 R57, R58, R61) -/

def blockKey (layer kv block : Nat) : Nat := layer * 2 ^ 34 + kv * 2 ^ 26 + block
/-- Key of a page table frame: level 0 top, 1 middle, 2 leaf, and which one of its level. -/
def tableKey (layer kv level ix : Nat) : Nat := (layer * 256 + kv) * 2 ^ 20 + level * 2 ^ 17 + ix

def setStream (s : State) (n : Nat) (v : Stream) : State := { s with tier := { s.tier with streams := tput s.tier.streams n v } }
def streamAt (s : State) (n : Nat) : Option Stream := tfind s.tier.streams n
def Stream.len (t : Stream) (layer : Nat) : Nat := tget 0 t.committed layer
/-- The stream length: the largest committed length over its layers (R61). -/
def Stream.length (t : Stream) : Nat := t.committed.foldl (fun n e => max n e.2) 0
/-- Block entries of a layer. -/
def Stream.layer (t : Stream) (layer : Nat) : Tbl BlockEntry := t.entries.filter fun e => e.1 / 2 ^ 34 == layer
/-- Block entries of a layer and KV head, by block number. -/
def headEntries (es : Tbl BlockEntry) (kv : Nat) : List (Nat × BlockEntry) :=
  (es.filter fun e => e.1 / 2 ^ 26 % 256 == kv).map fun e => (e.1 % 2 ^ 26, e.2)
def Stream.entry (t : Stream) (key : Nat) : BlockEntry := tget {} t.entries key

/-- A block entry as 128 bits (R58). -/
def entryNum (e : BlockEntry) : Nat :=
  e.pfn % 2 ^ 32 + e.spill % 2 ^ 32 * 2 ^ 32 + e.node % 2 ^ 14 * 2 ^ 64 + e.tier % 4 * 2 ^ 78 + e.count % 2 ^ 7 * 2 ^ 80 +
    b2n e.shared * 2 ^ 87 + b2n e.sketch * 2 ^ 88 + b2n e.compute * 2 ^ 89 + e.recNo % 2 ^ 32 * 2 ^ 96

/-- Counter `a` is newer than `b` (03 R80). -/
def newer (a b : Nat) : Bool :=
  let d := (a + 2 ^ 32 - b % 2 ^ 32) % 2 ^ 32
  1 ≤ d && d < 2 ^ 31

/-! ### Page table frames (03 R57) -/

def tableLevel (key : Nat) : Nat := key % 2 ^ 20 / 2 ^ 17

/-- Key of the leaf frame that holds a block's entry. -/
def leafKey (key : Nat) : Nat := key / 2 ^ 26 * 2 ^ 20 + 2 * 2 ^ 17 + key % 2 ^ 26 / 2 ^ 10

/-- Key of the frame that points to a middle or leaf frame. -/
def parentKey (key : Nat) : Option Nat :=
  let ix := key % 2 ^ 17
  match tableLevel key with
  | 0 => none
  | 1 => some (key / 2 ^ 20 * 2 ^ 20)
  | _ => some (key / 2 ^ 20 * 2 ^ 20 + 2 ^ 17 + ix / 4096)

/-- Byte offset of the pointer to a frame in its parent. -/
def pointerOff (key : Nat) : Nat := 4 * (key % 2 ^ 17 % (if tableLevel key = 1 then 16 else 4096))

/-- A table frame that names nothing: pointers 0xFFFF_FFFF, block entries of tier 3. The bytes of a top frame past its 16 entries, and
the other fields of an empty block entry, are DESIGN CHOICE: no rule gives them. -/
def blankTable (level : Nat) : Bytes :=
  if level = 2 then (List.range 1024).flatMap fun _ => putLe 16 (entryNum {}) else List.replicate 16384 0xFF#8

/-- Write what changes between two states of a stream's page tables into its table frames, for the owner of a key slot: new frames, the
pointers to frames that are new or have left, and block entries. -/
def writeTables (s : State) (slot : Nat) (old new : Stream) : State :=
  let fresh (key : Nat) : Bool := tfind new.tables key != tfind old.tables key
  let put (s : State) (key off : Nat) (bs : Bytes) : State := match tfind new.tables key with
    | some p => putFrame s slot p off bs
    | none => s
  let point (s : State) (key pfn : Nat) : State := match parentKey key with
    | some p => put s p (pointerOff key) (putLe 4 pfn)
    | none => s
  let s := (new.tables.filter fun t => fresh t.1).foldl (fun s t => putFrame s slot t.2 0 (blankTable (tableLevel t.1))) s
  let s := (new.tables.filter fun t => fresh t.1 || (parentKey t.1).any fresh).foldl (fun s t => point s t.1 t.2) s
  let s := (old.tables.filter fun t => (tfind new.tables t.1).isNone).foldl (fun s t => point s t.1 0xFFFFFFFF) s
  let s := (new.entries.filter fun e => fresh (leafKey e.1) || tfind old.entries e.1 != some e.2).foldl (fun s e =>
    put s (leafKey e.1) (16 * (e.1 % 1024)) (putLe 16 (entryNum e.2))) s
  (old.entries.filter fun e => (tfind new.entries e.1).isNone).foldl (fun s e => put s (leafKey e.1) (16 * (e.1 % 1024)) (putLe 16 (entryNum {}))) s

/-- A stream's record and page tables change: the node's copy of the tables, and the table frames (R57, R59). -/
def putStream (s : State) (n : Nat) (v : Stream) : State := writeTables (setStream s n v) v.ctx ((streamAt s n).getD {}) v

/-- The status of a step on a stream by its state (R61); none where it is OWNED or ABSENT. -/
def streamRefusal (s : State) (n : Nat) : Option Nat :=
  match streamAt s n with
  | none => none
  | some t => match t.st with
    | .owned => none
    | .draining => some St.STREAM_MOVING
    | .inDoubt => some St.STREAM_MOVING
    | .former => some St.NOT_OWNER
    | .lost => some St.STREAM_LOST

/-- Results of NOT_OWNER: owner node and handoff counter (10 R260). -/
def ownerResults (s : State) (n : Nat) : Bytes :=
  match streamAt s n with
  | some t => if t.st = .former then zeros 24 ++ putLe 4 t.newOwner ++ putLe 4 t.counter else []
  | none => []

/-! ### Images -/

def handleOf (s : State) (h : Nat) : Handle := tget {} s.weft.handles h
def setHandle (s : State) (h : Nat) (v : Handle) : State := { s with weft := { s.weft with handles := tset {} s.weft.handles h v } }
def imageOf (s : State) (h : Nat) : Image := (handleOf s h).img

/-- The status of a descriptor that names a handle (R121); none where it is LOADED. -/
def handleRefusal (s : State) (h : Nat) : Option Nat :=
  match (handleOf s h).st with
  | .free => some St.HANDLE_FREE
  | .loading => some St.HANDLE_BUSY
  | .retiring => some St.IMAGE_RETIRING
  | .loaded => none

/-- The schedule entry of an operation, class and layer (R137). -/
def schedOf (img : Image) (op cls layer : Nat) : Option Sched :=
  img.sched.find? fun e => e.op == op && e.cls == cls && e.lo ≤ layer && layer ≤ e.hi

def variantOf (s : State) (t : Step) : Variant := (imageOf s t.handle).variants.getD t.variant {}

def Variant.causal (v : Variant) : Bool := bitOf v.flags 0
def Variant.p8l (v : Variant) : Bool := bitOf v.flags 1
def Variant.sparse (v : Variant) : Bool := bitOf v.flags 2
def Variant.osier (v : Variant) : Bool := bitOf v.flags 3
def Variant.bf16 (v : Variant) : Bool := bitOf v.flags 4
def Variant.remote (v : Variant) : Bool := bitOf v.flags 5

/-! ### Merge slots (04 R109 to R111) -/

/-- Free the merge slots that satisfy `p`; none is counted. -/
def freeSlots (s : State) (p : RimSlot → Bool) : State :=
  { s with attn := { s.attn with rim := (s.attn.rim.map fun e => (e.1, e.2.filter fun x => !p x)).filter fun e => !e.2.isEmpty } }

/-- Free merge slots as stale records: each is counted, with partial_stale (R111). -/
def staleSlots (s : State) (p : RimSlot → Bool) : State :=
  let s' := s.attn.rim.foldl (fun s e =>
    let n := e.2.countP p
    if n = 0 then s
    else raise (countSat s (Off.ATTN_DROP_STALE (e.1 / 4)) n) (Off.ATTN_STATUS (e.1 / 4)) 8 [(24, 4, e.1 % 4 * 4)]) s
  freeSlots s' p

/-- A live ATTEND of a tag and attempt. -/
def stepOf (s : State) (tag attempt : Nat) : Option Step :=
  s.weft.steps.find? fun t => t.kind == 1 && t.desc.tag == tag && t.desc.attempt == attempt

/-! ### How a descriptor ends before admission -/

/-- An event of WEFT_STATUS; it names the handle (R148). -/
def weftEvent (s : State) (bit handle : Nat) : State := raise s Off.WEFT_STATUS (2 ^ bit) [(24, 8, handle)]

/-- Committed length of the descriptor's layer, as APPEND_KV returns it (10 R260). -/
def appendResults (s : State) (d : Desc) : Bytes :=
  putLe 8 (match streamAt s d.stream with
    | some t => t.len (d.n 16 2)
    | none => 0)

/-- Results of an append on every path: its layer's committed length, and the owner on NOT_OWNER (10 R260). -/
def appendOut (s : State) (d : Desc) (status : Nat) : Bytes :=
  fit 24 (appendResults s d) ++ (if status = St.NOT_OWNER then (ownerResults s d.stream).drop 24 else [])

/-- A descriptor that was not admitted completes. An ATTEND's early records are freed where no step of its
tag and attempt is admitted (04 R111); a guard step that ends is no
guard any more (R142). -/
def refuse (s : State) (d : Desc) (status : Nat) (flags : Nat := 0) (results : Bytes := []) : State :=
  let s := complete (dropDesc s d.id) d status flags (if d.kind = 2 then appendOut s d status else results)
  let s := if s.weft.guardId = some d.id then { s with weft := { s.weft with guardId := none } } else s
  let s := if status = St.NO_VARIANT || status = St.RANK_GROUP then weftEvent s 1 d.handle else s
  if d.kind = 1 && (stepOf s d.tag d.attempt).isNone then staleSlots s fun x => x.tag == d.tag && x.attempt == d.attempt else s

/-! ### Reservation of an append (03 R65) -/

/-- Table frames that blocks of a layer and head need and the stream lacks (R57). -/
def missingTables (t : Stream) (layer kv lo hi : Nat) : List Nat :=
  let top := tableKey layer kv 0 0
  let mids := (span (lo / 2 ^ 22) (hi / 2 ^ 22)).map (tableKey layer kv 1)
  let leaves := (span (lo / 2 ^ 10) (hi / 2 ^ 10)).map (tableKey layer kv 2)
  (top :: mids ++ leaves).filter fun k => (tfind t.tables k).isNone

/-- What an append must reserve: two page frames for each block it touches, as KV head and block; keys of the table frames; and
the tier code R65 chose. -/
structure AppendPlan where
  blocks : List (Nat × Nat) := []
  tables : List Nat := []
  code : Nat := 0

/-- The unit in whose bank a block of a KV head lies under placement code 2 (07 R185). -/
def blockUnit (kv b : Nat) : Nat := kv % 8 * 256 + b % 256

/-- Free frames of a pool cover two for each block; under code 2 each bank covers its own (R65, 07 R185). -/
def poolCovers (s : State) (slice code tables : Nat) (blocks : List (Nat × Nat)) : Bool :=
  if code = 2 then
    ((blocks.map fun b => blockUnit b.1 b.2).eraseDups).all fun u =>
      2 * blocks.countP (fun b => blockUnit b.1 b.2 == u) ≤ bankFree s slice u
  else 2 * blocks.length + (if code = 1 then tables else 0) ≤ poolFree s slice code

/-- Quota tier of a placement code (R126): COMPUTE regions count as HBM. -/
def quotaTier (code : Nat) : Nat := if code = 1 then 1 else 0

/-- The tier loop of R65. -/
def pickTier (s : State) (ctx slice tables : Nat) (blocks : List (Nat × Nat)) (codes : List Nat) : Except Nat Nat :=
  let need (c : Nat) := 2 * blocks.length + if c = 1 then tables else 0
  if tables > quotaLeft s ctx 1 then .error St.QUOTA_EXCEEDED
  else if tables > poolFree s slice 1 then .error St.POOL_EXHAUSTED
  else match codes with
    | [] => .error St.POOL_EXHAUSTED
    | c :: _ =>
      if need c > quotaLeft s ctx (quotaTier c) then .error St.QUOTA_EXCEEDED
      else match codes.find? fun c => need c ≤ quotaLeft s ctx (quotaTier c) && poolCovers s slice c tables blocks with
        | some c => .ok c
        | none => .error St.POOL_EXHAUSTED

/-- The placement record of a class and layer (R126). -/
def placementOf (img : Image) (cls layer : Nat) : List Nat :=
  match img.placement.find? fun p => p.cls == cls && p.lo ≤ layer && layer ≤ p.hi with
  | some p => p.tiers
  | none => []

/-- The stream an append acts on: the one that exists, or the one it would create (R61). -/
def appendStream (s : State) (d : Desc) : Stream :=
  match streamAt s d.stream with
  | some t => t
  | none => { ctx := d.ring, cls := d.n 18 1 }

/-- Blocks an append touches, as KV head and block. -/
def appendBlocks (g : Geometry) (d : Desc) : List (Nat × Nat) :=
  (List.range g.hkv).flatMap fun kv => (span (d.n 20 4 / 64) ((d.n 20 4 + d.n 24 4 - 1) / 64)).map fun b => (kv, b)

/-- Reservation of an append in full (R65). -/
def appendPlan (s : State) (d : Desc) : Except Nat AppendPlan :=
  let img := imageOf s d.handle
  let t := appendStream s d
  let layer := d.n 16 2
  let first := d.n 20 4
  let last := first + d.n 24 4 - 1
  let blocks := appendBlocks img.geo d
  let tables := (List.range img.geo.hkv).flatMap fun kv => missingTables t layer kv (first / 64) (last / 64)
  match pickTier s d.ring (ctxOf s d.ring).slice tables.length blocks (placementOf img t.cls layer) with
  | .error e => .error e
  | .ok c => .ok { blocks := blocks, tables := tables, code := c }

/-! ### Eligibility (R138) -/

/-- What a weft step asks for. `streams` is none where the host alone knows them yet. -/
structure StepReq where
  ctx : Nat := 0
  handle : Nat := 0
  op : Nat := 1
  layer : Nat := 0
  cls : Nat := 0
  classMask : Nat := 0xFFFF
  batch : Nat := 1
  streams : Option (List Nat) := none
  /-- APPEND_KV: the tier bit of the reservation -/
  tierBit : Nat := 0

/-- Bucket of a committed length (R125). -/
def bucketOf (img : Image) (len : Nat) : Nat := img.buckets.countP fun hi => hi ≤ len

/-- Placements in which a layer has blocks, as bits of tier_set (test 2). -/
def placementBits (es : Tbl BlockEntry) : List Nat :=
  es.filterMap fun e => match e.2.tier with
    | 0 => some (if e.2.compute then 3 else 0)
    | 1 => some 1
    | 2 => some 2
    | _ => none

/-- Blocks that take ordinals (R130): non-empty, remote ones only when the variant's tier_set names them. -/
def slotBlocks (v : Variant) (es : Tbl BlockEntry) (kv : Nat) : List (Nat × BlockEntry) :=
  (headEntries es kv).filter fun e => e.2.tier != 3 && (e.2.tier != 2 || bitOf v.tierSet 2)

def shapeOf (img : Image) (v : Variant) : List SlotGroup := tget [] img.shapes v.slots

/-- Slots a shape gives a KV head. -/
def headSlots (g : List SlotGroup) (kv : Nat) : Nat := ((g.filter fun x => x.kvHead == kv).map (·.count)).sum

def coresOf (v : Variant) : List Nat := maskBits 128 v.coreMap.toNat
def stacksOfMask (m : Nat) : List Nat := (maskBits 8 m).map (24 + ·)

/-- The stack that a slot group of an osier variant names: 16n + 4j is HS(4n + j) (07 R186). -/
def groupStack (core : Nat) : Nat := core / 16 * 4 + core % 16 / 4

/-- The block lies in a COMPUTE region of the stack. -/
def inStack (e : BlockEntry) (stack : Nat) : Bool := e.tier == 0 && e.compute && stackOf e.pfn == stack

/-- Every block of a group lies in a COMPUTE region of the group's stack (07 R186). The selection of a sparse variant is not
known yet: each block must lie so for some group of its head. -/
def osierPlaced (img : Image) (v : Variant) (es : Tbl BlockEntry) : Bool :=
  let groups := shapeOf img v
  if v.sparse then
    groups.all fun g => (slotBlocks v es g.kvHead).all fun b =>
      groups.any fun h => h.kvHead == g.kvHead && inStack b.2 (groupStack h.core)
  else groups.all fun g => (((slotBlocks v es g.kvHead).drop g.first).take g.count).all fun b => inStack b.2 (groupStack g.core)

/-- Tests 1, 2 and 6 for one stream. -/
def streamTests (img : Image) (r : StepReq) (v : Variant) (t : Stream) : Bool :=
  let es := t.layer r.layer
  bucketOf img (t.len r.layer) == v.bucket &&
    (if r.op = 1 then (placementBits es).all (bitOf v.tierSet ·) && (!v.osier || osierPlaced img v es)
      else bitOf v.tierSet r.tierBit) &&
    (r.op != 1 || v.sparse ||
      (List.range img.geo.hkv).all fun kv => (slotBlocks v es kv).length ≤ headSlots (shapeOf img v) kv)

/-- Tests 1 to 6: permanent for the step. An APPEND_KV's descriptor carries no class mask (10 R257), so test 4 passes for it (DESIGN
CHOICE). -/
def permanentOk (s : State) (img : Image) (r : StepReq) (v : Variant) : Bool :=
  let sl := sliceOf s (ctxOf s r.ctx).slice
  (match r.streams with
    | none => true
    | some ns => ns.all fun n => streamTests img r v ((streamAt s n).getD { cls := r.cls })) &&
    v.batchLo ≤ r.batch && r.batch ≤ v.batchHi && (r.op != 1 || bitOf r.classMask (v.vclass % 16)) &&
    (coresOf v).all (fun c => sl.clusters.getLsbD (c / 4)) && (stacksOfMask v.stackMask).all fun i => sl.stackSet.getLsbD i

/-- A cluster that changed slice is not READY until the older steps that use it have ended (17 R438). -/
def olderUse (s : State) (c : Nat) : Bool :=
  s.weft.steps.any fun t => t.mapGen != s.map.gen && (t.kind == 1 || t.kind == 2) &&
    !((sliceOf s t.slice).enabled && (sliceOf s t.slice).clusters.getLsbD c) && (coresOf (variantOf s t)).any fun k => k / 4 == c

/-- Tests 8 to 10: transient. -/
def transientOk (s : State) (v : Variant) : Bool :=
  bitOf v.bandMask s.therm.band && (coresOf v).all (fun c => coreUsable s c && !olderUse s (c / 4)) && v.energy ≤ s.ledger.refill

/-- What R139 does with a ready step. -/
inductive Pick where
  | noVariant
  | wait
  | take (v : Nat) (energy : Nat) (degraded : Bool)
deriving DecidableEq, Repr

/-- The variants of a schedule entry, in preference order. -/
def variantsOf (img : Image) (e : Sched) : List (Nat × Variant) :=
  (List.range e.vCount).map fun i => (e.vFirst + i, img.variants.getD (e.vFirst + i) {})

/-- Choice among the variants of a step (R139). -/
def pickVariant (s : State) (img : Image) (r : StepReq) (e : Sched) : Pick :=
  let perm := (variantsOf img e).filter fun v => permanentOk s img r v.2
  let elig := perm.filter fun v => transientOk s v.2
  if perm.isEmpty then .noVariant
  else match elig.find? fun v => v.2.energy ≤ s.ledger.remain with
    | none => .wait
    | some v => .take v.1 v.2.energy ((elig.head?.map (·.1)) != some v.1)

/-- The request of an ATTEND or APPEND_KV descriptor, and its schedule entry; none where the descriptor would complete. -/
def weftReq (s : State) (d : Desc) (streams : Option (List Nat)) : Option (StepReq × Sched) :=
  let img := imageOf s d.handle
  let n := match streams with
    | some (n :: _) => n
    | _ => d.stream
  if d.kind = 1 then
    let cls := (streamAt s n).map (·.cls)
    match cls with
    | none => none
    | some c => (schedOf img 1 c (d.n 16 2)).map fun e =>
      ({ ctx := d.ring, handle := d.handle, op := 1, layer := d.n 16 2, cls := c, classMask := d.n 18 2, batch := d.n 26 1,
         streams := streams }, e)
  else
    match appendPlan s d with
    | .error _ => none
    | .ok p => (schedOf img 2 (appendStream s d).cls (d.n 16 2)).map fun e =>
      ({ ctx := d.ring, handle := d.handle, op := 2, layer := d.n 16 2, cls := (appendStream s d).cls, streams := some [d.stream],
         tierBit := if p.code = 2 then 3 else p.code }, e)

/-! ### Portions (R143, R144) -/

/-- Kind cost registers: base and per of kind 3 to 7. -/
def kindBase (s : State) (kind : Nat) : Nat := fld (regWord s (Off.WEFT_KIND_COST_0 + 4 * (kind - 3))) 0 16
def kindPer (s : State) (kind : Nat) : Nat := fld (regWord s (Off.WEFT_KIND_COST_0 + 4 * (kind - 3))) 16 16

/-- OSIER_RUN and SEARCH are admitted in one portion (R144). -/
def wholeKind (d : Desc) : Bool := d.kind = 7 || (d.kind = 6 && d.n 16 1 = 0)

/-- Units the next portion needs at least: `items` is how many the descriptor counts, `first` whether it is its first. -/
def portionNeeds (s : State) (d : Desc) (items : Nat) (first : Bool) : Nat :=
  (if first then kindBase s d.kind else 0) + kindPer s d.kind * (if wholeKind d then items else 1)

/-- Items of the next portion (R144): the largest count the remaining units cover, and its cost; none while it must wait. -/
def portion (s : State) (d : Desc) (items : Nat) (first : Bool) : Option (Nat × Nat) :=
  let base := if first then kindBase s d.kind else 0
  let per := kindPer s d.kind
  if portionNeeds s d items first > s.ledger.remain then none
  else if wholeKind d then some (items, base + per * items)
  else
    let n := if per = 0 then min items 4096 else min (min items 4096) ((s.ledger.remain - base) / per)
    some (n, base + per * n)

/-! ### Order of admission (R140 to R142) -/

/-- The dispatcher may let a step in: enabled, no brake, the node RUN or in SHADOW, set up (R140, 16 R392, 17 R424). -/
def dispatchOpen (s : State) : Bool :=
  rbit s Off.WEFT_CTRL 0 && !braked s && (s.fault.st == .run || s.fault.st == .shadow) && s.boot.st == .run

/-- A FENCE of the same ring stands before the descriptor (10 R259). -/
def behindFence (s : State) (d : Desc) : Bool :=
  s.hostq.fetched.any fun e => e.ring == d.ring && e.kind == 8 && e.id < d.id

/-- The descriptor is ready: no FENCE ahead, its context not quiesced (11 R287). -/
def descReady (s : State) (d : Desc) : Bool := !behindFence s d && !(ctxOf s d.ring).quiesced

/-- Sort key of R141. -/
structure Cand where
  id : Nat
  readyAt : Nat
  prio : Nat
  ring : Nat
  pos : Nat
  admits : Bool

def Cand.before (a b : Cand) : Bool :=
  a.readyAt < b.readyAt || (a.readyAt = b.readyAt && (a.prio < b.prio || (a.prio = b.prio && (a.ring < b.ring ||
    (a.ring = b.ring && a.id < b.id)))))

/-! ### Engine queues (08 R194, R195) -/

/-- Searches on an engine, those that merge shards apart. -/
def engineQueries (s : State) (die : Nat) : List Query := s.coma.queries.filter fun q => q.die == die && q.shards.isEmpty
def engineRunning (s : State) (die : Nat) : Nat := (engineQueries s die).countP (·.running)
def engineQueued (s : State) (die : Nat) : Nat := (engineQueries s die).countP fun q => !q.running

/-- Hardware query contexts of an engine (R194). -/
def engineContexts : Nat := 64

/-- Page selections of a sparse step on an engine until its slots are filled: one for each stream and KV head, on the die of the head's
first slot group (R200). -/
def selectionsOf (s : State) (t : Step) (die : Nat) : Nat :=
  let v := variantOf s t
  if t.kind ≠ 1 || t.filled || !v.sparse then 0
  else
    let groups := shapeOf (imageOf s t.handle) v
    t.streams.length * ((groups.map (·.kvHead)).eraseDups.countP fun kv => match groups.find? fun g => g.kvHead == kv with
      | some g => g.core / 16 == die
      | none => false)

/-- Contexts of an engine that run page selections: they take any that no tenant search holds (R195). -/
def selecting (s : State) (die : Nat) : Nat :=
  min ((s.weft.steps.map fun t => selectionsOf s t die).sum) (engineContexts - engineRunning s die)

/-- Contexts tenant searches may hold: those not reserved, less what page selections hold beyond the reserve. A selection takes a
reserved context while one is free (DESIGN CHOICE). -/
def tenantContexts (s : State) (die : Nat) : Nat := engineContexts - max (rf s Off.COMA_CTRL 8 6) (selecting s die)

def comaFenced (s : State) (die : Nat) : Bool := s.fault.fencedUnits.contains (8 * 4096 + die)

/-- The engines' queues take a search more for each die named (R195). -/
def queuesTake (s : State) (dies : List Nat) : Bool := dies.all fun d => decide (engineQueued s d + dies.count d ≤ 256)

/-- The engine's queue takes no further search. -/
def queueFull (s : State) (die : Nat) : Bool := !queuesTake s [die]

/-! ### Candidates (R141) -/

/-- A descriptor that waits keeps what its command has read of the host: its items, or the streams of its batch. -/
def noteDesc (s : State) (id : Nat) (f : Desc → Desc) : State :=
  { s with hostq := { s.hostq with fetched := s.hostq.fetched.map fun d => if d.id = id then f d else d } }

def noteItems (s : State) (d : Desc) (n : Nat) : State := noteDesc s d.id fun e => { e with items := n }
def noteEngines (s : State) (d : Desc) (dies : List Nat) : State := noteDesc s d.id fun e => { e with engines := dies }
def noteStreams (s : State) (d : Desc) (ns : List Nat) : State := noteDesc s d.id fun e => { e with streams := some ns }

/-- A batch whose stream list no command has read yet, as a candidate: its class is not known, so it stands with the lowest priority
value of the schedule entries that may be its own, and is let in where one of them would be (DESIGN CHOICE). -/
def unreadCand (s : State) (d : Desc) : Option Cand :=
  let img := imageOf s d.handle
  let layer := d.n 16 2
  let picks := (img.sched.filter fun e => e.op == 1 && e.lo ≤ layer && layer ≤ e.hi).map fun e =>
    (e.prio, pickVariant s img { ctx := d.ring, handle := d.handle, op := 1, layer := layer, cls := e.cls, classMask := d.n 18 2,
                                 batch := d.n 26 1 } e)
  match (picks.filter fun p => p.2 != .noVariant).map (·.1) with
  | [] => none
  | p :: ps => some { id := d.id, readyAt := d.readyAt, prio := ps.foldl min p, ring := d.ring, pos := d.pos,
                      admits := picks.any fun p => p.2 != .noVariant && p.2 != .wait }

/-- A fetched descriptor as a candidate; none where it takes no part in the order. Tests on what only the host knows, and no command of
the descriptor has read yet, are taken as passed: a descriptor that fails them completes or waits at its own command. -/
def candOf (s : State) (d : Desc) : Option Cand :=
  if d.ring = adminRing || !descReady s d then none
  else if d.kind = 1 || d.kind = 2 then
    let ns := if d.kind = 1 && d.n 26 1 > 1 then d.streams else some [d.stream]
    if (handleRefusal s d.handle).isSome then none
    else if ns.isNone then unreadCand s d
    else if (ns.getD []).any fun n => (streamRefusal s n).isSome then none
    else match weftReq s d ns with
      | none => none
      | some (r, e) => match pickVariant s (imageOf s d.handle) r e with
        | .noVariant => none
        | .wait => some { id := d.id, readyAt := d.readyAt, prio := e.prio, ring := d.ring, pos := d.pos, admits := false }
        | .take _ _ _ => some { id := d.id, readyAt := d.readyAt, prio := e.prio, ring := d.ring, pos := d.pos, admits := true }
  else if 3 ≤ d.kind && d.kind ≤ 7 then
    some { id := d.id, readyAt := d.readyAt, prio := 0x8000, ring := d.ring, pos := d.pos, admits := (portion s d d.items true).isSome && queuesTake s d.engines }
  else none

/-- A step of R143 whose next portion is due, as a candidate. -/
def portionCand (s : State) (t : Step) : Option Cand :=
  if t.left = 0 || t.stopped then none
  else some { id := t.desc.id, readyAt := t.desc.readyAt, prio := 0x8000, ring := t.desc.ring, pos := t.desc.pos,
              admits := (portion s t.desc t.left false).isSome }

/-- All candidates in the order of R141. -/
def candidates (s : State) : List Cand :=
  sortBy Cand.before (s.hostq.fetched.filterMap (candOf s) ++ s.weft.steps.filterMap (portionCand s))

/-- The candidate the dispatcher admits next (R141, R142). -/
def nextAdmit (s : State) : Option Nat :=
  if !dispatchOpen s then none
  else
    let cs : List Cand := match s.weft.guardId with
      | some g => (candidates s).filter fun c => c.id == g
      | none => candidates s
    (cs.find? fun c => c.admits).map fun c => c.id

/-- The dispatcher takes this descriptor next. -/
def mayAdmit (s : State) (id : Nat) : Bool := nextAdmit s == some id

/-- Admission of a descriptor: its energy is debited, it is stamped, and it is no guard any more (R140, R142). -/
def admitStep (s : State) (d : Desc) (energy : Nat) (t : Step) : State :=
  let t := { t with desc := { d with debit := energy }, kind := d.kind, ctx := d.ring, slice := (ctxOf s d.ring).slice, debit := energy,
                    keyGen := (keySlot s d.ring).gen, mapGen := s.map.gen, handle := d.handle }
  let s := addStep (debit (dropDesc s d.id) energy) t
  if s.weft.guardId = some d.id then { s with weft := { s.weft with guardId := none } } else s

/-- Admission counters of a weft step (R148). -/
def countAdmit (s : State) (degraded : Bool) : State :=
  { s with weft := { s.weft with admits := (s.weft.admits + 1) % 2 ^ 64,
                                 degrades := sat32 (s.weft.degrades + b2n degraded) } }

/-- The stamp of a portion that brings the admitted items of a step of a context to `upTo` (R432). -/
def stamp (s : State) (ctx upTo : Nat) : Portion :=
  { upTo := upTo, gen := s.map.gen, banks := (sliceOf s (ctxOf s ctx).slice).banks }

/-- A later portion of a step is admitted. -/
def admitPortion (s : State) (t : Step) (n cost : Nat) : State :=
  let s := debit s cost
  let s := putStep s { t with items := n, left := t.left - n, debit := t.debit + cost,
                              portions := t.portions ++ [stamp s t.ctx (((t.portions.getLast?).map (·.upTo)).getD 0 + n)],
                              desc := { t.desc with debit := t.desc.debit + cost } }
  if s.weft.guardId = some t.desc.id then { s with weft := { s.weft with guardId := none } } else s

/-! ### How a step ends -/

/-- A step completes. -/
def finish (s : State) (t : Step) (status : Nat) (flags : Nat := 0) (results : Bytes := []) : State :=
  complete (dropStep s t.desc.id) t.desc status flags results

/-! ### Prefix references (03 R74, R78) -/

def pfxOf (s : State) (n : Nat) : PfxRec := tget {} s.tier.pfx n
def setPfx (s : State) (n : Nat) (v : PfxRec) : State := { s with tier := { s.tier with pfx := tset {} s.tier.pfx n v } }

/-- Frames an entry names. -/
def entryFrames (e : BlockEntry) : List Nat :=
  if e.tier ≥ 2 then [] else e.pfn :: (if e.spill = 0xFFFFFFFF then [] else [e.spill])

/-- A reference on a record is dropped. At zero the record is FREED and its frames are released once every step admitted
before has ended (R78). -/
def pfxDrop (s : State) (n : Nat) : State :=
  let r := pfxOf s n
  if r.refs > 1 then setPfx s n { r with refs := r.refs - 1 }
  else retireFrames (setPfx s n {}) ((r.list.flatMap fun e => entryFrames e.2.2) ++ r.frames) (liveSteps s)

/-! ### The queues of the Plait store (09 R228) -/

/-- An update: an insert, a unique insert or a delete. -/
def POp.upd (o : POp) : Bool := match o.kind with
  | .search => false
  | .next => false
  | _ => true

/-- Two operations come of one source. -/
def PSrc.same (a b : PSrc) : Bool := match a, b with
  | .desc i _, .desc j _ => i == j
  | _, _ => a == b

def Plait.queueOf (p : Plait) (o : POp) : List POp := if o.upd then p.updateQ else p.searchQ

def Plait.push (p : Plait) (o : POp) : Plait :=
  if o.upd then { p with updateQ := p.updateQ ++ [o] } else { p with searchQ := p.searchQ ++ [o] }

/-- An operation joins its queue of 64, or waits: for room, or behind an operation of its source that waits. -/
def Plait.offer (p : Plait) (o : POp) : Plait :=
  if p.waiting.any (fun w => w.src.same o.src) || 64 ≤ (p.queueOf o).length then { p with waiting := p.waiting ++ [o] } else p.push o

/-- An operation, with the generation it is stamped with, is handed to the store. -/
def enqueueOp (s : State) (o : POp) : State := { s with plait := s.plait.offer o }

/-- Operations that wait take the room there is, the oldest first. -/
def settleOps (s : State) : State :=
  { s with plait := s.plait.waiting.foldl (fun p o => p.offer o) { s.plait with waiting := [] } }

/-- The operations of a descriptor leave the queues. -/
def dropOps (s : State) (id : Nat) : State :=
  let keep (o : POp) : Bool := match o.src with
    | .desc i _ => i != id
    | _ => true
  settleOps { s with plait := { s.plait with
                       searchQ := s.plait.searchQ.filter keep,
                       updateQ := s.plait.updateQ.filter keep,
                       waiting := s.plait.waiting.filter keep } }

/-! ### Blocks that a PUBLISH has given to records (03 R59, R77) -/

/-- The entries that live PUBLISH steps are going to mark in a stream: their records hold the blocks already. -/
def pendingMarks (s : State) (n : Nat) : List (Nat × BlockEntry) :=
  (s.weft.steps.filter fun t => t.kind == 4 && t.desc.n 16 1 == 0 && t.desc.stream == n).flatMap (·.newEntries)

/-- Mark a stream's entries as those of records: an entry that meanwhile names another page keeps what it holds. -/
def markEntries (es : Tbl BlockEntry) (ms : List (Nat × BlockEntry)) : Tbl BlockEntry :=
  ms.foldl (fun es m => match tfind es m.1 with
    | some e => if e.pfn = m.2.pfn && !e.shared then tset {} es m.1 { e with shared := true, recNo := m.2.recNo } else es
    | none => es) es

/-- A stream with its published blocks marked, as what gives up or moves its blocks sees it. -/
def Stream.view (s : State) (n : Nat) (x : Stream) : Stream := { x with entries := markEntries x.entries (pendingMarks s n) }

/-- The marks enter the page tables in one update (R59). -/
def commitMarks (s : State) (n : Nat) (ms : List (Nat × BlockEntry)) : State :=
  match streamAt s n with
  | some x => if ms.isEmpty then s else putStream s n { x with entries := markEntries x.entries ms }
  | none => s

/-- A record's Plait entry stands, or stood: an unpublish has met it. -/
def recordPosted (s : State) (n : Nat) : Bool :=
  (pfxOf s n).st != .live ||
    s.plait.banks.any fun b =>
      b.2.placed.any (fun e => e.kind == 0 && e.value.toNat % 2 ^ 32 == n) ||
        b.2.staged.any fun e => e.any fun e => e.kind == 0 && e.value.toNat % 2 ^ 32 == n

/-- A PUBLISH that is cut: blocks whose Plait entry was made stay published, the record of another is freed (DESIGN CHOICE: no rule
gives a cut PUBLISH's blocks; R236 undoes steps 2 and 3 where step 4 fails). -/
def cutPublish (s : State) (t : Step) : State :=
  if t.kind ≠ 4 || t.newEntries.isEmpty then s
  else
    let s' := commitMarks s t.desc.stream (t.newEntries.filter fun e => recordPosted s e.2.recNo)
    (((t.newEntries.map (·.2.recNo)).eraseDups).filter fun n => !recordPosted s n).foldl (fun s n =>
      releaseFrames (setPfx s n {}) (pfxOf s n).frames) s'

/-! ### Cutting a step -/

/-- A unit whose step is given up stops; a fenced one stays fenced. -/
def OUnit.release (u : OUnit) : OUnit :=
  { u with run := none, attendKind := false, jobs := [], st := if u.st = .fenced then .fenced else .idle }

/-- The wr_id of a message that no step waits for. -/
def noStep : Nat := 2 ^ 48

/-- The parity deltas of a step that does not commit are sent again, so that they cancel (16 R397). -/
def cancelDeltas (s : State) (t : Step) : State :=
  t.parity.foldl (fun s m => match sendMsg s t.ctx m.1 0x20 noStep m.2 with
    | some s' => count s' (ckey Off.FAULT_CNT_LO 7 0) 1
    | none => s) s

/-- Reserved frames that a step gives up: those it has written go to the scrub, the others to their pool (03 R65; 15 R376). -/
def giveBack (s : State) (t : Step) (ps : List Nat) : State :=
  let written := t.newEntries.flatMap fun e => entryFrames e.2
  releaseFrames (returnFrames s (ps.filter fun p => !written.contains p)) (ps.filter fun p => written.contains p)

/-- A step leaves the machine without a trace (R146): its reserved frames, raised references, merge slots, units and queries
are given up. -/
def cutStep (s : State) (t : Step) : State :=
  let id := t.desc.id
  let s := cutPublish (cancelDeltas (dropStep s id) t) t
  let s := giveBack s t t.reserve
  let s := t.raised.foldl (fun s e => pfxDrop s e.2) s
  let s := if t.kind = 1 then freeSlots s fun x => x.tag == t.desc.tag && x.attempt == t.desc.attempt else s
  dropOps { s with
            osier := { s.osier with
              units := s.osier.units.map fun (e : Nat × OUnit) => (e.1, if e.2.run = some id then e.2.release else e.2),
              regions := s.osier.regions.map fun e => (e.1, if e.2.run = some id then { e.2 with run := none } else e.2) },
            coma := { s.coma with queries := s.coma.queries.filter fun q => q.id != some id } } id

/-- A handoff whose stream is IN_DOUBT outlives a fence (03 R83). -/
def inDoubtStep (s : State) (t : Step) : Bool :=
  t.kind == 5 && t.desc.n 16 1 == 4 && (match streamAt s t.desc.stream with
    | some x => x.st == .inDoubt
    | none => false)

def Desc.target (d : Desc) : Nat := d.n 26 2 % 2 ^ 14
def Desc.targetPool (d : Desc) : Nat := d.n 19 1 % 16

/-- The record of the offer a HANDOFF makes for a stream (03 R80, R81 step 3). -/
def offerRec (s : State) (t : Step) (x : Stream) : HandoffRec :=
  { counter := (x.counter + 1) % 2 ^ 32, srcNode := nodeNum s, srcPool := (ctxOf s x.ctx).slice, dstNode := t.desc.target,
    dstPool := t.desc.targetPool }

/-- The offer of a handoff leaves: its stream is IN_DOUBT (03 R81 step 3). -/
def enterDoubt (s : State) (id : Nat) : State :=
  match findStep s id with
  | none => s
  | some t => match streamAt s t.desc.stream with
    | none => s
    | some x =>
      if x.st = .draining && x.handoffId == some id then
        setStream s t.desc.stream { x with st := .inDoubt, last := offerRec s t x, queries := 0 }
      else s

/-- The work requests of a step of which no packet has left are taken back. -/
def dropUnsent (s : State) (id : Nat) : State :=
  { s with qpe := { s.qpe with qps := s.qpe.qps.map fun (e : Nat × Qp) =>
                               let keep := e.2.sq.filter fun w => w.posted || w.wrId != id || w.sent != 0
                               (e.1, { e.2 with sq := keep,
                                                sqTail := (e.2.sqTail + (e.2.sq.length - keep.length) * 255) % 256 }) } }

/-- A DRAINING stream returns to OWNED at its counter, what has not been sent of its handoff is not sent, and its PAGE_MOVE
completes HANDOFF_REFUSED with a cause (03 R83). -/
def undrain (s : State) (t : Step) (cause : Nat) : State :=
  match streamAt s t.desc.stream with
  | none => s
  | some x => finish (setStream (dropUnsent s t.desc.id) t.desc.stream { x with st := .owned, handoffId := none }) t St.HANDOFF_REFUSED 0 (zeros 8 ++ putLe 2 cause)

def drainingStep (s : State) (t : Step) : Bool :=
  t.kind == 5 && t.desc.n 16 1 == 4 && (match streamAt s t.desc.stream with
    | some x => x.st == .draining
    | none => false)

/-- The node enters FENCED (16 R392): admitted steps are cut, fetched descriptors complete NODE_FENCED. -/
def nodeFence (s : State) : State :=
  if inSafe s then s
  else
    let s := { s with fault := { s.fault with st := .fenced } }
    let s := s.weft.steps.foldl (fun s t =>
      if inDoubtStep s t then s
      else if drainingStep s t then undrain s t St.NODE_FENCED
      else endFaulted (cutStep s t) t.desc) s
    s.hostq.fetched.foldl (fun s d => refuse s d St.NODE_FENCED) s

/-- A NODE fault (16 R392). -/
def nodeFault (s : State) (src : Nat) : State :=
  let s := faultReport s { source := src, flags := 8 }
  nodeFence { s with fault := { s.fault with cause := src } }

/-- A frame gives a STEP fault: the second in one allocation retires it, and a table that is full is a NODE fault (16 R388). -/
def frameFault (s : State) (pfn : Nat) : Bool × State :=
  match tfind s.tier.frames pfn with
  | none => (false, s)
  | some i =>
    let i := { i with faults := i.faults + 1 }
    if i.faults < 2 || i.retired then (i.retired, setFrameInfo s pfn i)
    else
      let s := setFrameInfo s pfn { i with retired := true }
      let s := count { s with fault := { s.fault with retired := s.fault.retired + 1 } } (ckey Off.FAULT_CNT_LO 3 0) 1
      (true, if s.fault.retired > 4096 then nodeFault s 0x32 else s)

/-- A step ends in a fault (R146): an ATTEND posts nothing, any other kind completes STEP_FAULT. -/
def endFault (s : State) (t : Step) : State :=
  if (findStep s t.desc.id).isNone then s
  else
    let s := cutStep s t
    if t.kind = 1 then endFaulted s t.desc
    else complete s t.desc St.STEP_FAULT 0 (if t.kind = 2 then appendOut s t.desc St.STEP_FAULT else [])

/-- Fields of a fault record that name a step. -/
def stepRecord (t : Step) (r : FaultRec) : FaultRec :=
  { r with ctx := t.ctx, stream := t.desc.stream, variant := t.variant,
           tag := if t.kind = 1 then t.desc.tag else 0, attempt := if t.kind = 1 then t.desc.attempt else 0 }

/-- A step fault of a source with its status and detail (16 R386 to R389). -/
def stepFault (s : State) (t : Step) (src status detail : Nat) (peer : Nat := 0) : State :=
  let r := stepRecord t { source := src, status := status, detail := detail, peer := peer }
  if 0x10 ≤ src && src ≤ 0x12 then
    let f := frameFault s detail
    endFault (faultReportAs f.2 1 { r with flags := b2n f.1 }) t
  else endFault (faultReportAs s 1 r) t

/-- A step that uses a unit when it is fenced faults in that cycle (16 R391). The spec gives its record no source: free. -/
def unitStepFault (s : State) (t : Step) (kind ix : Nat) : State :=
  let f := free64 s
  endFault (faultReportAs f.2 1 (stepRecord t { source := f.1.toNat % 256, unitKind := kind, unitIndex := ix,
                                                                             epoch := epochOf s kind ix })) t

/-! ### Fencing a unit (16 R391) -/

/-- Frames a step reads or writes. -/
def stepFrames (t : Step) : List Nat :=
  t.reserve ++ t.streams.flatMap fun x => x.entries.flatMap fun e => entryFrames e.2

def usesCore (s : State) (t : Step) (c : Nat) : Bool := (t.kind == 1 || t.kind == 2) && (coresOf (variantOf s t)).contains c

/-- The step uses the unit. -/
def usesUnit (s : State) (t : Step) (kind ix : Nat) : Bool :=
  match kind with
  | 1 => usesCore s t ix
  | 2 => (span (4 * ix) (4 * ix + 3)).any (usesCore s t)
  | 3 => (stepFrames t).any (fun p => isHbm p && stackOf p == ix) || (24 ≤ ix && bitOf t.stackSet (ix - 24))
  | 4 => (unitOf s ix).run == some t.desc.id
  | 5 => (stepFrames t).any fun p => isBoard p && channelOf p == ix
  | 8 => (t.kind == 1 && (variantOf s t).sparse && !t.filled && (span (16 * ix) (16 * ix + 15)).any (usesCore s t)) ||
      s.coma.queries.any fun q => q.id == some t.desc.id && q.die == ix
  | _ => false

/-- Mark the unit FENCED. A fenced port is DOWN. -/
def markFenced (s : State) (kind ix : Nat) : State :=
  match kind with
  | 1 => setCoreFenced s ix true
  | 2 => setCluster s ix .fenced
  | 3 => setStack s ix .fenced
  | 4 => setUnit s ix { unitOf s ix with st := .fenced }
  | 5 => setChannel s ix .fenced
  | 6 =>
    let s' := if portUp (portOf s ix) then raise s (Off.PORT_STATUS ix) 1 else s
    setPort s' ix { portOf s' ix with fenced := true, st := .down, lanes := 0, ackDue := 0,
                                      held := (portOf s' ix).held ++ (portOf s' ix).replay.filterMap (fun f => f.frame), replay := [] }
  | _ => { s with fault := { s.fault with fencedUnits := s.fault.fencedUnits ++ [kind * 4096 + ix] } }

def unitFenced (s : State) (kind ix : Nat) : Bool :=
  match kind with
  | 1 => coreFenced s ix
  | 2 => clusterSt s ix == .fenced
  | 3 => stackSt s ix == .fenced
  | 4 => (unitOf s ix).st == .fenced
  | 5 => channelSt s ix == .fenced
  | 6 => (portOf s ix).fenced
  | _ => s.fault.fencedUnits.contains (kind * 4096 + ix)

/-- Fence a unit: its steps fault, each with a record (16 R391). -/
def fenceUnitNow (s : State) (kind ix : Nat) : State :=
  if unitFenced s kind ix then s
  else
    let users := s.weft.steps.filter fun t => usesUnit s t kind ix
    users.foldl (fun s t => unitStepFault s t kind ix) (markFenced s kind ix)

/-- A UNIT fault: record, and the unit fenced (16 R386, R391). -/
def unitFault (s : State) (src kind ix : Nat) (r : FaultRec := {}) : State :=
  fenceUnitNow (faultReport s { r with source := src, unitKind := kind, unitIndex := ix, epoch := epochOf s kind ix, flags := r.flags ||| 4 }) kind ix

/-! ### FENCED_SAFE (16 R412) -/

/-- The always-on domain's sequence, in its order. The recovery controller state that the SEAL entry carries is free. -/
def enterSafe (s : State) (src : Nat) : State :=
  if inSafe s then s
  else
    let s := faultReport s { source := src, flags := 8 }
    let s := { s with fault := { s.fault with st := .fencedSafe, cause := src }, boot := { s.boot with st := .fencedSafe },
                      ports := s.ports.map fun (e : Nat × Port) => (e.1, { e.2 with st := .down, lanes := 0 }) }
    let s := if s.pins.perst then emit s .errFatal else s
    let s := { s with sec := { s.sec with keys := s.sec.keys.map fun (e : Nat × KeySlot) => (e.1, { e.2 with key := none }) } }
    let s := { s with svc := { s.svc with life := { s.svc.life with seals := s.svc.life.seals + 1,
                                                                    seals42 := s.svc.life.seals42 + b2n (src == 0x42) } } }
    let f := free64 s
    svcPush f.2 0x0008 2 (putLe 1 src ++ putLe 1 s.therm.band ++ putLe 2 s.therm.hottest ++ putLe 4 f.1.toNat ++
      putLe 4 (s.fault.seq + 2 ^ 32 - 1)) false

end Sys2Proof.Machine
end

