-- ==== Sys2Proof/Machine/Ecc.lean ====
section
/-! DEFINITION. What a memory controller's ECC leaves behind when a command reads its frames: event registers, counters, totals, and
the fence of a stack that loses 16 reads within a second (07 R168, R193; 16 R386, R387; 18 R460). -/
namespace Sys2Proof.Machine
open Sys2Proof

/-- CLK_CTL cycles of one second. -/
def secondCycles : Nat := 800000000

/-- A read of a stack that could not be corrected: the sixteenth within a second is a UNIT fault of the stack, with data_lost. -/
def lostRead (s : State) (i : Nat) : State :=
  let now := s.clk.counter
  let ts := now :: (tget [] s.mem.lostAt i).filter fun t => now < t + secondCycles
  if ts.length < 16 then { s with mem := { s.mem with lostAt := tset [] s.mem.lostAt i ts } }
  else unitFault { s with mem := { s.mem with lostAt := tset [] s.mem.lostAt i [] } } 0x22 3 i { flags := 2 }

/-- A correction is counted and not recorded (R390). -/
def correctedRead (s : State) (kind ix : Nat) (onDie : Bool) : State :=
  total (faultReport s { source := 0x01, unitKind := kind, unitIndex := ix }) fun t =>
    if onDie then { t with onDie := t.onDie + 1 } else { t with corrections := t.corrections + 1 }

/-- An error that a stack's on-die ECC reports. -/
def onDieEvent (s : State) (i pfn : Nat) : State :=
  let s := { s with mem := { s.mem with eccPfn := tset 0xFFFFFFFF s.mem.eccPfn i pfn } }
  correctedRead (raise (countSat s (Off.HBM_ODECC_CNT i) 1) (Off.HBM_ECC_STATUS i) 4) 3 i true

/-- One ECC event. A COMPUTE region has on-die ECC alone, and what it reports is corrected (07 R168). -/
def memEvent (s : State) (e : Nat × Bool) : State :=
  let pfn := e.1
  if isHbm pfn then
    let i := stackOf pfn
    if inCompute s pfn then onDieEvent s i pfn
    else
      let s := { s with mem := { s.mem with eccPfn := tset 0xFFFFFFFF s.mem.eccPfn i pfn } }
      if e.2 then lostRead (raise s (Off.HBM_ECC_STATUS i) 2) i
      else correctedRead (raise (countSat s (Off.HBM_SBECC_CNT i) 1) (Off.HBM_ECC_STATUS i) 1) 3 i false
  else
    let n := channelOf pfn
    let s := { s with mem := { s.mem with eccPfn := tset 0xFFFFFFFF s.mem.eccPfn (32 + n) pfn } }
    if e.2 then raise s (Off.DDR_ECC_STATUS n) 2
    else correctedRead (raise (countSat s (Off.DDR_ECC_CNT n) 1) (Off.DDR_ECC_STATUS n) 1) 5 n false

/-- A command reads frames: their stacks wake (14 R356), and their events are recorded. -/
def memEvents (s : State) (frames : List Nat) (ecc : MemObs) : State :=
  (ecc.filter fun e => frames.contains e.1).foldl memEvent (frames.foldl wakeFrame s)

/-- The first of these frames whose read could not be corrected. -/
def lostFrame (s : State) (frames : List Nat) (ecc : MemObs) : Option Nat :=
  frames.find? fun p => !inCompute s p && ecc.any fun e => e.1 == p && e.2

end Sys2Proof.Machine
end

