-- ==== Sys2Proof/Machine/Hostq.lean ====
section
/-! DEFINITION. Host rings: doorbell scan and sweep, descriptor fetch, FENCE, ring states, moderation, function resets and power
states (10 R245 to R266). -/
namespace Sys2Proof.Machine
open Sys2Proof

/-! ### Host accesses -/

/-- The ring number of a descriptor whose ring was taken away by a function reset: nothing is written for it. -/
def noRing : Nat := 5000

/-- A posted write of a descriptor's output, with the requester ID of its ring's function (R241, R264). Only ATTEND outputs and Coma
result entries carry relaxed ordering (R242). -/
def hostOut (s : State) (d : Desc) (addr : Nat) (data : Bytes) (relaxed : Bool := false) : State :=
  if d.ring = noRing || data.isEmpty then s else emitAs s (ringFn s d.ring) (.hostWrite (ringFn s d.ring) addr data relaxed)

/-- The node reaches the host with PF0's requester ID, and its window is set up (R265, 17 R425). -/
def hostOpen (s : State) : Bool := setUp s && !inSafe s && !s.hostq.pf0D3

/-- An event of HOSTQ_STATUS that names a ring. -/
def hostqEvent (s : State) (flags ring : Nat) : State := raise s Off.HOSTQ_STATUS flags [(20, 12, ring)]

def dbBase (s : State) : Nat := rpair s Off.HOSTQ_DB_BASE_LO / 4096 * 4096

/-- Rings that are ACTIVE, context rings in ascending number. -/
def activeRings (s : State) : List Nat :=
  (s.hostq.rings.filter fun e => e.2.st == .active && e.1 != adminRing).map (·.1)

/-- Record the tail and completion head that a doorbell word holds (R250). -/
def takeDoorbell (s : State) (r : Nat) (w : Bytes) : State :=
  let g := ringOf s r
  let n := ringSize s r
  if g.st ≠ .active then s else setRing s r { g with sqTail := leAt w 0 2 % n, cqHead := leAt w 4 2 % n }

/-- Read the doorbell word of a context ring. -/
def readDoorbell (hv : AddrView) (s : State) (r : Nat) : State :=
  let s := count s (ckey Off.HOSTQ_CNT_LO 3 0) 1
  match hostRead hv (dbBase s + 0x1000 + 8 * r) 8 with
  | some w => takeDoorbell s r w
  | none => hostqEvent s 2 r

/-! ### Scan (R252 to R256) -/

def scanMax (s : State) : Nat := min 50000 (max 250 (rf s Off.HOSTQ_SCAN_MAX 0 16))
def scanMin (s : State) : Nat := min (scanMax s) (min 50000 (max 250 (rf s Off.HOSTQ_SCAN_MIN 0 16)))

/-- One Swap of summary word `i`: the rings it marks, whether it returned a bit, and whether the scan goes on in polling mode. -/
def swapWord (s : State) (i : Nat) (r : SwapReply) : List Nat × Bool × State :=
  let s := count s (ckey Off.HOSTQ_CNT_LO 2 0) 1
  match r with
  | .value v => ((maskBits 64 v.toNat).map (64 * i + ·), v != 0, s)
  | .failed => ((List.range 64).map (64 * i + ·), false, hostqEvent s 2 (64 * i))
  | .unsupported =>
    let s := regPut s Off.HOSTQ_CTRL (putFld (regWord s Off.HOSTQ_CTRL) 1 1 0)
    (activeRings s, false, hostqEvent s 4 (64 * i))

/-- Swap every non-zero word of the summary, replies in order. Once a Swap is unsupported no further one is issued (R256). -/
def swapAll (s : State) : List Nat → List SwapReply → List Nat × Bool × State
  | [], _ => ([], false, s)
  | i :: is, rs =>
    let r := swapWord s i (rs.headD .failed)
    if rbit r.2.2 Off.HOSTQ_CTRL 1 then
      let t := swapAll r.2.2 is rs.tail
      (r.1 ++ t.1, r.2.1 || t.2.1, t.2.2)
    else r

/-- A ring has descriptors left to fetch. -/
def hasWork (s : State) (r : Nat) : Bool :=
  let g := ringOf s r
  g.st == .active && g.sqTail != g.fetchHead

/-- The next scan interval (R254). -/
def setInterval (s : State) (found : Bool) : State :=
  let last := if s.hostq.interval = 0 then scanMin s else s.hostq.interval
  let i := if found then scanMin s else min (scanMax s) (max (scanMin s) (2 * last))
  let s := { s with hostq := { s.hostq with interval := i } }
  if found then s else count s (ckey Off.HOSTQ_CNT_LO 1 0) 1

def doorbellScan (hv : AddrView) (swaps : List SwapReply) (s : State) : State :=
  if !hostOpen s || !rbit s Off.HOSTQ_CTRL 0 then s
  else
    let s := count s (ckey Off.HOSTQ_CNT_LO 0 0) 1
    match hostRead hv (dbBase s) 0x208 with
    | none => setInterval (hostqEvent s 2 0) false
    | some area =>
      let m : List Nat × Bool × State :=
        if rbit s Off.HOSTQ_CTRL 1 then swapAll s ((List.range 64).filter fun i => leAt area (8 * i) 8 != 0) swaps
        else (activeRings s, false, s)
      let s := takeDoorbell m.2.2 adminRing (slice area 0x200 8)
      let s := ((List.range 4096).filter m.1.contains).foldl (readDoorbell hv) s
      setInterval s (m.2.1 || hasWork s adminRing || (activeRings s).any (hasWork s))

/-- DOORBELL_SCAN (R252, R254, R256). -/
def execDoorbellScan (hv : HostView) (swaps : List SwapReply) (s : State) : Host.Outcome State Fault Refusal :=
  whileAlive s (doorbellScan (fnView hv 0) swaps s)

def doorbellSweep (hv : AddrView) (s : State) : State :=
  if !hostOpen s || !rbit s Off.HOSTQ_CTRL 0 || rf s Off.HOSTQ_SWEEP 0 16 = 0 then s
  else
    let s := count s (ckey Off.HOSTQ_CNT_LO 3 0) (b2n ((ringOf s adminRing).st == .active))
    let s := match hostRead hv (dbBase s + 0x200) 8 with
      | some w => takeDoorbell s adminRing w
      | none => if (ringOf s adminRing).st = .active then hostqEvent s 2 0 else s
    (activeRings s).foldl (readDoorbell hv) s

/-- DOORBELL_SWEEP (R255). -/
def execDoorbellSweep (hv : HostView) (s : State) : Host.Outcome State Fault Refusal := whileAlive s (doorbellSweep (fnView hv 0) s)

/-! ### Fetch (R246 to R248, R253, R257, R261) -/

def isPrivKind (k : Nat) : Bool := 0x40 ≤ k && k ≤ 0x46
def isKind (k : Nat) : Bool := (1 ≤ k && k ≤ 8) || isPrivKind k

/-- A fetched descriptor that no FENCE holds back: those that can never run complete at once (R246, R257, 16 R392). -/
def settle (s : State) (d : Desc) : State :=
  if !isKind d.kind then refuse s d St.KIND_INVALID
  else if s.fault.st = .fenced then refuse s d St.NODE_FENCED
  else if d.ring = adminRing then
    (if d.kind = 8 || isPrivKind d.kind then s else refuse s d St.CONTEXT_ABSENT)
  else if isPrivKind d.kind then hostqEvent (guardRefuse (refuse s d St.PRIVILEGE) 2 d.ring 0) 8 d.ring
  else if (ctxOf s d.ring).st ≠ .active then refuse s d St.CONTEXT_ABSENT
  else s

def sqBase (s : State) (r : Nat) : Nat :=
  (if r = adminRing then rpair s Off.HOSTQ_ADMIN_SQ_LO
    else rfs s Off.HOSTQ_RING_SQ_LO r 0 32 + 2 ^ 32 * rfs s Off.HOSTQ_RING_SQ_HI r 0 32) / 4096 * 4096

/-- Free records of the completion ring that no fetched descriptor has reserved (R248); equal indices mean an empty ring. -/
def freeRecords (s : State) (r : Nat) : Nat :=
  let g := ringOf s r
  let n := ringSize s r
  n - 1 - (g.cqTail + n - g.cqHead) % n - g.reserved

/-- Fetch up to `k` descriptors of a ring. -/
def fetchRing (hv : AddrView) (r : Nat) : Nat → State → State
  | 0, s => s
  | k + 1, s =>
    let g := ringOf s r
    if !hasWork s r then s
    else if freeRecords s r = 0 then count s (ckey Off.HOSTQ_CNT_LO 7 0) 1
    else match hostRead hv (sqBase s r + 64 * g.fetchHead) 64 with
      | none => hostqEvent (setRing s r { g with st := .error }) 3 r
      | some bs =>
        let d : Desc := { id := s.hostq.nextId, ring := r, pos := g.fetchHead, bytes := bs, readyAt := s.clk.counter }
        let s := setRing s r { g with fetchHead := (g.fetchHead + 1) % ringSize s r, reserved := g.reserved + 1 }
        let s := { s with hostq := { s.hostq with nextId := s.hostq.nextId + 1, fetched := s.hostq.fetched ++ [d] } }
        let s := count s (ckey Off.HOSTQ_CNT_LO 4 0) 1
        fetchRing hv r k (if behindFence s d then s else settle s d)

/-- Rings with work, in the order of R253. -/
def serveOrder (s : State) : List Nat :=
  let rs := (activeRings s).filter fun r => hasWork s r && !(ctxOf s r).quiesced && (ctxOf s r).st != .removing
  rs.filter (· > s.hostq.lastFirst) ++ rs.filter (· ≤ s.hostq.lastFirst)

def descriptorFetch (hv : HostView) (s : State) : State :=
  if !hostOpen s then s
  else
    let burst := max 1 (rf s Off.HOSTQ_FETCH_BURST 0 8)
    let s := fetchRing (fnView hv 0) adminRing burst s
    let rs := serveOrder s
    let s := rs.foldl (fun s r => fetchRing (fnView hv (ringFn s r)) r burst s) s
    match rs with
    | r :: _ => { s with hostq := { s.hostq with lastFirst := r } }
    | [] => s

/-- DESCRIPTOR_FETCH (R246 to R248, R253, R257, R261). -/
def execDescriptorFetch (hv : HostView) (s : State) : Host.Outcome State Fault Refusal := whileAlive s (descriptorFetch hv s)

/-! ### FENCE (R259) -/

/-- Every descriptor of the ring before the FENCE has ended. -/
def fenceMet (s : State) (d : Desc) : Bool :=
  !(s.hostq.fetched.any fun e => e.ring == d.ring && e.id < d.id) &&
    !(s.weft.steps.any fun t => t.desc.ring == d.ring && t.desc.id < d.id)

/-- Descriptors a FENCE held back become ready, or complete at once, up to the next FENCE. -/
def releaseBehind (s : State) (d : Desc) : State :=
  let s := { s with hostq := { s.hostq with fetched := s.hostq.fetched.map fun (e : Desc) =>
                                            if e.ring = d.ring then { e with readyAt := s.clk.counter } else e } }
  (s.hostq.fetched.filter fun (e : Desc) => e.ring == d.ring).foldl (fun s e => if behindFence s e then s else settle s e) s

def fence (id : Nat) (s : State) : State :=
  match findDesc s id with
  | none => s
  | some d =>
    if d.kind ≠ 8 || !fenceMet s d || (ctxOf s d.ring).quiesced then s
    else
      let n := s.hostq.faulted.countP (·.1 == d.ring)
      let s := { s with hostq := { s.hostq with faulted := s.hostq.faulted.filter (·.1 != d.ring) } }
      releaseBehind (refuse s d St.OK (if n = 0 then 0 else 8) (putLe 4 n)) d

/-- FENCE (R259, R262). -/
def execFence (id : Nat) (s : State) : Host.Outcome State Fault Refusal := whileAlive s (fence id s)

/-! ### Ring states (R245, R264, R266) -/

/-- A DISABLED ring becomes ACTIVE, its indices and phase as on a first pass; its function's memory is written again: PF0 enables a
ring of a VF once the VF is back in D0, for which there is no command (DESIGN CHOICE). -/
def startRing (s : State) (r : Nat) : State :=
  if (ringOf s r).st ≠ .disabled then s
  else
    let s := setRing s r { st := .active }
    { s with hostq := { s.hostq with fnStopped := s.hostq.fnStopped.filter (· != ringFn s r) } }

/-- A ring starts to drain: its descriptors not admitted complete CONTEXT_ABSENT (R264). -/
def drainRing (s : State) (r : Nat) : State :=
  let g := ringOf s r
  if g.st ≠ .active && g.st ≠ .error then s
  else
    let s := setRing s r { g with st := .draining }
    (s.hostq.fetched.filter fun d => d.ring == r).foldl (fun s d => refuse s d St.CONTEXT_ABSENT) s

/-- The ring that a master's copy of HOSTQ_RING_SEL selects. -/
def ringSel (s : State) (m : Master) : Nat := selNum s m Off.HOSTQ_RING_SEL

/-- Fields of HOSTQ_RING_CFG that a write reaches: all in DISABLED, else the enable alone (R266). -/
def ringCfgPuts (s : State) (m : Master) (cfg en : Nat) : List (Nat × Nat × Nat) :=
  if (ringOf s (ringSel s m)).st = .disabled then [(0, 4, fld cfg 0 4), (4, 6, fld cfg 4 6), (10, 11, fld cfg 10 11), (31, 1, en)]
  else [(31, 1, en)]

def ringEnable (m : Master) (cfg : Nat) (s : State) : State :=
  regCmd s m Off.HOSTQ_RING_CFG (ringCfgPuts s m cfg 1) fun t => startRing t (ringSel s m)

/-- RING_ENABLE (R245, R266). -/
def execRingEnable (m : Master) (cfg : Nat) (s : State) : Host.Outcome State Fault Refusal := .next (ringEnable m cfg s)

def ringDisable (m : Master) (cfg : Nat) (s : State) : State :=
  regCmd s m Off.HOSTQ_RING_CFG (ringCfgPuts s m cfg 0) fun t => drainRing t (ringSel s m)

/-- RING_DISABLE (R264, R266). -/
def execRingDisable (m : Master) (cfg : Nat) (s : State) : Host.Outcome State Fault Refusal := .next (ringDisable m cfg s)

def ringDisabled (r : Nat) (s : State) : State :=
  let g := ringOf s r
  if g.st = .draining && g.reserved = 0 then setRing s r { g with st := .disabled } else s

/-- RING_DISABLED (R248, R264). -/
def execRingDisabled (r : Nat) (s : State) : Host.Outcome State Fault Refusal := whileAlive s (ringDisabled r s)

/-! ### Vectors (R264) -/

/-- The function whose run holds a pool vector. -/
def fnOfVec (s : State) (pv : Nat) : Option Nat :=
  (List.range 64).find? fun f => vecFirst s f ≤ pv && pv < vecFirst s f + vecCount s f

def msixTimer (pv : Nat) (s : State) : State :=
  match fnOfVec s pv with
  | none => s
  | some f => if (vecGet s pv).unsignalled = 0 then s else fireVec s f pv

/-- MSIX_MODERATION_TIMER (R264). -/
def execMsixModerationTimer (vec : Nat) (s : State) : Host.Outcome State Fault Refusal := whileAlive s (msixTimer vec s)

/-- The MSI-X Table Size that a function reports: the length of its run minus one (R244). -/
def msixTableSize (s : State) (fn : Nat) : Nat := vecCount s fn - 1

/-- What a word of a function's MSI-X window holds: the table of 16 bytes for each vector at 0x0000, the PBA at 0x8000 (R243). -/
def msixWindow (s : State) (fn off : Nat) : Nat :=
  let v := vecGet s (vecFirst s fn + off / 16)
  if 0x8000 ≤ off then ((List.range 32).map fun i => b2n ((off - 0x8000) / 4 * 32 + i < vecCount s fn &&
      (vecGet s (vecFirst s fn + ((off - 0x8000) / 4 * 32 + i))).pba) * 2 ^ i).sum
  else if off / 16 ≥ vecCount s fn then 0
  else match off / 4 % 4 with
    | 0 => v.addr % 2 ^ 32
    | 1 => v.addr / 2 ^ 32 % 2 ^ 32
    | 2 => v.data
    | _ => b2n v.masked

/-- A function shows itself: only while VFs are enabled is there one but PF0 (DEDUCED: no command brings VF Enable itself). -/
def seenFn (s : State) (fn : Nat) : State := if fn = 0 then s else { s with hostq := { s.hostq with vfsOn := true } }

/-- The host writes a vector's table entry; a vector unmasked with its PBA bit set sends its message. -/
def msixUnmask (fn : Nat) (e : MsixEntry) (s : State) : State :=
  if e.vec > msixTableSize s fn || vecCount s fn = 0 then s
  else
    let pv := vecFirst s fn + e.vec
    let v := vecGet s pv
    let s := vecPut (seenFn s fn) pv { v with addr := e.addr, data := e.data, masked := e.masked, pba := v.pba && e.masked }
    if v.pba && !e.masked then fireVec s fn pv else s

/-- MSIX_UNMASK (R243, R264): the write of a table entry, the mask bit with it. -/
def execMsixUnmask (fn : Nat) (e : MsixEntry) (s : State) : Host.Outcome State Fault Refusal := whileAlive s (msixUnmask fn e s)

/-! ### Function resets and power states (R264, R265) -/

/-- A function's rings are disabled at once and nothing more is written into its memory; its admitted steps run on. -/
def stopFn (f : Nat) (s : State) : State :=
  let mine := ((s.hostq.rings.map (·.1)).filter fun r => r != adminRing && ringFn s r == f)
  let s := mine.foldl (fun s r =>
    let s := setRing s r {}
    regPut s (rkey Off.HOSTQ_RING_CFG r) (putFld (regWord s (rkey Off.HOSTQ_RING_CFG r)) 31 1 0)) s
  let dead := s.hostq.fetched.filter fun d => mine.contains d.ring
  let s := dead.foldl (fun s d => refuse s d St.CONTEXT_ABSENT) s
  { s with
    hostq := { s.hostq with
      fnStopped := if s.hostq.fnStopped.contains f then s.hostq.fnStopped else s.hostq.fnStopped ++ [f],
      faulted := s.hostq.faulted.filter fun e => !mine.contains e.1,
      vecs := s.hostq.vecs.filter fun e => !(vecFirst s f ≤ e.1 && e.1 < vecFirst s f + vecCount s f) },
    weft := { s.weft with steps := s.weft.steps.map fun (t : Step) =>
                          if mine.contains t.desc.ring then { t with desc := { t.desc with ring := noRing } } else t } }

def vfFlr (f : Nat) (s : State) : State := if f = 0 then s else stopFn f (seenFn s f)

/-- VF_FLR (17 R421, R264). -/
def execVfFlr (f : Nat) (s : State) : Host.Outcome State Fault Refusal := whileAlive s (vfFlr f s)

def vfD3hot (f : Nat) (s : State) : State := vfFlr f s

/-- A function keeps its state on its way from D3hot to D0: No_Soft_Reset is 1 at PF0 and 0 at the VFs (R265). -/
def noSoftReset (fn : Nat) : Bool := fn == 0

/-- VF_D3HOT: handled as an FLR of that VF (R265). -/
def execVfD3hot (f : Nat) (s : State) : Host.Outcome State Fault Refusal := whileAlive s (vfD3hot f s)

def pf0D3hot (s : State) : State := { s with hostq := { s.hostq with pf0D3 := true } }

/-- PF0_D3HOT (R265). -/
def execPf0D3hot (s : State) : Host.Outcome State Fault Refusal := whileAlive s (pf0D3hot s)

def pf0D0 (s : State) : State :=
  if !s.hostq.pf0D3 then s
  else
    let held := s.hostq.held
    let outs := s.hostq.heldOut
    let s := { s with hostq := { s.hostq with pf0D3 := false, held := [], heldOut := [], interval := scanMin s } }
    let s := held.foldl (fun s e => if (ringOf s e.1).st = .disabled then s else postRecord s e.1 e.2.2 e.2.1) s
    { s with out := s.out ++ outs }

/-- PF0_D0 (R265). -/
def execPf0D0 (s : State) : Host.Outcome State Fault Refusal := whileAlive s (pf0D0 s)

end Sys2Proof.Machine
end

