-- ==== Sys2Proof/Machine/AttnMath.lean ====
section
/-! DEFINITION. The arithmetic of attention: partials and their merge (04 R103 to R107), scores, weights and accumulation of one
core (R91 to R98), query rows (02 R41) and sketch projection (08 R197). -/
namespace Sys2Proof.Machine
open Sys2Proof

/-! ### Partials (04 R98, R103 to R107) -/

/-- The empty partial (R98). -/
def emptyPart (d : Nat) : Partial := { o := List.replicate d 0 }

/-- A poisoned partial keeps its counts and flags; m, l and every element of o are the canonical NaN (R97, R103). -/
def Partial.poison (p : Partial) : Partial :=
  { p with m := nan32, l := nan32, o := p.o.map fun _ => nan32, nan := true, empty := false }

def posInf32 : Word := 0x7F800000#32

/-- The running maximum poisons a merge (R103). -/
def poisons (m : Word) : Bool := isNan32 m || m == posInf32

/-- The merge of two partials (R103); the flags that report the variant are or-ed (R107). -/
def Partial.merge (a b : Partial) : Partial :=
  let flags (p : Partial) : Partial := { p with p8l := a.p8l || b.p8l, sparse := a.sparse || b.sparse, bf16 := a.bf16 || b.bf16 }
  let covered := sat32 (a.covered + b.covered)
  if poisons a.m || poisons b.m then flags { a with covered := covered }.poison
  else if a.m = negInf32 then flags b
  else if b.m = negInf32 then flags a
  else
    let m := max32 a.m b.m
    let fa := exp2_32 (mul32 (sub32 a.m m) log2e32)
    let fb := exp2_32 (mul32 (sub32 b.m m) log2e32)
    flags { m := m, l := add32 (mul32 fa a.l) (mul32 fb b.l),
            o := a.o.zipWith (fun x y => add32 (mul32 fa x) (mul32 fb y)) b.o, covered := covered, empty := false }

/-- One level of the tree of R105: neighbours merge, an unpaired last input passes up unchanged. -/
def mergeLevel : List Partial → List Partial
  | a :: b :: r => a.merge b :: mergeLevel r
  | r => r

/-- The fixed tree over an input list (R105). -/
def mergeTree : Nat → List Partial → Partial
  | _, [] => {}
  | _, [p] => p
  | 0, p :: _ => p
  | n + 1, ps => mergeTree n (mergeLevel ps)

/-- The partial of an input list, in its plan's order (R105). -/
def mergeAll (ps : List Partial) : Partial := mergeTree ps.length ps

/-- One level of the tree over which inputs are there: the outputs that exist, and how many of its merges have both children. -/
def levelRuns : List Bool → List Bool × Nat
  | a :: b :: r => let n := levelRuns r; ((a && b) :: n.1, n.2 + b2n (a && b))
  | r => (r, 0)

/-- Internal merges whose children exist, from which inputs are there (R105). -/
def treeRuns : Nat → List Bool → Nat
  | 0, _ => 0
  | n + 1, ps => let l := levelRuns ps; l.2 + treeRuns n l.1

/-- An o vector narrowed to BF16, as a record carries it, and widened again (02 R41 item 5). -/
def Partial.narrow (p : Partial) : Partial :=
  { p with bf16 := true, o := p.o.map fun w => BitVec.ofNat 32 (Machine.bf16.encode {} (f32 w) * 65536) }

/-- Bytes of a record before its padding (R107). -/
def recordLen (d : Nat) (b : Bool) : Nat := 32 + if b then 2 * d else 4 * d

/-- A partial record (R107). -/
def Partial.record (p : Partial) (tag attempt head d src slot level : Nat) : Bytes :=
  let hd := putLe 4 p.m.toNat ++ putLe 4 p.l.toNat ++ putLe 4 p.covered ++ putLe 4 tag ++ putLe 2 (head % 1024) ++
    putLe 2 (d % 1024) ++ putLe 2 (src % 2 ^ 14) ++
    putLe 1 (b2n p.empty + 2 * b2n p.nan + 4 * b2n p.bf16 + 8 * b2n p.p8l + 16 * b2n p.sparse) ++ putLe 1 attempt ++
    putLe 2 slot ++ putLe 1 level ++ putLe 1 0
  let o := fit (recordLen d p.bf16 - 32) (p.o.flatMap fun w => if p.bf16 then putLe 2 (w.toNat / 65536) else putLe 4 w.toNat)
  fit (cdiv (recordLen d p.bf16) 32 * 32) (hd ++ putLe 4 (crc32c (hd ++ o)) ++ o)

/-- The fields of an arriving record (R107). -/
structure RecHdr where
  tag : Nat
  attempt : Nat
  head : Nat
  d : Nat
  src : Nat
  slot : Nat
  level : Nat
  lengthOk : Bool
  crcOk : Bool
  flagsOk : Bool
  part : Partial
deriving DecidableEq, Repr

def parseRecord (r : Bytes) : RecHdr :=
  let d := leAt r 18 2 % 1024
  let f := leAt r 22 1
  let wide := !bitOf f 2
  let o := (List.range d).map fun i =>
    if wide then BitVec.ofNat 32 (leAt r (32 + 4 * i) 4) else BitVec.ofNat 32 (leAt r (32 + 2 * i) 2 * 65536)
  let m := BitVec.ofNat 32 (leAt r 0 4)
  { tag := leAt r 12 4, attempt := leAt r 23 1, head := leAt r 16 2 % 1024, d := d, src := leAt r 20 2 % 2 ^ 14,
    slot := leAt r 24 2, level := leAt r 26 1,
    lengthOk := r.length == cdiv (recordLen d (!wide)) 32 * 32,
    crcOk := leAt r 28 4 == crc32c (r.take 28 ++ slice r 32 (recordLen d (!wide) - 32)),
    flagsOk := bitOf f 0 == (m == negInf32) && bitOf f 1 == isNan32 m,
    part := { m := m, l := BitVec.ofNat 32 (leAt r 4 4), covered := leAt r 8 4, o := o, empty := bitOf f 0, nan := bitOf f 1,
              bf16 := !wide, p8l := bitOf f 3, sparse := bitOf f 4 } }

/-- A final result in an output format 0 FP32, 1 BF16, 2 FP16 (R106). -/
def Partial.normalised (p : Partial) (fmt : Nat) : Bytes :=
  let one (w : Word) : Nat := if p.empty then 0 else elemBits fmt {} (f32 (div32 w p.l))
  packElems fmt (p.o.map one)

/-! ### One core (04 R90 to R98) -/

/-- One position of a block: its offset in the block, K row and V row. -/
structure PosRow where
  off : Nat
  k : KvRow
  v : KvRow

/-- What a step computes with: the geometry, the variant, and the committed range (R92). -/
structure CoreJob where
  geo : Geometry
  var : Variant
  limit : Nat

/-- A position that a row may not see (R92). -/
def CoreJob.masked (c : CoreJob) (p j : Nat) : Bool :=
  j ≥ c.limit || (c.var.causal && j > p) || (c.var.window > 0 && j + c.var.window ≤ p)

/-- Sums of the products of each group of 4, exact, each rounded and accumulated (R91). -/
def dotRows (acc : Word) : List Num → List Num → Word
  | a0 :: a1 :: a2 :: a3 :: as, b0 :: b1 :: b2 :: b3 :: bs =>
    dotRows (add32 acc (rn (Num.sum [a0.mul b0, a1.mul b1, a2.mul b2, a3.mul b3]))) as bs
  | _, _ => acc

/-- The score of a row at a position (R91). -/
def CoreJob.score (c : CoreJob) (q : List Num) (r : PosRow) : Word :=
  let sc := bitOf c.geo.modes 0
  mul32 (dotRows 0 q ((List.range c.geo.d).map (rowVal c.geo.kFmt sc r.k))) (BitVec.ofNat 32 c.var.scale)

/-- A weight: its code in a P8L variant, its value otherwise (R94, R95). -/
inductive Weight where
  | code (c : Nat)
  | value (w : Word)

def CoreJob.weight (c : CoreJob) (s m : Word) : Weight :=
  if c.var.p8l then .code (p8lCode s m)
  else .value (if s = negInf32 then 0 else exp2_32 (mul32 (sub32 s m) log2e32))

def Weight.num : Weight → Num
  | .code c => p8lWeight c
  | .value w => f32 w

/-- The product of a weight and element `i` of a V row (R94, R95). -/
def CoreJob.product (c : CoreJob) (r : PosRow) (i : Nat) (w : Weight) : Num :=
  let sc := bitOf c.geo.modes 0
  match w with
  | .code k => p8lProduct c.geo.vFmt (r.v.1.getD i 0) (if sc then r.v.2.getD (i / 32) 255 else 127) k
  | .value x => (f32 x).mul (rowVal c.geo.vFmt sc r.v i)

/-- Unmasked positions of one group of 4 offsets with their scores. -/
def groupOf (rows : List (PosRow × Word)) (t : Nat) : List (PosRow × Word) := rows.filter fun r => r.1.off / 4 == t

/-- One block under one query row (R93). `rows` are the block's unmasked positions in ascending order. -/
def CoreJob.block (c : CoreJob) (q : List Num) (p : Partial) (rows : List PosRow) : Partial :=
  if p.nan then p
  else
    let scored := rows.map fun r => (r, c.score q r)
    if scored.any fun r => poisons r.2 then p.poison
    else
      let mb := scored.foldl (fun m r => max32 m r.2) negInf32
      let mn := max32 p.m mb
      if mn = negInf32 then p
      else
        let p := if p.m != negInf32 && lt32 p.m mn then
            let a := exp2_32 (mul32 (sub32 p.m mn) log2e32)
            { p with l := mul32 a p.l, o := p.o.map (mul32 a) }
          else p
        let p := { p with m := mn, empty := false }
        (List.range 16).foldl (fun (p : Partial) t =>
          let g := (groupOf scored t).map fun r => (r.1, c.weight r.2 mn)
          if g.isEmpty then p
          else { p with
            l := add32 p.l (rn (Num.sum (g.map fun r => r.2.num))),
            covered := sat32 (p.covered + g.length),
            o := p.o.zipIdx.map fun x => add32 x.1 (rn (Num.sum (g.map fun r => c.product r.1 x.2 r.2))) }) p

/-- A query row over a core's blocks in slot order; a block is its number and its positions (R93, R96). -/
def CoreJob.row (c : CoreJob) (q : List Num) (pos : Nat) (blocks : List (Nat × List PosRow)) : Partial :=
  blocks.foldl (fun p b => c.block q p (b.2.filter fun r => !c.masked pos (64 * b.1 + r.off)))
    { emptyPart c.geo.d with p8l := c.var.p8l, sparse := c.var.sparse }

/-! ### Query rows (02 R41 item 2, 10 R257) -/

/-- Query format of the host: 0 FP32, 1 BF16, 2 FP16, 3 FP8-E4M3. -/
def hostFmt (ctl : Nat) : Nat := fld ctl 5 2

/-- Row of query head `h` of stream `si` in the variant's query format (R41 item 2, R48). -/
def queryRow (g : Geometry) (v : Variant) (ctl : Nat) (query : Bytes) (si h : Nat) : List Num :=
  let f := hostFmt ctl
  let bytes := fmtWidth f / 8
  (List.range g.d).map fun i =>
    let x := elemVal f (leAt query (((si * g.hq + h) * g.d + i) * bytes) bytes)
    elemVal v.qFmt (elemBits v.qFmt {} x)

/-- NaNs of the host's query that a conversion to a variant's query format without NaN squashes to +0 (R35). -/
def squashedQuery (g : Geometry) (v : Variant) (ctl batch : Nat) (query : Bytes) : Nat :=
  let f := hostFmt ctl
  let bytes := fmtWidth f / 8
  if hasNan v.qFmt then 0
  else (List.range (batch * g.hq * g.d)).countP fun i => (elemVal f (leAt query (i * bytes) bytes)).isNan

/-! ### Sketch projection (08 R197) -/

def sketchWord (seed i j : Nat) : Nat :=
  let z := seed ^^^ (i * 0x9e3779b97f4a7c15 % 2 ^ 64) ^^^ (j * 0xc2b2ae3d27d4eb4f % 2 ^ 64)
  let z := (z ^^^ z / 2 ^ 31) * 0xbf58476d1ce4e5b9 % 2 ^ 64
  z ^^^ z / 2 ^ 29

/-- Bits of the projection of an FP32 vector. -/
def project (seed n : Nat) (x : List Word) : List Bool :=
  (List.range n).map fun i =>
    lt32 0 ((x.zipIdx.foldl (fun (y : Word) e =>
      if bitOf (sketchWord seed i (e.2 / 64)) (e.2 % 64) then sub32 y e.1 else add32 y e.1) 0))

/-- The sketch seed of a context. -/
def sketchSeed (s : State) (ctx : Nat) : Nat :=
  regWord s (rkey Off.COMA_SEED_LO ctx) + 2 ^ 32 * regWord s (rkey Off.COMA_SEED_HI ctx)

/-- Sum of vectors in order, rounded to FP32 at each addition (R198, R199). -/
def sumRows (d : Nat) (rows : List (List Num)) : List Word :=
  match rows with
  | [] => List.replicate d 0
  | r :: rs => rs.foldl (fun acc x => acc.zipWith (fun a b => add32 a (rn b)) x) (r.map rn)

/-- Bits in which two sketches differ. -/
def hamming (a b : Bytes) : Nat := popcount (xorB a b)

end Sys2Proof.Machine
end

