-- ==== Sys2Proof/Machine/PageRead.lean ====
section
/-! DEFINITION. How an engine reads a block: the frames, the header check (03 R54), the decode check (06 R160), and what a bad
page leaves behind (06 R161, 16 R388). -/
namespace Sys2Proof.Machine
open Sys2Proof

/-- The table a reference decodes under, as fields. -/
def ctableAt (s : State) (ref : Nat) : Option CTable := (tableAt s ref).map tableOf

def padCheck (s : State) : Bool := rbit s Off.COMP_CTRL 1

/-- Why a page cannot be used: its header, or a coded block with the code of R160 and the table slot named. -/
inductive PageBad where
  | header
  | code (status slot : Nat)
deriving DecidableEq, Repr

def PageBad.status : PageBad → Nat
  | .header => St.PAGE_HEADER_BAD
  | .code c _ => c

/-- Fault source of a bad page (16 R387). -/
def PageBad.source : PageBad → Nat
  | .header => 0x11
  | .code _ _ => 0x12

/-- A page decoded: its positions, and for each tensor the table reference, elements and coded bits. -/
structure PageData where
  rows : List PosRow := []
  use : List (Nat × Nat × Nat) := []

/-- The header passes R54 for a step of an image. -/
def pageOkFor (g : Geometry) (place : PlaceOf) (bs : Bytes) : Bool :=
  pageShapeOk bs && pagePlaceOk bs place && pageGeoOk bs g.sketch g.kFmt g.vFmt (bitOf g.modes 0)

def blocksUse (ref : Nat) (bs : List DecBlock) : Nat × Nat × Nat := (ref, (bs.map (·.elems)).sum, (bs.map (·.bits)).sum)

/-- Both tensors of a page decoded (R154, R160). -/
def pageRows (s : State) (d : Nat) (bs : Bytes) : Except PageBad PageData :=
  let h := pageHdr bs
  match decodeTensorOf (padCheck s) (ctableAt s) d false bs with
  | .error e => .error (.code e.status e.slot)
  | .ok k => match decodeTensorOf (padCheck s) (ctableAt s) d true bs with
    | .error e => .error (.code e.status e.slot)
    | .ok v =>
      let kv := (k.flatMap (·.rows)).zip (v.flatMap (·.rows))
      .ok { rows := kv.zipIdx.map fun x => { off := h.first + x.2, k := x.1.1, v := x.1.2 },
            use := [blocksUse h.kTable k, blocksUse h.vTable v] }

/-- Header check, then decode. -/
def readPage (s : State) (g : Geometry) (place : PlaceOf) (bs : Bytes) : Except PageBad PageData :=
  if pageOkFor g place bs then pageRows s g.d bs else .error .header

/-- The bytes of a whole frame under a context's key. -/
def frameBytesOf (s : State) (slot pfn : Nat) : Bytes := getFrame s slot pfn 0 frameBytes

/-- Primary, then spill (R56): the frames of a local block. -/
def blockFrames (e : BlockEntry) : List Nat := entryFrames e

/-- Where a page of a step must lie. -/
def placeIn (ctx layer stream kv block : Nat) (e : BlockEntry) : PlaceOf :=
  { stream := if e.shared then none else some stream, ctx := ctx, layer := layer, kvHead := kv, block := block }

/-- Pages of a block in order; the first bad one with its frame. -/
def readFrames (s : State) (g : Geometry) (place : PlaceOf) : List (Nat × Bytes) → Except (PageBad × Nat) PageData
  | [] => .ok {}
  | (pfn, bs) :: rest => match readPage s g place bs with
    | .error e => .error (e, pfn)
    | .ok d => match readFrames s g place rest with
      | .error e => .error e
      | .ok r => .ok { rows := d.rows ++ r.rows, use := d.use ++ r.use }

/-- A local block of a context's stream, decoded. -/
def readBlock (s : State) (g : Geometry) (ctx layer stream kv block : Nat) (e : BlockEntry) : Except (PageBad × Nat) PageData :=
  readFrames s g (placeIn ctx layer stream kv block e) ((blockFrames e).map fun p => (p, frameBytesOf s ctx p))

/-- COMP_STATUS bit of a decode code (06 R166). -/
def compBit (status : Nat) : Nat :=
  if status = St.CODE_INVALID then 0
  else if status = St.CODE_OVERRUN then 1
  else if status = St.CODE_LENGTH then 2
  else if status = St.TABLE_GEN_RETIRED then 3
  else if status = St.TABLE_MISMATCH then 4
  else 5

/-- A decode failure is recorded (R161). `pfn` is 0xFFFF_FFFF where the page lay in no local frame. -/
def compError (s : State) (status slot pfn : Nat) : State :=
  let s := { s with weft := { s.weft with compErrPfn := pfn,
                                          compErrCnt := if status = St.TABLE_UNBOUND then s.weft.compErrCnt
                                                        else sat32 (s.weft.compErrCnt + 1) } }
  raise s Off.COMP_STATUS (2 ^ compBit status) [(24, 6, slot)]

/-- What a bad page leaves in the compression registers. -/
def noteBad (s : State) (b : PageBad) (pfn : Nat) : State :=
  match b with
  | .header => s
  | .code c slot => compError s c slot pfn

/-- A step meets a bad page: it faults (R54, R161, 16 R388). -/
def pageFault (s : State) (t : Step) (b : PageBad) (pfn : Nat) : State :=
  stepFault (noteBad s b pfn) t b.source b.status pfn

/-! ### Decode counters and the port table cache (06 R157 to R159) -/

def portCacheSize : Nat := 8

/-- The port expander decodes blocks of a table reference (R157). -/
def portDecodes (s : State) (ref : Nat) : Bool :=
  match ctableAt s ref with
  | some t => t.portOk && rbit s Off.COMP_CTRL 0
  | none => false

/-- A core decodes elements of one tensor of one page. -/
def countDecode (s : State) (core : Nat) (u : Nat × Nat × Nat) : State :=
  if !portDecodes s u.1 then count s (ckey Off.COMP_CNT_LO 2 core) u.2.1
  else
    let s := count (count s (ckey Off.COMP_CNT_LO 0 core) u.2.1) (ckey Off.COMP_CNT_LO 1 core) u.2.2
    let key := (u.1 % 64, u.1 / 64)
    let cached := tget [] s.attn.portCache core
    let s := if cached.contains key then s else count s (ckey Off.COMP_CNT_LO 5 core) 1
    let next := (key :: cached.filter (· != key)).take portCacheSize
    { s with attn := { s.attn with portCache := tset [] s.attn.portCache core next } }

end Sys2Proof.Machine
end

