-- ==== Sys2Proof/Machine/Osier.lean ====
section
/-! DEFINITION. Osier units: registers, instructions, walker, collector, refresh and preemption (07 R176 to R192). -/
namespace Sys2Proof.Machine
open Sys2Proof

/-! ### Units, banks, lanes (R167, R176) -/

/-- Stack of a unit numbered 0 to 2,047 in the module, and its number in the stack. -/
def unitStack (u : Nat) : Nat := 24 + u / 256
def unitIn (u : Nat) : Nat := u % 256

/-- Bytes of a bank: 192 MiB. -/
def bankBytes : Nat := 96 * 2097152

/-- Frame of a byte offset in a unit's bank. -/
def bankPfn (u off : Nat) : Nat := unitStack u * 2 ^ 22 + unitIn u * 96 * 128 + off / 16384

/-- Region of a byte offset in a unit's bank, numbered in the stack. -/
def bankRegion (u off : Nat) : Nat := unitIn u * 96 + off / 2097152

def lanes (v : BitVec 256) : List Nat := (List.range 16).map fun i => fld v.toNat (16 * i) 16

def ofLanes (xs : List Nat) : BitVec 256 := BitVec.ofNat 256 (xs.foldr (fun x n => x % 65536 + 65536 * n) 0)

def OUnit.reg (u : OUnit) (i : Nat) : BitVec 256 := u.v.getD i 0
def OUnit.setReg (u : OUnit) (i : Nat) (x : BitVec 256) : OUnit := { u with v := u.v.set i x }
def OUnit.addr (u : OUnit) (i : Nat) : Nat := (u.a.getD i 0).toNat
def OUnit.advance (u : OUnit) (i n : Nat) : OUnit := { u with a := u.a.set i (u.a.getD i 0 + BitVec.ofNat 28 n) }

/-- Save A0 and C0 as the service registers show them (R193). -/
def OUnit.save (u : OUnit) : OUnit := { u with a0 := u.a.getD 0 0, c0 := u.c.getD 0 0 }

/-- An event of OSIER_STATUS that names a unit. -/
def osierEvent (s : State) (u bit : Nat) : State := raise s (Off.OSIER_STATUS (unitStack u)) (2 ^ bit) [(24, 8, unitIn u)]

/-! ### Floating point of a unit (R24, R179) -/

def unitFmt (fp : Bool) : FFmt := if fp then bf16 else fp16

/-- A subnormal encoding as the zero of its sign. -/
def FFmt.flush (f : FFmt) (b : Nat) : Nat := if b / 2 ^ f.mb % 2 ^ f.eb = 0 then b / 2 ^ (f.eb + f.mb) * 2 ^ (f.eb + f.mb) else b

/-- An input lane (R24). -/
def FFmt.input (f : FFmt) (b : Nat) : Num := f.decode (f.flush b)

/-- A result lane: nearest even, subnormals flushed (R24, R179). -/
def FFmt.result (f : FFmt) (v : Num) : Nat := f.flush (f.encode {} v)

/-- The larger of two; a NaN in either gives NaN (R179). -/
def largerOf (a b : Num) : Num := if a.isNan || b.isNan then .nan else a.max b
def smallerOf (a b : Num) : Num := if a.isNan || b.isNan then .nan else if b.lt a then b else a

/-- floor(2^256 log2 e). -/
def log2eFixed : Nat := 0x171547652b82fe1777d0ffda0d23a7d11d6aef551bad2b4b1164a2cd9a342648f

def Num.exp (x : Num) : Num := (x.mul (.fin false log2eFixed (-256))).exp2

def Num.one : Num := .fin false 1 0

def sigmoid (x : Num) : Num := Num.one.div (Num.one.add x.neg.exp)

/-- exp, reciprocal, sigmoid and SiLU before rounding. -/
def actValue (f : Nat) (x : Num) : Num :=
  if f = 0 then x.exp
  else if f = 1 then Num.one.div x
  else if f = 2 then sigmoid x
  else match x with
    | .inf true => Num.zero.neg
    | x => x.mul (sigmoid x)

/-- The values within one unit in the last place of `v` (R179): the part answers one of them. A value that overflows is infinity. -/
def FFmt.within (f : FFmt) (v : Num) : List Nat :=
  let c := f.encode {} v
  match v with
  | .fin _ m _ =>
    if m = 0 then [c]
    else
      let x := f.decode c
      let down := if c % 2 ^ (f.eb + f.mb) = 0 then [] else [c - 1]
      let up := if (f.decode (c + 1)).isInf then [] else [c + 1]
      if x.isInf then [c] else if x.abs.lt v.abs then c :: up else if v.abs.lt x.abs then c :: down else c :: up ++ down
  | _ => [c]

/-- One lane of ACT. Which of the allowed values the part answers is open; a reserved function names no value. -/
def actLane (fp : Bool) (fn a : Nat) (b : Num) : Nat :=
  let f := unitFmt fp
  let x := f.input a
  if fn = 4 then f.result (largerOf x b)
  else if fn = 5 then f.result (smallerOf x b)
  else if fn > 5 then Config.actChoice fn (b2n fp) a % 65536
  else
    let vs := f.within (actValue fn x)
    f.flush (vs.getD (Config.actChoice fn (b2n fp) a % vs.length) (f.encode {} (actValue fn x)))

/-! ### Bank accesses (R172, R175, R184, R190) -/

/-- The unit may touch the region of a byte of its bank: COMPUTE, and of its run where it runs an OSIER_RUN (R168, R190). -/
def mayTouch (s : State) (ui off : Nat) (u : OUnit) : Bool :=
  off < bankBytes && (regionSt s (regionKey (unitStack ui) (bankRegion ui off))).st == .compute &&
    (match u.run with
      | none => true
      | some id => match findStep s id with
        | none => true
        | some t => t.kind != 7 || t.regions.any fun r => r.1 == unitStack ui && r.2.1 == bankRegion ui off)

/-- Bytes of the bank, none where one lies outside what the unit may touch. -/
def bankRead (s : State) (ui off n : Nat) (u : OUnit) : Option Bytes :=
  if (List.range n).all fun i => mayTouch s ui (off + i) u then
    some ((List.range n).flatMap fun i => dramRead s (bankPfn ui (off + i)) ((off + i) % 16384) 1)
  else none

def bankWrite (s : State) (ui off : Nat) (bs : Bytes) (u : OUnit) : Option State :=
  if (List.range bs.length).all fun i => mayTouch s ui (off + i) u then
    some (bs.zipIdx.foldl (fun s x => dramWrite s (bankPfn ui (off + x.2)) ((off + x.2) % 16384) x.1) s)
  else none

/-- Sixteen lanes that nothing constrains. -/
def freeLanes (s : State) : List Nat × State :=
  (List.range 4).foldl (fun (st : List Nat × State) _ =>
    let f := free64 st.2
    (st.1 ++ (List.range 4).map fun i => fld f.1.toNat (16 * i) 16, f.2)) ([], s)

/-- Next bytes of a walker stream: K on A0, V on A1. -/
def walkerTake (u : OUnit) (an n : Nat) : Bytes × OUnit :=
  if an = 0 then (u.k.take n, { u with k := u.k.drop n }) else (u.vv.take n, { u with vv := u.vv.drop n })

/-- A byte with its bits in reverse order. -/
def reverseByte (b : Byte) : Byte := BitVec.ofNat 8 (((List.range 8).map fun i => if b.getLsbD i then 2 ^ (7 - i) else 0).sum)

/-- A bank operand (R178): 32 bytes, or 16 FP8 bytes widened; A[an] advances. The operand path reverses the bits of each byte as it
reads (R183); walker streams hold elements that are reversed already. Past the end of a walker stream, and under the
reserved mf code, the lanes are free. -/
def bankLanes (s : State) (ui : Nat) (u : OUnit) (an mf : Nat) (fp : Bool) : Option (List Nat × OUnit × State) :=
  let n := if mf = 1 || mf = 2 then 16 else 32
  let f := unitFmt fp
  let widen (bs : Bytes) : List Nat :=
    if mf = 1 || mf = 2 then bs.map fun b => f.result (elemVal (mf + 2) b.toNat)
    else (List.range 16).map fun i => leAt bs (2 * i) 2
  if u.attendKind && an < 2 then
    let t := walkerTake u an n
    let u := t.2.advance an n
    if t.1.length = n && mf ≠ 3 then some (widen t.1, u, s)
    else
      let x := freeLanes s
      some (x.1, u, x.2)
  else match bankRead s ui (u.addr an) n u with
    | none => none
    | some bs =>
      if mf = 3 then
        let x := freeLanes s
        some (x.1, u.advance an n, x.2)
      else some (widen (bs.map reverseByte), u.advance an n, s)

/-! ### One instruction (R177, R178) -/

/-- Fields of an instruction word. -/
def iOp (w : Nat) : Nat := fld w 26 6
def iVd (w : Nat) : Nat := fld w 22 4
def iVa (w : Nat) : Nat := fld w 18 4
def iVb (w : Nat) : Nat := fld w 14 4
def iAn (w : Nat) : Nat := fld w 11 2
def iFp (w : Nat) : Bool := bitOf w 10
def iMf (w : Nat) : Nat := fld w 8 2
def iNeg (w : Nat) : Bool := bitOf w 7
def iBc (w : Nat) : Bool := bitOf w 6
def iLane (w : Nat) : Nat := fld w 2 4
def iSub (w : Nat) : Nat := fld w 0 2
def iC (w : Nat) : Nat := fld w 24 2
def iImm (w : Nat) : Nat := fld w 0 16

/-- The instruction at the unit's program counter. -/
def OUnit.instr (u : OUnit) : Nat := (u.prog.getD u.pc 0).toNat

/-- The next instruction; the program counter has 8 bits. -/
def OUnit.step (u : OUnit) : OUnit := { u with pc := (u.pc + 1) % 256 }

/-- A unit leaves its run's regions: it halts in ERROR (R190). -/
def boundsHalt (s : State) (ui : Nat) (u : OUnit) : State :=
  let s := setUnit s ui { u.save with st := .error, err := 1 }
  let s := osierEvent s ui 1
  match u.run with
  | none => s
  | some id => match findStep s id with
    | some t => putStep s { t with counts := t.counts ++ [ui] }
    | none => s

/-- The unit issues an instruction of an opcode now: it runs, the clock is not braked, and the instruction stands at its program
counter (R180, 14 R344). -/
def issues (s : State) (ui op : Nat) : Bool :=
  let u := unitOf s ui
  ui < 2048 && u.st == .running && !braked s && iOp u.instr == op

/-- Operand b of an instruction (R178): vb or the bank, one lane of it copied to all where bc is set. -/
def operandB (s : State) (ui : Nat) (u : OUnit) (w : Nat) : Option (List Nat × OUnit × State) :=
  let r := if bitOf w 13 then bankLanes s ui u (iAn w) (iMf w) (iFp w) else some (lanes (u.reg (iVb w)), u, s)
  r.map fun x => (if iBc w then List.replicate 16 (x.1.getD (iLane w) 0) else x.1, x.2)

/-- An arithmetic instruction: `f` gives the new register from the unit, lanes of va and b. -/
def arith (op ui : Nat) (f : OUnit → Nat → List Nat → List Nat → List Nat) (s : State) : State :=
  if !issues s ui op then s
  else
    let u := unitOf s ui
    let w := u.instr
    match operandB s ui u w with
    | none => boundsHalt s ui u
    | some (b, u, s) => setUnit s ui (u.setReg (iVd w) (ofLanes (f u w (lanes (u.reg (iVa w))) b))).step

/-- A control instruction: `f` changes the unit alone. -/
def control (op ui : Nat) (f : OUnit → Nat → OUnit) (s : State) : State :=
  if !issues s ui op then s else setUnit s ui (f (unitOf s ui) (unitOf s ui).instr)

/-- Operand b as numbers, negated where neg is set. -/
def bNums (w : Nat) (b : List Nat) : List Num :=
  b.map fun x => let v := (unitFmt (iFp w)).input x; if iNeg w then v.neg else v

def addLanes (_ : OUnit) (w : Nat) (a b : List Nat) : List Nat :=
  let f := unitFmt (iFp w)
  a.zipWith (fun x y => f.result ((f.input x).add y)) (bNums w b)

def mulLanes (u : OUnit) (w : Nat) (a b : List Nat) : List Nat :=
  let f := unitFmt (iFp w)
  let p := a.zipWith (fun x y => f.result ((f.input x).mul y)) (bNums w b)
  if bitOf w 0 then (lanes (u.reg (iVd w))).zipWith (fun x y => f.result ((f.input x).add (f.input y))) p else p

def foldLanes (_ : OUnit) (w : Nat) (a b : List Nat) : List Nat :=
  let f := unitFmt (iFp w)
  let op (x y : Num) : Nat := f.result (if iSub w % 2 = 0 then x.add y else largerOf x y)
  let half (xs : List Num) := (List.range 8).map fun i => op (xs.getD (2 * i) .zero) (xs.getD (2 * i + 1) .zero)
  half (a.map f.input) ++ half (bNums w b)

def actLanes (_ : OUnit) (w : Nat) (a b : List Nat) : List Nat := a.zipWith (actLane (iFp w) (iLane w)) (bNums w b)

/-- INT16 products, adjacent pairs added into the INT32 of vd (R181). -/
def imacLanes (u : OUnit) (w : Nat) (a b : List Nat) : List Nat :=
  let p (i : Nat) : Int := signed 16 (a.getD i 0) * (if iNeg w then -(signed 16 (b.getD i 0)) else signed 16 (b.getD i 0))
  (List.range 8).flatMap fun i =>
    let x := (((fld (u.reg (iVd w)).toNat (32 * i) 32 : Nat) : Int) + p (2 * i) + p (2 * i + 1)) % 2 ^ 32
    [x.toNat % 65536, x.toNat / 65536]

def oNop (ui : Nat) (s : State) : State := control 0x00 ui (fun u _ => u.step) s

/-- NOP (R178). -/
def execONop (unit : Nat) (s : State) : Host.Outcome State Fault Refusal := whileAlive s (oNop unit s)

/-- YIELD: with a refresh due the unit parks and resumes after it (R191). -/
def oYield (ui : Nat) (s : State) : State :=
  control 0x01 ui (fun u _ => if u.due then { u.step with st := .parked } else u.step) s

/-- YIELD (R191). -/
def execOYield (unit : Nat) (s : State) : Host.Outcome State Fault Refusal := whileAlive s (oYield unit s)

/-! ### The walker (R184) -/

/-- The walker moves to the next block: its streams and mask. -/
def walkTo (u : OUnit) (w : Walk) (rest : List Walk) : OUnit := { u with k := w.k, vv := w.v, msk := w.msk, walk := rest }

/-- A walker check fails: the unit errs and the step ends (R184). -/
def walkerBad (s : State) (ui : Nat) (u : OUnit) (status pfn : Nat) : State :=
  let s := osierEvent (setUnit s ui { u.save with st := .error, err := 3 }) ui 3
  match u.run with
  | none => s
  | some id => match findStep s id with
    | none => s
    | some t => stepFault s t 0x11 status pfn

/-- Start the walk of a stream and KV head: the first block stands ready. -/
def startJob (s : State) (ui : Nat) (u : OUnit) (j : Nat × Nat × List Walk) : State :=
  let u := { u with job := (j.1, j.2.1), pc := 0, st := .running }
  match j.2.2 with
  | [] => setUnit s ui { u with walk := [], k := [], vv := [], msk := 0 }
  | w :: rest => match w.bad with
    | none => setUnit s ui (walkTo u w rest)
    | some (st, pfn) => walkerBad s ui u st pfn

/-- NEXT; without a block left C0 becomes 0. In a RUN program it does nothing. -/
def oNext (ui : Nat) (s : State) : State :=
  if !issues s ui 0x07 then s
  else
    let u := unitOf s ui
    if !u.attendKind then setUnit s ui u.step
    else match u.walk with
      | [] => setUnit s ui { u.step with c := u.c.set 0 0, k := [], vv := [], msk := 0 }
      | w :: rest => match w.bad with
        | none => setUnit s ui (walkTo u.step w rest)
        | some (st, pfn) => walkerBad s ui u st pfn

/-- NEXT (R184). -/
def execONext (unit : Nat) (s : State) : Host.Outcome State Fault Refusal := whileAlive s (oNext unit s)

/-! ### Query rows of a unit (R187) -/

/-- Rows of a KV head's query in the program's format, each of 16 lanes: row r of query head h lies at h x q_rows + r. -/
def queryRows (img : Image) (t : Step) (si kv : Nat) (progFmt qRows : Nat) : Tbl (BitVec 256) :=
  let g := img.geo
  let v := img.variants.getD t.variant {}
  let f := unitFmt (progFmt == 1)
  let scale := f32 (BitVec.ofNat 32 v.scale)
  (List.range (g.hq / g.hkv)).flatMap fun h =>
    let row := (queryRow g v (t.desc.n 25 1) t.query si (kv * (g.hq / g.hkv) + h)).map fun x => f.encode {} (x.mul scale)
    (List.range qRows).map fun r => (h * qRows + r, ofLanes (fit16 (row.drop (16 * r))))
where
  fit16 (xs : List Nat) : List Nat := (List.range 16).map fun i => xs.getD i 0

/-- Write query rows into a local store of 64 rows. -/
def putRows (rows : Tbl (BitVec 256)) (q : Tbl (BitVec 256)) : Tbl (BitVec 256) :=
  q.foldl (fun t e => if e.1 < 64 then tset 0 t e.1 e.2 else t) rows

/-- Header of a program in the OSIER section. -/
def progHead (img : Image) (off : Nat) : Bytes := slice img.osier off 16
def progFmtOf (img : Image) (off : Nat) : Nat := leAt (progHead img off) 5 1
def progQRows (img : Image) (off : Nat) : Nat := leAt (progHead img off) 6 1
def progCount (img : Image) (off : Nat) : Nat := leAt (progHead img off) 3 1 + 1
def progWords (img : Image) (off : Nat) : List Word :=
  (List.range (progCount img off)).map fun i => BitVec.ofNat 32 (leAt img.osier (off + 16 + 4 * i) 4)

/-- Opcodes that exist (R178). -/
def opcodeOk (op : Nat) : Bool := op ≤ 0x0B || (0x10 ≤ op && op ≤ 0x15) || op == 0x18

/-- The checks of R182 on a program of a kind. -/
def programOk (img : Image) (off kind : Nat) : Bool :=
  off + 16 + 4 * progCount img off ≤ img.osier.length && leAt (progHead img off) 0 2 == 0x534F &&
    leAt (progHead img off) 2 1 == 1 && leAt (progHead img off) 4 1 == kind &&
    (progWords img off).all fun w => opcodeOk (iOp w.toNat)

/-- Number of the program in the section: programs that start before it, walked from the secTypes start. -/
def progOrdinal (img : Image) (off : Nat) : Nat :=
  go 256 0 0
where
  go : Nat → Nat → Nat → Nat
    | 0, _, n => n
    | fuel + 1, p, n => if p ≥ off then n else go fuel (p + 16 + 4 * progCount img p) (n + 1)

/-- A unit with a program in its store; instructions beyond it keep what they held. A store that holds the program already is not
loaded again (R182). -/
def loadProgram (img : Image) (h off : Nat) (u : OUnit) : OUnit :=
  if u.progHandle = h && u.progOff == some off then { u with pc := 0, err := 0 }
  else
    let ws := progWords img off
    { u with prog := ws ++ u.prog.drop ws.length, progHandle := h, progOrd := progOrdinal img off, progOff := some off, pc := 0, err := 0 }

/-- HALT: the unit's work ends; an ATTEND unit goes on with its next stream and KV head (R187). -/
def oHalt (ui : Nat) (s : State) : State :=
  if !issues s ui 0x02 then s
  else
    let u := unitOf s ui
    match u.jobs with
    | [] => setUnit s ui { u.save with st := .idle }
    | j :: rest => match u.run with
      | none => setUnit s ui { u.save with st := .idle, jobs := [] }
      | some id => match findStep s id with
        | none => setUnit s ui { u.save with st := .idle, jobs := [] }
        | some t =>
          let img := imageOf s t.handle
          let p := (variantOf s t).osierProg
          let rows := putRows u.rows (queryRows img t j.1 j.2.1 (progFmtOf img p) (progQRows img p))
          startJob s ui { u with jobs := rest, rows := rows } j

/-- HALT (R178). -/
def execOHalt (unit : Nat) (s : State) : Host.Outcome State Fault Refusal := whileAlive s (oHalt unit s)

/-- A loop counter; counters 2 and 3 do not exist and read as zero. -/
def OUnit.ctr (u : OUnit) (i : Nat) : BitVec 16 := u.c.getD i 0

def oLoop (ui : Nat) (s : State) : State :=
  control 0x03 ui (fun u w =>
    let c := u.ctr (iC w)
    if c.toNat > 1 then { u with c := u.c.set (iC w) (c - 1), pc := iImm w % 256 } else { u.step with c := u.c.set (iC w) 0 }) s

/-- LOOP (R178). -/
def execOLoop (unit : Nat) (s : State) : Host.Outcome State Fault Refusal := whileAlive s (oLoop unit s)

def oSetc (ui : Nat) (s : State) : State :=
  control 0x04 ui (fun u w => { u.step with c := u.c.set (iC w) (BitVec.ofNat 16 (iImm w)) }) s

/-- SETC (R178). -/
def execOSetc (unit : Nat) (s : State) : Host.Outcome State Fault Refusal := whileAlive s (oSetc unit s)

def oSeta (ui : Nat) (s : State) : State :=
  control 0x05 ui (fun u w => { u.step with a := u.a.set (iC w) ((u.p.getD (iImm w % 16) 0).setWidth 28) }) s

/-- SETA (R178). -/
def execOSeta (unit : Nat) (s : State) : Host.Outcome State Fault Refusal := whileAlive s (oSeta unit s)

def oAdda (ui : Nat) (s : State) : State :=
  control 0x06 ui (fun u w =>
    { u.step with a := u.a.set (iC w) (u.a.getD (iC w) 0 + (BitVec.ofNat 16 (iImm w)).signExtend 28 * 32) }) s

/-- ADDA (R178). -/
def execOAdda (unit : Nat) (s : State) : Host.Outcome State Fault Refusal := whileAlive s (oAdda unit s)

def oLd (ui : Nat) (s : State) : State :=
  if !issues s ui 0x08 then s
  else
    let u := unitOf s ui
    let w := u.instr
    match bankLanes s ui u (iAn w) (iMf w) (iFp w) with
    | none => boundsHalt s ui u
    | some (x, u, s) => setUnit s ui (u.setReg (iVd w) (ofLanes x)).step

/-- LD (R178). -/
def execOLd (unit : Nat) (s : State) : Host.Outcome State Fault Refusal := whileAlive s (oLd unit s)

/-- Bytes that ST writes: 32, or 16 FP8 bytes narrowed in saturating mode (R178, 02 R33, R34). -/
def stBytes (w : Nat) (x : BitVec 256) : Bytes :=
  let mf := iMf w
  if mf = 1 || mf = 2 then (lanes x).map fun l => BitVec.ofNat 8 (elemBits (mf + 2) {} ((unitFmt (iFp w)).input l))
  else putLe 32 x.toNat

def oSt (ui : Nat) (s : State) : State :=
  if !issues s ui 0x09 then s
  else
    let u := unitOf s ui
    let w := u.instr
    let bs := stBytes w (u.reg (iVa w))
    match bankWrite s ui (u.addr (iAn w)) bs u with
    | none => boundsHalt s ui u
    | some s => setUnit s ui (u.advance (iAn w) bs.length).step

/-- ST (R178). -/
def execOSt (unit : Nat) (s : State) : Host.Outcome State Fault Refusal := whileAlive s (oSt unit s)

def oLdl (ui : Nat) (s : State) : State :=
  control 0x0A ui (fun u w => (u.setReg (iVd w) (tget 0 u.rows (w % 64))).step) s

/-- LDL (R178). -/
def execOLdl (unit : Nat) (s : State) : Host.Outcome State Fault Refusal := whileAlive s (oLdl unit s)

def oStl (ui : Nat) (s : State) : State :=
  control 0x0B ui (fun u w => { u.step with rows := tset 0 u.rows (w % 64) (u.reg (iVa w)) }) s

/-- STL (R178). -/
def execOStl (unit : Nat) (s : State) : Host.Outcome State Fault Refusal := whileAlive s (oStl unit s)

def oAdd (ui : Nat) (s : State) : State := arith 0x10 ui addLanes s

/-- ADD (R178, R179). -/
def execOAdd (unit : Nat) (s : State) : Host.Outcome State Fault Refusal := whileAlive s (oAdd unit s)

def oMul (ui : Nat) (s : State) : State := arith 0x11 ui mulLanes s

/-- MUL (R178, R179). -/
def execOMul (unit : Nat) (s : State) : Host.Outcome State Fault Refusal := whileAlive s (oMul unit s)

def oFold (ui : Nat) (s : State) : State := arith 0x12 ui foldLanes s

/-- FOLD (R178, R179). -/
def execOFold (unit : Nat) (s : State) : Host.Outcome State Fault Refusal := whileAlive s (oFold unit s)

def oAct (ui : Nat) (s : State) : State := arith 0x13 ui actLanes s

/-- ACT (R179). -/
def execOAct (unit : Nat) (s : State) : Host.Outcome State Fault Refusal := whileAlive s (oAct unit s)

/-- Masked lanes become minus infinity in the format fp names. -/
def maskLanes (u : OUnit) (w : Nat) : BitVec 256 :=
  let inf := (unitFmt (iFp w)).encode {} (.inf true)
  ofLanes ((lanes (u.reg (iVd w))).zipIdx.map fun x => if u.msk.getLsbD (16 * iSub w + x.2) then x.1 else inf)

def oMsk (ui : Nat) (s : State) : State := control 0x14 ui (fun u w => (u.setReg (iVd w) (maskLanes u w)).step) s

/-- MSK (R178). -/
def execOMsk (unit : Nat) (s : State) : Host.Outcome State Fault Refusal := whileAlive s (oMsk unit s)

/-- Query heads that share a KV head (04 R99), of the image a unit's step runs. -/
def groupOfUnit (s : State) (u : OUnit) : Nat :=
  match u.run with
  | none => 1
  | some id => match findStep s id with
    | some t => (imageOf s t.handle).geo.hq / (imageOf s t.handle).geo.hkv
    | none => 1

/-- The part number an OUT gives its register: the lowest that its head still lacks and whose low two bits are sub (DESIGN CHOICE: sub
has two bits, and R187 gives a head up to 1 + d / 16 parts, in a fixed order). -/
def outPart (u : OUnit) (head sub : Nat) : Nat :=
  let have' := (u.outs.filter fun o => o.1 == u.job.1 && o.2.1 == head).map (·.2.2.1)
  (((List.range 16).map fun i => 4 * i + sub).find? fun p => !have'.contains p).getD sub

/-- OUT: va goes to the collector as a part of its head. In a RUN program it does nothing. -/
def oOut (ui : Nat) (s : State) : State :=
  if !issues s ui 0x15 then s
  else
    let u := unitOf s ui
    let w := u.instr
    if !u.attendKind then setUnit s ui u.step
    else
      let head := u.job.2 * groupOfUnit s u + iLane w
      setUnit s ui { u.step with outs := u.outs ++ [(u.job.1, head, outPart u head (iSub w), u.reg (iVa w))] }

/-- OUT (R187). -/
def execOOut (unit : Nat) (s : State) : Host.Outcome State Fault Refusal := whileAlive s (oOut unit s)

def oImac (ui : Nat) (s : State) : State := arith 0x18 ui imacLanes s

/-- IMAC (R181). -/
def execOImac (unit : Nat) (s : State) : Host.Outcome State Fault Refusal := whileAlive s (oImac unit s)

/-! ### An ATTEND in the banks (R184, R187) -/

/-- Both tables of a page are identity tables (R183). -/
def identityTable (t : CTable) : Bool :=
  t.maxLen == 8 && t.escLen == 0 && t.syms == (List.range 256).map fun i => (i, 8)

def pageIdentity (s : State) (bs : Bytes) : Bool :=
  let h := pageHdr bs
  [h.kTable, h.vTable].all fun r => match ctableAt s r with
    | some t => identityTable t
    | none => false

/-- Elements of rows as the walker delivers them: each in its format's bytes. -/
def rowBytes (fmt : Nat) (rows : List KvRow) : Bytes := rows.flatMap fun r => r.1.flatMap fun e => putLe (fmtWidth fmt / 8) e

/-- The walker's checks on one page and its rows (R184): the header without the CRC, then the tables. -/
def walkPage (s : State) (g : Geometry) (place : PlaceOf) (bs : Bytes) : Except Nat (List PosRow) :=
  if !(pageHeadOk bs && pagePlaceOk bs place && pageGeoOk bs g.sketch g.kFmt g.vFmt (bitOf g.modes 0)) then .error St.PAGE_HEADER_BAD
  else if !pageIdentity s bs then .error St.OSIER_TABLE
  else match pageRows s g.d bs with
    | .error _ => .error St.PAGE_HEADER_BAD
    | .ok d => .ok d.rows

/-- One block as a walk; none where no position of it is in range. `p` is the query position. -/
def walkBlock (s : State) (c : CoreJob) (place : PlaceOf) (p : Nat) (e : BlockEntry) : Option Walk :=
  let vis := (List.range 64).filter fun j => j < e.count && !c.masked p (64 * place.block + j)
  if vis.isEmpty then none
  else
    let pages := (blockFrames e).map fun f => (f, walkPage s c.geo place (dramRead s f 0 frameBytes))
    match pages.find? fun x => match x.2 with
      | .error _ => true
      | .ok _ => false with
    | some (f, .error st) => some { bad := some (st, f) }
    | _ =>
      let rows := pages.flatMap fun x => match x.2 with
        | .ok r => r
        | .error _ => []
      some { k := rowBytes c.geo.kFmt (rows.map (·.k)), v := rowBytes c.geo.vFmt (rows.map (·.v)),
             msk := BitVec.ofNat 64 ((vis.map (2 ^ ·)).sum) }

/-- The context's view of a step stream's core job. -/
def stepJob (s : State) (t : Step) (x : StepStream) : CoreJob :=
  { geo := (imageOf s t.handle).geo, var := variantOf s t, limit := x.committed }

/-- Block that a slot holds. -/
def slotEntry (t : Step) (p : PageSlot) : Option (Nat × BlockEntry) :=
  match p.block with
  | none => none
  | some b => match t.streams[p.si]? with
    | none => none
    | some x => some (b, tget {} x.entries (blockKey (t.desc.n 16 2) p.kvHead b))

/-- Walks of one unit for a stream and KV head, in slot order. -/
def unitWalks (s : State) (t : Step) (ui si kv : Nat) : List Walk :=
  match t.streams[si]? with
  | none => []
  | some x =>
    (t.slots.filter fun p => p.si == si && p.kvHead == kv).filterMap fun p => match slotEntry t p with
      | none => none
      | some (b, e) =>
        if bankUnit e.pfn ≠ ui then none
        else walkBlock s (stepJob s t x) (placeIn t.ctx (t.desc.n 16 2) x.stream kv b e) x.position e

/-- Units that hold blocks of the step's slots. -/
def attendUnits (t : Step) : List Nat :=
  ((t.slots.filterMap fun p => (slotEntry t p).map fun x => bankUnit x.2.pfn).eraseDups)

/-- The jobs of a unit: every stream and KV head with a block in range. -/
def unitJobs (s : State) (t : Step) (ui : Nat) : List (Nat × Nat × List Walk) :=
  let heads := (imageOf s t.handle).geo.hkv
  (List.range t.streams.length).flatMap fun si => (List.range heads).filterMap fun kv =>
    let ws := unitWalks s t ui si kv
    if ws.isEmpty then none else some (si, kv, ws)

/-- A unit that the step's blocks lie at works for another run or step: the step waits for it (DESIGN CHOICE: no rule says what happens
then). -/
def unitsHeld (s : State) (t : Step) : Bool := (attendUnits t).any fun ui => (unitOf s ui).run.any (· != t.desc.id)

/-- Start the units of an osier ATTEND. A walker check that fails ends the step. -/
def startAttendUnits (s : State) (t : Step) : State :=
  let img := imageOf s t.handle
  let p := (variantOf s t).osierProg
  (attendUnits t).foldl (fun s ui =>
    if (findStep s t.desc.id).isNone then s
    else match unitJobs s t ui with
      | [] => s
      | j :: rest =>
        let u := loadProgram img t.handle p (unitOf s ui)
        let rows := putRows u.rows (queryRows img t j.1 j.2.1 (progFmtOf img p) (progQRows img p))
        startJob s ui { u with attendKind := true, run := some t.desc.id, jobs := rest, rows := rows, outs := [] } j) s

/-! ### The collector (R187) -/

/-- The partial of one unit for a query head: empty where it works for another step, or sent fewer than all its parts. -/
def unitPartial (s : State) (t : Step) (ui si head : Nat) : Partial :=
  let img := imageOf s t.handle
  let d := img.geo.d
  let f := unitFmt (progFmtOf img (variantOf s t).osierProg == 1)
  let wide (x : Nat) : Word := rn (f.decode x)
  let u := unitOf s ui
  let part (k : Nat) : Option (List Nat) := (u.outs.find? fun o => o.1 == si && o.2.1 == head && o.2.2.1 == k).map fun o => lanes o.2.2.2
  let parts := (List.range (1 + d / 16)).map part
  match parts with
  | some r0 :: rest =>
    if u.run ≠ some t.desc.id || rest.any Option.isNone then emptyPart d
    else
      let m := wide (r0.getD 0 0)
      let walks := unitWalks s t ui si (head / (img.geo.hq / img.geo.hkv))
      let covered := (walks.map fun w => (maskBits 64 w.msk.toNat).length).sum
      { m := m, l := wide (r0.getD 1 0), o := (rest.flatMap fun r => (r.getD []).map wide),
        covered := if m = negInf32 then 0 else covered, empty := m == negInf32, nan := isNan32 m }
  | _ => emptyPart d

/-- The stack partial of a query head: the 256 unit partials in ascending unit number. -/
def stackPartial (s : State) (t : Step) (stack si head : Nat) : Partial :=
  let v := variantOf s t
  { mergeAll ((List.range 256).map fun i => unitPartial s t ((stack - 24) * 256 + i) si head) with p8l := v.p8l, sparse := v.sparse }

/-- Every unit of a stack that works for the step has halted. -/
def stackHalted (s : State) (t : Step) (stack : Nat) : Bool :=
  s.osier.units.all fun e => !(e.2.run == some t.desc.id && unitStack e.1 == stack) || e.2.st == .idle

/-- The units of a step are free again. -/
def freeUnits (s : State) (id : Nat) : State :=
  { s with osier := { s.osier with units := (s.osier.units.map fun (e : Nat × OUnit) =>
                                             (e.1, if e.2.run = some id then { e.2 with run := none, attendKind := false } else e.2)) } }

/-! ### OSIER_RUN (R189, R190) -/

/-- Units that take part in a run. -/
def runUnits (t : Step) : List Nat :=
  (stacksOfMask t.stackSet).flatMap fun i => (span t.unitLo t.unitHi).map fun u => (i - 24) * 256 + u

def runRegions (t : Step) : List Nat := t.regions.map fun r => regionKey r.1 r.2.1

/-- A run that is admitted may start: no other run holds its regions, no earlier one waits for them, and no run or step holds one of
its units. -/
def runMayStart (s : State) (t : Step) : Bool :=
  t.kind == 7 && !t.started && ((runRegions t).all fun k => (regionSt s k).run.isNone &&
    s.weft.steps.all fun o => o.desc.id ≥ t.desc.id || o.kind != 7 || o.started || !(runRegions o).contains k) &&
    (runUnits t).all fun u => (unitOf s u).run.isNone

/-- Start a run: regions held, programs loaded, units running. -/
def startRun (s : State) (t : Step) : State :=
  if !runMayStart s t then s
  else
    let id := t.desc.id
    let s := (runRegions t).foldl (fun s k => setRegion s k { regionSt s k with run := some id }) s
    let img := imageOf s t.handle
    let s := (runUnits t).foldl (fun s ui =>
      let u := unitOf s ui
      if u.st = .fenced then s
      else setUnit s ui { loadProgram img t.handle t.variant u with
        attendKind := false, run := some id, p := t.params, st := .running, walk := [], jobs := [], outs := [] }) s
    putStep s { t with started := true }

/-- Start every run that can start, in admission order. -/
def startRuns (s : State) : State := (s.weft.steps.filter fun t => t.kind == 7 && !t.started).foldl startRun s

/-- The run record of a descriptor (10 R257). -/
def runRecord (hv : AddrView) (d : Desc) : Option Bytes := hostRead hv (d.addr 24) 208

def recRegions (r : Bytes) : List (Nat × Nat × Nat) :=
  (List.range (leAt r 5 1)).map fun i => (leAt r (16 + 16 * i) 1, leAt r (18 + 16 * i) 2 % 2 ^ 15, leAt r (24 + 16 * i) 8 % 2 ^ 48)

/-- The first check of R189 that fails. -/
def runCheck (s : State) (d : Desc) (r : Bytes) : Option Nat :=
  let sl := sliceOf s (ctxOf s d.ring).slice
  let rs := recRegions r
  let st (x : Nat × Nat × Nat) := regionSt s (regionKey x.1 x.2.1)
  if leAt r 5 1 = 0 || leAt r 5 1 > 8 || leAt r 6 1 > leAt r 7 1 then some St.COUNT_INVALID
  else if (handleRefusal s d.handle).isSome then handleRefusal s d.handle
  else if !programOk (imageOf s d.handle) (leAt r 0 4) 1 then some St.OSIER_PROGRAM
  else if rs.any fun x => x.1 < 24 || x.1 > 31 || x.2.1 ≥ 24576 || !bitOf (leAt r 4 1) (x.1 - 24) || !sl.stackSet.getLsbD x.1 ||
      (st x).owner != some d.ring then some St.OSIER_ACCESS
  else if rs.any fun x => (st x).st != .compute || (st x).sealPending then some St.REGION_STATE
  else if rs.any fun x => (st x).gen != x.2.2 then some St.OSIER_FLUSH_GEN
  else none

/-- A refused run; a stale generation is an event of the region's stack. -/
def runRefuse (s : State) (d : Desc) (r : Bytes) (status : Nat) : State :=
  let s := if status = St.OSIER_FLUSH_GEN then
      (match (recRegions r).find? fun x => (regionSt s (regionKey x.1 x.2.1)).gen != x.2.2 with
        | some x => raise s (Off.OSIER_STATUS x.1) 16 [(24, 8, x.2.1 / 96)]
        | none => s)
    else s
  refuse s d status

def osierRun (id : Nat) (hv : AddrView) (s : State) : State :=
  match findDesc s id with
  | none => match findStep s id with
    | some t => startRun s t
    | none => s
  | some d =>
    if d.kind ≠ 7 || !descReady s d then s
    else match runRecord hv d with
      | none => refuse s d St.HOST_READ_ERROR
      | some r => match runCheck s d r with
        | some e => runRefuse s d r e
        | none =>
          if !mayAdmit s id then s
          else match portion s d (maskBits 8 (leAt r 4 1)).length true with
            | none => noteItems s d (maskBits 8 (leAt r 4 1)).length
            | some (_, cost) =>
              let t : Step := { variant := leAt r 0 4, stackSet := leAt r 4 1, unitLo := leAt r 6 1, unitHi := leAt r 7 1,
                                regions := recRegions r,
                                params := (List.range 16).map fun i => BitVec.ofNat 32 (leAt r (144 + 4 * i) 4) }
              startRuns (admitStep s d cost t)

/-- OSIER_RUN (R189; 05 R143, R144). -/
def execOsierRun (id : Nat) (hv : HostView) (s : State) : Host.Outcome State Fault Refusal := whileAlive s (osierRun id (descView s id hv) s)

def osierRunDone (id : Nat) (s : State) : State :=
  match findStep s id with
  | none => s
  | some t =>
    let us := (runUnits t).filter fun u => (unitOf s u).run == some id
    if t.kind ≠ 7 || !t.started || us.any fun u => !((unitOf s u).st == .idle || (unitOf s u).st == .error) then s
    else
      let s := freeUnits s id
      let s := (runRegions t).foldl (fun s k => setRegion s k { regionSt s k with run := none }) s
      let s := match t.counts with
        | [] => finish s t St.OK
        | u :: _ => finish s t St.OSIER_BOUNDS 0 (putLe 1 (unitStack u) ++ putLe 1 (unitIn u))
      startRuns s

/-- OSIER_RUN_DONE (R189, R190). -/
def execOsierRunDone (id : Nat) (s : State) : Host.Outcome State Fault Refusal := whileAlive s (osierRunDone id s)

/-! ### Refresh (R191, R192) -/

def refreshDue (ui : Nat) (s : State) : State :=
  if ui ≥ 2048 || (unitOf s ui).st = .fenced then s else setUnit s ui { unitOf s ui with due := true }

/-- REFRESH_DUE (R191). -/
def execRefreshDue (unit : Nat) (s : State) : Host.Outcome State Fault Refusal := whileAlive s (refreshDue unit s)

def yieldWindowExpiry (ui : Nat) (s : State) : State :=
  let u := unitOf s ui
  if u.st ≠ .running || !u.due then s
  else osierEvent (countSat (setUnit s ui { u.save with st := .preempted }) (Off.OSIER_PREEMPT_CNT (unitStack ui)) 1) ui 0

/-- YIELD_WINDOW_EXPIRY (R192). -/
def execYieldWindowExpiry (unit : Nat) (s : State) : Host.Outcome State Fault Refusal := whileAlive s (yieldWindowExpiry unit s)

def refreshDone (ui : Nat) (s : State) : State :=
  let u := unitOf s ui
  if !u.due then s
  else match u.st with
    | .parked => countSat (setUnit s ui { u with due := false, st := .running }) (Off.OSIER_YIELD_CNT (unitStack ui)) 1
    | .preempted => setUnit s ui { u with due := false, st := .running }
    | .running => s
    | _ => setUnit s ui { u with due := false }

/-- REFRESH_DONE (R191, R192). -/
def execRefreshDone (unit : Nat) (s : State) : Host.Outcome State Fault Refusal := whileAlive s (refreshDone unit s)

/-! ### Region commands (R168 to R172) -/

/-- The region a master's copy of OSIER_REGION_SEL names. -/
def regionSel (s : State) (m : Master) (stack : Nat) : Nat := selNum s m (Off.OSIER_REGION_SEL stack)

def regionBase (stack r : Nat) : Nat := stack * 2 ^ 22 + r * 128

/-- No frame of the region is allocated: none taken, none waiting for its scrub, no node frame. -/
def regionEmpty (s : State) (stack r : Nat) : Bool :=
  let b := regionBase stack r
  let inR (p : Nat) : Bool := b ≤ p && p < b + 128
  !(s.tier.frames.any fun e => inR e.1) && !s.tier.scrub.any inR && (span b (b + 127)).all fun p => !isNodeFrame s p

/-- The stack moves to another slice under the held bank (17 R436). -/
def stackMoves (s : State) (stack : Nat) : Bool :=
  bankHeld s && (List.range 8).any fun n => (sliceOf s n).stackSet.getLsbD stack != (stagedSlice s n).stackSet.getLsbD stack

/-- A region command: ignored while a sweep or scrub of the last one runs; `run` answers result 0 OK, 1 BUSY, 2 STATE. -/
def regionCmd (m : Master) (stack op ctx : Nat) (run : State → Nat → Nat × State) (s : State) : State :=
  if stack < 24 || stack > 31 then s
  else regCmd s m (Off.OSIER_REGION_CMD stack) [(1, 2, op), (16, 12, ctx)] fun t =>
    if regionBusy t stack then t
    else
      let r := if regionSel s m stack < 24576 then run t (regionSel s m stack) else (2, t)
      { r.2 with osier := { r.2.osier with
                   result := tset 0 r.2.osier.result stack r.1,
                   busy := tset 0 r.2.osier.busy stack (if r.1 = 0 then regionSel s m stack + 1 else 0) } }

def unsealRegion (stack : Nat) (owner : Option Nat) (s : State) (r : Nat) : Nat × State :=
  let k := regionKey stack r
  if (regionSt s k).st ≠ .prot then (2, s)
  else if !regionEmpty s stack r || stackMoves s stack then (1, s)
  else
    let open' (o : Option Nat) : State := setRegion (cleanFrames s fun p => regionOf p == some k) k { regionSt s k with st := .compute, owner := o }
    match owner with
    | none => (0, open' none)
    | some c =>
      if (ctxOf s c).st = .active && (sliceOf s (ctxOf s c).slice).stackSet.getLsbD stack then (0, open' (some c)) else (1, s)

def unsealPool (m : Master) (stack : Nat) (s : State) : State := regionCmd m stack 0 0 (unsealRegion stack none) s

/-- UNSEAL_POOL (R169). -/
def execUnsealPool (m : Master) (stack : Nat) (s : State) : Host.Outcome State Fault Refusal := .next (unsealPool m stack s)

def unsealOwned (m : Master) (stack ctx : Nat) (s : State) : State := regionCmd m stack 1 ctx (unsealRegion stack (some (ctx % 4096))) s

/-- UNSEAL_OWNED (R169). -/
def execUnsealOwned (m : Master) (stack ctx : Nat) (s : State) : Host.Outcome State Fault Refusal :=
  .next (unsealOwned m stack ctx s)

/-- Placement-code-2 frames are allocated in the region. -/
def kvFrames (s : State) (stack r : Nat) : Bool :=
  s.tier.frames.any fun e => regionBase stack r ≤ e.1 && e.1 < regionBase stack r + 128

def sealCmd (m : Master) (stack : Nat) (s : State) : State :=
  regionCmd m stack 2 0 (fun t r =>
    let k := regionKey stack r
    if (regionSt t k).st ≠ .compute then (2, t)
    else if kvFrames t stack r || (regionSt t k).scrubbing then (1, t)
    else (0, setRegion t k { regionSt t k with sealPending := true })) s

/-- SEAL (R169, R170). -/
def execSealRegion (m : Master) (stack : Nat) (s : State) : Host.Outcome State Fault Refusal := .next (sealCmd m stack s)

/-- The region's lines are written back and leave the cache before the sweep reads it (DESIGN CHOICE: no rule says what becomes of the
page cache's lines of a region that is sealed). -/
def sealSweepStart (stack r : Nat) (s : State) : State :=
  let k := regionKey stack r
  let g := regionSt s k
  if g.sealPending && g.run.isNone then
    setRegion (dropFrames s fun p => regionOf p == some k) k { g with st := .sealing, sealPending := false }
  else s

/-- SEAL_SWEEP_START (R170). -/
def execSealSweepStart (stack region : Nat) (s : State) : Host.Outcome State Fault Refusal := whileAlive s (sealSweepStart stack region s)

/-- The sweep reads a region through on-die ECC alone, and what that reports is corrected (R170, R171). -/
def sweepEvents (stack r : Nat) (s : State) (ecc : MemObs) : State :=
  (ecc.filter fun e => regionBase stack r ≤ e.1 && e.1 < regionBase stack r + 128).foldl (fun s e => onDieEvent s stack e.1) s

def sealSweepDone (stack r : Nat) (ecc : MemObs) (s : State) : State :=
  let k := regionKey stack r
  let g := regionSt s k
  if g.st ≠ .sealing then s
  else
    let s := setRegion (sweepEvents stack r s ecc) k { g with st := .prot, owner := none }
    raise s (Off.OSIER_STATUS stack) 4 [(24, 8, r / 96)]

/-- SEAL_SWEEP_DONE (R170). -/
def execSealSweepDone (stack region : Nat) (ecc : MemObs) (s : State) : Host.Outcome State Fault Refusal := whileAlive s (sealSweepDone stack region ecc s)

def releaseCmd (m : Master) (stack : Nat) (s : State) : State :=
  regionCmd m stack 3 0 (fun t r =>
    let g := regionSt t (regionKey stack r)
    if g.st ≠ .compute || g.owner.isNone then (2, t)
    else if g.run.isSome || g.scrubbing then (1, t)
    else (0, setRegion t (regionKey stack r) { g with scrubbing := true })) s

/-- RELEASE (R169). -/
def execRelease (m : Master) (stack : Nat) (s : State) : Host.Outcome State Fault Refusal := .next (releaseCmd m stack s)

/-- Zero every frame of a region, in the page cache and in the DRAM (R172): a controller write as any other (R173). -/
def zeroRegion (s : State) (stack r : Nat) : State :=
  let k := regionKey stack r
  let s := forgetFrames s fun p => regionOf p == some k
  touchRegion { s with mem := { s.mem with cells := memWrite s.mem.cells (frameAddr (regionBase stack r)) (zeros 2097152) } } (regionBase stack r)

def releaseScrubDone (stack r : Nat) (s : State) : State :=
  let k := regionKey stack r
  let g := regionSt s k
  if !g.scrubbing || g.st ≠ .compute || g.owner.isNone || g.sealPending || g.run.isSome then s
  else
    let s := zeroRegion s stack r
    setRegion s k { regionSt s k with owner := none, scrubbing := false }

/-- RELEASE_SCRUB_DONE (R172). -/
def execReleaseScrubDone (stack region : Nat) (s : State) : Host.Outcome State Fault Refusal :=
  whileAlive s (releaseScrubDone stack region s)

/-! ### Service start and halt (R193) -/

def unitStart (m : Master) (ui entry : Nat) (s : State) : State :=
  if ui ≥ 2048 then s
  else regCmd s m (Off.OSIER_U_CMD (unitStack ui) (unitIn ui)) [(8, 8, entry)] fun t =>
    let u := unitOf t ui
    if u.run.isSome || u.st ≠ .idle && u.st ≠ .error then t
    else setUnit t ui { u with st := .running, pc := entry % 256, err := 0 }

/-- UNIT_START (R193). -/
def execUnitStart (m : Master) (unit entry : Nat) (s : State) : Host.Outcome State Fault Refusal := .next (unitStart m unit entry s)

def unitHalt (m : Master) (ui : Nat) (s : State) : State :=
  if ui ≥ 2048 then s
  else regCmd s m (Off.OSIER_U_CMD (unitStack ui) (unitIn ui)) [] fun t =>
    let u := unitOf t ui
    match u.st with
    | .running => setUnit t ui { u.save with st := .idle, jobs := [] }
    | .parked => setUnit t ui { u.save with st := .idle, jobs := [] }
    | .preempted => setUnit t ui { u.save with st := .idle, jobs := [] }
    | _ => t

/-- UNIT_HALT (R193). -/
def execUnitHalt (m : Master) (unit : Nat) (s : State) : Host.Outcome State Fault Refusal := .next (unitHalt m unit s)

end Sys2Proof.Machine
end

