-- ==== Sys2Proof/Machine/Attention.lean ====
section
/-! DEFINITION. ATTEND: admission, slot filling, core passes, the rim merge and its records, completion (01 R16 to R18; 04 R87 to
R116; 05 R130 to R140). -/
namespace Sys2Proof.Machine
open Sys2Proof

/-! ### Streams of a descriptor -/

/-- The status of a step on a stream that must exist in the context (03 R61); none where it is OWNED. A stream of another
context does not exist for this one. -/
def streamStatus (s : State) (ctx n : Nat) : Option Nat :=
  match streamAt s n with
  | none => some St.STREAM_ABSENT
  | some t => if t.ctx = ctx then streamRefusal s n else some St.STREAM_ABSENT

/-! ### What an ATTEND descriptor names (10 R257, R258) -/

/-- This node as a rank group names it; a spare in SHADOW takes its primary's rank (16 R403). -/
def selfNode (s : State) : Nat := if s.fault.st = .shadow then rf s Off.FAULT_SHADOW_PRIMARY 0 14 else nodeNum s

def inShadow (s : State) : Bool := s.fault.st == .shadow

/-- ctl of an ATTEND descriptor. -/
def Desc.ctl (d : Desc) : Nat := d.n 25 1

/-- Streams and explicit positions of an ATTEND; none where the list cannot be read. It follows the rank group, aligned to 8. -/
def attendStreams (hv : AddrView) (d : Desc) (group : Nat) : Option (List (Nat × Nat)) :=
  if d.n 26 1 = 1 then some [(d.stream, d.n 28 4)]
  else match hostRead hv (d.addr 56 + cdiv (8 + 2 * group) 8 * 8) (8 * d.n 26 1) with
    | none => none
    | some b => some ((List.range (d.n 26 1)).map fun i => (leAt b (8 * i) 4 % 2 ^ 24, leAt b (8 * i + 4) 4))

/-- What the host holds for an ATTEND: rank group, streams, query rows. -/
structure AttendArgs where
  group : List Nat
  streams : List (Nat × Nat)
  query : Bytes

/-- The count of the rank group comes first: out of range it ends the ATTEND, and no entry is read (10 R258). -/
def attendArgs (hv : AddrView) (d : Desc) (g : Geometry) : Except Nat AttendArgs :=
  match hostRead hv (d.addr 56) 8 with
  | none => .error St.HOST_READ_ERROR
  | some c =>
    let n := leAt c 0 2
    if n = 0 || n > 16384 then .error St.RANK_GROUP
    else match hostRead hv (d.addr 56 + 8) (2 * n), attendStreams hv d n,
        hostRead hv (d.addr 32) (d.n 26 1 * g.hq * g.d * (fmtWidth (hostFmt d.ctl) / 8)) with
    | some b, some st, some q => .ok { group := (List.range n).map fun i => leAt b (2 * i) 2 % 2 ^ 14, streams := st, query := q }
    | _, _, _ => .error St.HOST_READ_ERROR

/-- Test 7 (05 R132). -/
def rankOk (s : State) (img : Image) (group : List Nat) : Bool :=
  group.length == img.groupSize && group.contains (selfNode s)

/-- The first status that ends an ATTEND before its variants are looked at (R61, R121, R476). -/
def attendRefusal (s : State) (d : Desc) : Option Nat :=
  if d.n 26 1 = 0 then some St.COUNT_INVALID
  else if fld d.ctl 1 2 = 3 then some St.FMT_CODE_INVALID
  else handleRefusal s d.handle

/-! ### Merge plans at this node (05 R131) -/

/-- Entries of the local plan of the variant and of the fabric plan of its step. -/
def planEntries (s : State) (t : Step) : List MergeEntry :=
  let img := imageOf s t.handle
  let v := variantOf s t
  tget [] img.plans v.localPlan ++ tget [] img.plans ((img.sched.getD v.step {}).fabricPlan)

def myRank (s : State) (t : Step) : Nat := t.rankGroup.idxOf (selfNode s)

/-- The rank that runs an entry. -/
def MergeEntry.at (e : MergeEntry) (me : Nat) : Nat := if e.isLocal then me else e.rank

/-- The rank an input comes from; local is the rank that runs the entry. -/
def MergeIn.from (i : MergeIn) (e : MergeEntry) (me : Nat) : Nat := if i.isLocal then e.at me else i.rank

/-- Entries this node runs. A spare in SHADOW has no fabric inputs and runs no fabric merge (16 R403). -/
def myEntries (s : State) (t : Step) : List MergeEntry :=
  (planEntries s t).filter fun e => e.at (myRank s t) == myRank s t && (!inShadow s || e.level ≤ 2)

/-- Where a partial comes from: a core of this node, or a merge of a level at a cluster of it. -/
structure PartSrc where
  kind : Nat
  die : Nat
  cluster : Nat
  core : Nat := 0
  level : Nat := 0
deriving DecidableEq, Repr

/-- The input takes the partial: its kind, place and rank agree, and no merge of a level between stands at that place for the
head. -/
def takesInput (s : State) (t : Step) (e : MergeEntry) (i : MergeIn) (p : PartSrc) : Bool :=
  i.from e (myRank s t) == myRank s t && i.kind == p.kind && i.die == p.die && i.cluster == p.cluster &&
    (if p.kind = 0 then i.core == p.core
      else decide (p.level < e.level) && !((myEntries s t).any fun x => x.head == e.head && x.die == p.die && x.cluster == p.cluster &&
        decide (p.level < x.level ∧ x.level < e.level)))

/-- Entries and input numbers that a partial of a head fills. -/
def consumers (s : State) (t : Step) (head : Nat) (p : PartSrc) : List (MergeEntry × Nat) :=
  ((planEntries s t).filter fun e => e.head == head).flatMap fun e =>
    (e.inputs.zipIdx.filter fun x => takesInput s t e x.1 p).map fun x => (e, x.2)

/-- Query heads whose plan takes a partial of a core. -/
def coreHeads (s : State) (t : Step) (core : Nat) : List Nat :=
  ((planEntries s t).filter fun e => e.inputs.any fun i =>
    takesInput s t e i { kind := 0, die := core / 16, cluster := core % 16 / 4, core := core % 4 }).map (·.head) |>.eraseDups

/-! ### Rim-merge units (04 R108 to R110) -/

def clusterKey (die cluster : Nat) : Nat := 4 * die + cluster

def rimSlots (s : State) (k : Nat) : List RimSlot := tget [] s.attn.rim k

def setRim (s : State) (k : Nat) (v : List RimSlot) : State :=
  { s with attn := { s.attn with rim := tset [] s.attn.rim k v } }

def attnEvent (s : State) (k bit : Nat) : State := raise s (Off.ATTN_STATUS (k / 4)) (2 ^ bit) [(24, 4, k % 4 * 4)]

/-- Records dropped at a unit (R108, R110). -/
def dropBad (s : State) (k : Nat) : State := attnEvent (countSat s (Off.ATTN_DROP_BAD (k / 4)) 1) k 2
def dropStale (s : State) (k : Nat) : State := attnEvent (countSat s (Off.ATTN_DROP_STALE (k / 4)) 1) k 3
def dropDup (s : State) (k : Nat) : State := countSat s (Off.ATTN_DROP_DUP (k / 4)) 1

/-- A filled slot of the same key (R109). A head's merges of two levels may stand at one unit, so the level that R107 gives the
receiver is part of the key (DEDUCED). -/
def slotFilled (s : State) (k : Nat) (x : RimSlot) : Bool :=
  (rimSlots s k).any fun y => y.tag == x.tag && y.attempt == x.attempt && y.head == x.head && y.slot == x.slot && y.level == x.level

/-- The slot of an input of a stream of the batch: with more than one stream an entry's input list is each stream's in turn
(DESIGN CHOICE: R107 has no field for the stream). -/
def slotIx (e : MergeEntry) (si i : Nat) : Nat := si * e.inputs.length + i

/-- The stream of the batch that a slot of an entry belongs to. -/
def slotStream (e : MergeEntry) (slot : Nat) : Nat := slot / e.inputs.length

/-- The entry of this node that a record is bound for. -/
def entryAt (s : State) (t : Step) (k head level : Nat) : Option MergeEntry :=
  (myEntries s t).find? fun e => e.head == head && e.level == level && clusterKey e.die e.cluster == k

def mergeMark (si : Nat) (e : MergeEntry) : Nat × Nat × Nat × Nat × Nat := (si, e.head, e.level, e.die, e.cluster)

def hasMerged (t : Step) (si : Nat) (e : MergeEntry) : Bool := t.merged.contains (mergeMark si e)

/-- Place a record of an admitted step in its slot: dropped where the cluster is not READY, and as a duplicate where the slot
is filled or its entry has merged already (DESIGN CHOICE: R110 speaks of a filled slot; that of a merged entry is free again). -/
def placeRec (s : State) (t : Step) (e : MergeEntry) (x : RimSlot) : State :=
  let k := clusterKey e.die e.cluster
  if clusterSt s k ≠ .ready then dropBad s k
  else if slotFilled s k x || hasMerged t (slotStream e x.slot) e then dropDup s k
  else setRim s k (rimSlots s k ++ [x])

/-! ### Sending (11 R275, R276) -/

/-- Frames of a step that have not left their class queue find their route when one exists. A target outside the group is no
node. -/
def sendUnsent (s : State) (t : Step) : State :=
  let r := t.unsent.foldl (fun (st : List Frame × State) f =>
    if f.dst ≥ 2 ^ 14 then (st.1 ++ [f], st.2)
    else match sendFrame st.2 t.ctx f with
      | some s' => (st.1, s')
      | none => (st.1 ++ [f], st.2)) ([], s)
  match findStep r.2 t.desc.id with
  | some u => putStep r.2 { u with unsent := r.1 }
  | none => r.2

/-- A partial record leaves for another rank (R107, R109). A spare in SHADOW sends none. -/
def sendPartial (s : State) (t : Step) (rank : Nat) (p : Partial) (head slot level : Nat) : State :=
  if inShadow s then s
  else
    let d := (imageOf s t.handle).geo.d
    let f : Frame := { op := 0x20, tc := 1, dst := t.rankGroup.getD rank (2 ^ 14),
                       body := p.record t.desc.tag t.desc.attempt head d (nodeNum s) slot level }
    match findStep s t.desc.id with
    | none => s
    | some u => sendUnsent s { u with unsent := u.unsent ++ [f] }

/-- A record a die writes carries o in BF16 where the variant asks for it and the die allows it (R41 item 5, R119). -/
def asRecord (s : State) (t : Step) (die : Nat) (p : Partial) : Partial :=
  if (variantOf s t).bf16 && rbit s (Off.ATTN_PARTIAL_CTRL die) 1 then p.narrow else { p with bf16 := false }

/-! ### Shadow (16 R403 to R405) -/

def fp8OrBf16 (s : State) : Nat := if rbit s Off.FAULT_SHADOW_CFG 0 then 1 else 3

/-- The ordered integer of a code: its magnitude, negated under a sign bit. -/
def orderedInt (w c : Nat) : Int := if bitOf c (w - 1) then -((c % 2 ^ (w - 1) : Nat) : Int) else (c % 2 ^ (w - 1) : Nat)

/-- Elements of two records that differ by more than the tolerance (R404). -/
def badElems (s : State) (a b : Partial) : Nat :=
  let f := fp8OrBf16 s
  let w := fmtWidth f
  let code (p : Partial) (o : Word) := orderedInt w (elemBits f {} (f32 (div32 o p.l)))
  (a.o.zip b.o).countP fun x => decide ((code a x.1 - code b x.2).natAbs > rf s Off.FAULT_SHADOW_CFG 4 8)

def headMismatch (s : State) (a b : Partial) : Bool :=
  if a.empty && b.empty || a.nan && b.nan then false
  else if a.empty != b.empty || a.nan != b.nan then true
  else (!a.sparse && a.covered != b.covered) || decide (badElems s a b > rf s Off.FAULT_SHADOW_CFG 16 12)

/-- Compare a pair (R404, R405). A pair of unequal p8l or sparse flags is skipped. -/
def shadowCompare (s : State) (a b : Partial) : State :=
  if a.p8l != b.p8l || a.sparse != b.sparse then s
  else
    let bad := headMismatch s a b
    let h := s.fault.shadow
    let h := { h with compared := sat32 (h.compared + 1), mismatch := sat32 (h.mismatch + b2n bad) }
    let s := { s with fault := { s.fault with shadow := h } }
    let tooMany := decide (h.mismatch > rf s Off.FAULT_SHADOW_LIMIT 0 16)
    let s := if bad && tooMany then raise s Off.FAULT_STATUS 64 else s
    if h.compared = rf s Off.FAULT_SHADOW_LIMIT 16 16 && !tooMany then raise s Off.FAULT_STATUS 32 else s

/-- Key of a shadow record: the head, and with more than one stream the slot the record has at its receiver. -/
def shadowHead (head slot : Nat) (batched : Bool) : Nat := head + if batched then 1024 * (slot + 1) else 0

/-- A record of this node and one of its primary are a pair (R403). -/
def shadowPair (own prim : Nat × Nat × Nat × Partial) : Bool :=
  own.1 == prim.1 && own.2.1 == prim.2.1 && own.2.2.1 % 1024 == prim.2.2.1 % 1024 && (own.2.2.1 < 1024 || own.2.2.1 == prim.2.2.1)

/-- A record of one side meets the other side's of the same key, or waits for it. -/
def shadowTake (s : State) (own : Bool) (tag attempt head : Nat) (p : Partial) : State :=
  let h := s.fault.shadow
  let x := (tag, attempt, head, p)
  let same (y : Nat × Nat × Nat × Partial) : Bool := y.1 == tag && y.2.1 == attempt && y.2.2.1 == head
  let put (h : Shadow) (s : State) : State := { s with fault := { s.fault with shadow := h } }
  if own then
    match h.prim.find? (shadowPair x) with
    | some y => shadowCompare (put { h with prim := h.prim.filter fun z => z != y } s) p y.2.2.2
    | none => put { h with own := h.own.filter (fun y => !same y) ++ [x] } s
  else
    match h.own.find? fun y => shadowPair y x with
    | some y => shadowCompare (put { h with own := h.own.filter fun z => z != y } s) y.2.2.2 p
    | none => put { h with prim := h.prim.filter (fun y => !same y) ++ [x] } s

def shadowUnmatched (tag attempt head : Nat) (s : State) : State :=
  let h := s.fault.shadow
  let same (x : Nat × Nat × Nat × Partial) : Bool := x.1 == tag && x.2.1 == attempt && x.2.2.1 % 1024 == head % 1024
  if h.prim.any same then
    { s with fault := { s.fault with
               shadow := { h with prim := h.prim.filter (fun y => !same y), unmatched := sat32 (h.unmatched + h.prim.countP same) } } }
  else s

/-- SHADOW_UNMATCHED (R403). -/
def execShadowUnmatched (tag attempt head : Nat) (s : State) : Host.Outcome State Fault Refusal :=
  whileAlive s (shadowUnmatched tag attempt head s)

/-! ### Results (04 R106, R114) -/

/-- A result cut where a store may not cross a 4 KiB boundary (11 R277). -/
def storeChunks : Nat → Nat → Bytes → List (Nat × Bytes)
  | 0, _, _ => []
  | _ + 1, _, [] => []
  | fuel + 1, a, b :: bs =>
    let n := 4096 - a % 4096
    (a, (b :: bs).take n) :: storeChunks fuel (a + n) ((b :: bs).drop n)

/-- Stores of a result to a global address, for the step (11 R286), issued by the cluster that holds it. No rule gives the region key they carry: it is free. -/
def storeResult (s : State) (t : Step) (cluster a : Nat) (data : Bytes) : State :=
  let key := free64 s
  (storeChunks 8 a data).foldl (fun s c =>
    match issueReq s t.ctx (.rim t.desc.id) { op := 2, tc := 2, dst := fld c.1 48 14, key := key.1.toNat % 2 ^ 32,
                                              size := c.2.length, addr := c.1, body := c.2 } (some (2, cluster)) with
    | some s' => s'
    | none => match findStep s t.desc.id with
      | some u => putStep s { u with status := St.NO_ROUTE }
      | none => s) key.2

/-- Where the result of a head and stream goes (R114, 10 R258). -/
def resultAt (s : State) (t : Step) (e : MergeEntry) (si : Nat) : Nat :=
  t.desc.n 40 8 / 64 * 64 + (si * (imageOf s t.handle).geo.hq + e.head) * t.desc.n 48 4

/-- The slot that the output of a level-2 merge has at its receiver; the stream's number where it is the head's last (R403). -/
def shadowSlot (s : State) (t : Step) (e : MergeEntry) (si : Nat) : Nat :=
  match (consumers s t e.head { kind := 1, die := e.die, cluster := e.cluster, level := e.level }).head? with
  | some c => slotIx c.1 si c.2
  | none => si

/-- The final partial of a head is written, and its flags join the completion's (R106). A final PARTIAL record has no receiving
merge node: its slot is 0 and its level the entry's (DESIGN CHOICE). A spare in SHADOW writes no output. -/
def writeResult (s : State) (t : Step) (e : MergeEntry) (si : Nat) (p : Partial) : State :=
  let d := t.desc
  let g := (imageOf s t.handle).geo
  let part := bitOf d.ctl 0
  let data := if part then (asRecord s t e.die p).record d.tag d.attempt e.head g.d (nodeNum s) 0 e.level
    else p.normalised (fld d.ctl 1 2)
  let a := resultAt s t e si
  let s := match findStep s d.id with
    | some u => putStep s { u with flags := u.flags ||| (if p.empty && !part then 2 else 0) ||| (if p.nan then 4 else 0) }
    | none => s
  if inShadow s then s
  else if bitOf d.ctl 7 then storeResult s t (e.die * 4 + e.cluster) a data
  else hostOut s d a data true

/-! ### The merge (04 R102 to R105) -/

/-- Bytes of a final result. -/
def resultLen (s : State) (t : Step) (e : MergeEntry) : Nat :=
  let d := (imageOf s t.handle).geo.d
  if bitOf t.desc.ctl 0 then cdiv (recordLen d ((variantOf s t).bf16 && rbit s (Off.ATTN_PARTIAL_CTRL e.die) 1)) 32 * 32
  else plainBytes (fld t.desc.ctl 1 2) d

/-- Request tags that no request holds. -/
def freeTags (s : State) : Nat := 65536 - s.fab.reqs.length

/-- A final result that goes out as stores waits for a free tag for each, and while its context is QUIESCED (11 R286, R287). -/
def resultWaits (s : State) (t : Step) (e : MergeEntry) (si : Nat) : Bool :=
  e.final && bitOf t.desc.ctl 7 && !inShadow s &&
    ((ctxOf s t.ctx).quiesced || decide (freeTags s < (storeChunks 8 (resultAt s t e si) (zeros (resultLen s t e))).length))

/-- The slot holds an input of an entry for a stream. -/
def slotOf (t : Step) (si : Nat) (e : MergeEntry) (y : RimSlot) : Bool :=
  y.tag == t.desc.tag && y.attempt == t.desc.attempt && y.head == e.head && y.level == e.level && slotStream e y.slot == si

/-- The inputs of an entry that are there, in the plan's order. -/
def inputsHere (s : State) (t : Step) (si : Nat) (e : MergeEntry) : List (Option RimSlot) :=
  let mine := (rimSlots s (clusterKey e.die e.cluster)).filter (slotOf t si e)
  (List.range e.inputs.length).map fun i => mine.find? fun y => y.slot == slotIx e si i

/-- An entry of the step, not yet merged for a stream, with every input filled. -/
def readyMerge (s : State) (t : Step) : Option (Nat × MergeEntry) :=
  (List.range t.streams.length).findSome? fun si => (myEntries s t).findSome? fun e =>
    if !hasMerged t si e && (inputsHere s t si e).all (·.isSome) && !resultWaits s t e si then some (si, e) else none

/-- Every entry at a unit has merged for the streams of the batch before one. -/
def earlierMerged (s : State) (t : Step) (k si : Nat) : Bool :=
  (List.range si).all fun j => (myEntries s t).all fun e => clusterKey e.die e.cluster != k || hasMerged t j e

/-- Records of this node that wait at their sender go to their units: while a unit has a free slot (R109), and one stream of a batch
after the other (DESIGN CHOICE), since R131 bounds the inputs of one. -/
def placeQueued (s : State) (id : Nat) : State :=
  match findStep s id with
  | none => s
  | some t0 =>
    t0.queued.foldl (fun s x =>
      match findStep s id with
      | none => s
      | some t => match entryAt s t x.1 x.2.head x.2.level with
        | none => s
        | some e =>
          if (rimSlots s x.1).length < 256 && earlierMerged s t x.1 (slotStream e x.2.slot) then placeRec s t e x.2
          else putStep s { t with queued := t.queued ++ [x] }) (putStep s { t0 with queued := [] })

/-- A record of this node for an entry of it waits at its sender. -/
def queueRec (s : State) (t : Step) (e : MergeEntry) (x : RimSlot) : State :=
  match findStep s t.desc.id with
  | some u => putStep s { u with queued := u.queued ++ [(clusterKey e.die e.cluster, x)] }
  | none => s

/-- Deliver a partial to the inputs that take it (R102, R109). -/
def deliver (s : State) (t : Step) (si head : Nat) (src : PartSrc) (p : Partial) : State :=
  (consumers s t head src).foldl (fun s c =>
    let e := c.1
    let own := e.die == src.die && e.cluster == src.cluster
    let q := if src.kind = 1 && own && e.at (myRank s t) == myRank s t then p else asRecord s t src.die p
    if e.at (myRank s t) = myRank s t then
      (if inShadow s && e.level > 2 then s
        else queueRec s t e { tag := t.desc.tag, attempt := t.desc.attempt, head := head, level := e.level, slot := slotIx e si c.2,
                              src := nodeNum s, part := q })
    else sendPartial s t (e.at (myRank s t)) q head (slotIx e si c.2) e.level) s

/-- The merges of a rim-merge unit, as the counters of the four cores of its cluster show them (R119). -/
def countMerges (s : State) (e : MergeEntry) (n : Nat) : State :=
  (List.range 4).foldl (fun s c => count s (ckey (Off.ATTN_CNT_LO e.die) 5 (4 * e.cluster + c)) n) s

/-- Internal merges of an entry that have run. -/
def ranOf (t : Step) (m : Nat × Nat × Nat × Nat × Nat) : Nat := ((t.ran.find? fun x => x.1 == m).map (·.2)).getD 0

/-- The internal merges of one entry whose children exist run (R105). -/
def runInner (s : State) (id si : Nat) (e : MergeEntry) : State :=
  match findStep s id with
  | none => s
  | some t =>
    let here := (inputsHere s t si e).map (·.isSome)
    let n := treeRuns here.length here
    let m := mergeMark si e
    let old := ranOf t m
    if hasMerged t si e || n ≤ old then s
    else putStep (countMerges s e (n - old)) { t with ran := t.ran.filter (fun x => x.1 != m) ++ [(m, n)] }

/-- Records that wait are placed, and the internal merges that can run do. -/
def advanceMerges (s : State) (id : Nat) : State :=
  let s := placeQueued s id
  match findStep s id with
  | none => s
  | some t => ((List.range t.streams.length).flatMap fun si => (myEntries s t).map fun e => (si, e)).foldl
    (fun s x => runInner s id x.1 x.2) s

/-- A level-2 output in a shadow pair: the spare keeps its own for the comparison, any other node copies it for a spare (16 R403). -/
def shadowOutput (s : State) (t : Step) (e : MergeEntry) (si : Nat) (p : Partial) : State :=
  let slot := shadowSlot s t e si
  if e.level ≠ 2 then s
  else if inShadow s then shadowTake s true t.desc.tag t.desc.attempt (shadowHead e.head slot (t.streams.length > 1)) p
  else emit s (.shadowCopy ((asRecord s t e.die p).record t.desc.tag t.desc.attempt e.head (imageOf s t.handle).geo.d (nodeNum s) slot e.level))

/-- The last merge of an entry has run: its slots are freed, its output goes on. -/
def runMerge (s : State) (t : Step) (si : Nat) (e : MergeEntry) : State :=
  let k := clusterKey e.die e.cluster
  let p := mergeAll ((inputsHere s t si e).filterMap fun y => y.map (·.part))
  let s := setRim s k ((rimSlots s k).filter fun y => !slotOf t si e y)
  let s := putStep s { t with merged := t.merged ++ [mergeMark si e] }
  let s := shadowOutput s t e si p
  if e.final then writeResult s t e si p
  else deliver s t si e.head { kind := 1, die := e.die, cluster := e.cluster, level := e.level } p

/-- Run the merges of a step that can run, until none can. The brake holds the units (14 R344). -/
def runMerges : Nat → State → Nat → State
  | 0, s, _ => s
  | fuel + 1, s, id =>
    if braked s then s
    else
      let s := advanceMerges s id
      match findStep s id with
      | none => s
      | some t => match readyMerge s t with
        | none => s
        | some (si, e) => runMerges fuel (runMerge s t si e) id

/-- Bound on the merges of a step. -/
def mergeFuel (s : State) (t : Step) : Nat := t.streams.length * (planEntries s t).length + 1

def settleMerges (s : State) (id : Nat) : State :=
  match findStep s id with
  | none => s
  | some t => if t.kind = 1 then runMerges (mergeFuel s t) s id else s

/-- Merges that waited, for the brake or a quiesced context, run (14 R346, 11 R287). -/
def resumeMerges (s : State) : State := (liveSteps s).foldl settleMerges s

/-! ### ATTEND (05 R137 to R140) -/

/-- Held records of the step are checked against its plan once it is admitted (R108, R109). -/
def checkHeld (s : State) (t : Step) : State :=
  s.attn.rim.foldl (fun s e =>
    let bad (x : RimSlot) : Bool := x.tag == t.desc.tag && x.attempt == t.desc.attempt && (match entryAt s t e.1 x.head x.level with
      | some m => x.part.o.length != (imageOf s t.handle).geo.d || decide (slotStream m x.slot ≥ t.streams.length)
      | none => true)
    let n := e.2.countP bad
    if n = 0 then s
    else
      let s := setRim s e.1 (e.2.filter fun x => !bad x)
      attnEvent (countSat s (Off.ATTN_DROP_BAD (e.1 / 4)) n) e.1 2) s

/-- The step an ATTEND becomes: streams with their positions, committed lengths and block entries of this cycle (R18, R92). -/
def attendStep (s : State) (d : Desc) (a : AttendArgs) (v : Nat) : Step :=
  let layer := d.n 16 2
  { variant := v, rankGroup := a.group, query := a.query,
    streams := a.streams.map fun x =>
      let st := (streamAt s x.1).getD {}
      { stream := x.1, position := if bitOf d.ctl 3 then x.2 else st.len layer, committed := st.len layer, entries := st.layer layer } }

/-- NaNs that the conversion of a query squashed: flagged in the completion, counted for the context (02 R35). -/
def countSquashed (s : State) (d : Desc) (n : Nat) : State :=
  if n = 0 then s
  else
    let c := ctxOf s d.ring
    let s := setCtx s d.ring { c with fmtExceptions := c.fmtExceptions + n }
    match findStep s d.id with
    | some t => putStep s { t with flags := t.flags ||| 1 }
    | none => s

/-- Admission of an ATTEND: lower attempts of its tag lose their slots (R110). -/
def attendAdmit (s : State) (d : Desc) (a : AttendArgs) (v energy : Nat) (degraded : Bool) : State :=
  let s := countAdmit (admitStep s d energy (attendStep s d a v)) degraded
  let img := imageOf s d.handle
  let nans := squashedQuery img.geo (img.variants.getD v {}) d.ctl (d.n 26 1) a.query
  let s := countSquashed s d nans
  let s := freeSlots s fun x => x.tag == d.tag && decide (x.attempt < d.attempt)
  let s := { s with attn := { s.attn with tags := tmod 0 s.attn.tags d.tag fun n => max n (d.attempt + 1) } }
  match findStep s d.id with
  | none => s
  | some t => settleMerges (checkHeld s t) d.id

/-- A chosen osier variant names a program that passes R182. -/
def attendProgramOk (img : Image) (v : Nat) : Bool :=
  let r := img.variants.getD v {}
  !r.osier || programOk img r.osierProg 0

def attend (id : Nat) (hv : AddrView) (s : State) : State :=
  match findDesc s id with
  | none => s
  | some d =>
    if d.kind ≠ 1 || !descReady s d then s
    else match attendRefusal s d with
      | some e => refuse s d e
      | none =>
        let img := imageOf s d.handle
        match attendArgs hv d img.geo with
        | .error e => refuse s d e
        | .ok a => match a.streams.findSome? fun x => (streamStatus s d.ring x.1).map fun e => (x.1, e) with
          | some (n, e) => refuse s d e 0 (ownerResults s n)
          | none =>
            let cls (n : Nat) : Nat := ((streamAt s n).map (·.cls)).getD 0
            let ns := a.streams.map (·.1)
            match weftReq s d (some ns) with
            | none => refuse s d St.NO_VARIANT
            | some (r, e) =>
              if !ns.all fun n => cls n == r.cls then refuse s d St.NO_VARIANT
              else match pickVariant s img r e with
                | .noVariant => refuse s d St.NO_VARIANT
                | .wait => if rankOk s img a.group then noteStreams s d ns else refuse s d St.RANK_GROUP
                | .take v energy degraded =>
                  if !rankOk s img a.group then refuse s d St.RANK_GROUP
                  else if !attendProgramOk img v then refuse s d St.OSIER_PROGRAM
                  else
                    let s := noteStreams s d ns
                    if !mayAdmit s id then s else attendAdmit s d a v energy degraded

/-- ATTEND (R137 to R140; 04 R110). -/
def execAttend (id : Nat) (hv : HostView) (s : State) : Host.Outcome State Fault Refusal := whileAlive s (attend id (descView s id hv) s)

/-! ### SLOT_FILL (04 R115, R116; 05 R130; 08 R199, R200) -/

def addNew (xs ys : List Nat) : List Nat := ys.foldl (fun acc y => if acc.contains y then acc else acc ++ [y]) xs

/-- Blocks placed by items 1 to 3 of R115, at most `n`. The last blocks take their slots in ascending order (DESIGN CHOICE). -/
def pinned (v : Variant) (bs : List (Nat × BlockEntry)) : List Nat :=
  let ns := bs.map (·.1)
  let old := (bs.filter fun b => !b.2.sketch).map (·.1)
  (addNew (addNew (addNew [] (ns.take v.pFirst)) (ns.drop (ns.length - v.pLast))) old).take v.nSlots

/-- The sketch query of a KV head (R199). -/
def headSketch (s : State) (g : Geometry) (v : Variant) (t : Step) (si kv : Nat) : Bytes :=
  let per := g.hq / g.hkv
  let rows := (List.range per).map fun h => queryRow g v t.desc.ctl t.query si (kv * per + h)
  packBits (project (sketchSeed s t.ctx) (8 * sketchBytes g.sketch) (sumRows g.d rows))

/-- Blocks whose sketches the engine compares (R200). -/
def sketched (v : Variant) (bs : List (Nat × BlockEntry)) : List (Nat × BlockEntry) :=
  let done := pinned v bs
  bs.filter fun b => b.2.tier ≤ 1 && b.2.sketch && !done.contains b.1

/-- The engine's selection: candidates in ascending distance, ties to the lower block (R200). -/
def selected (s : State) (g : Geometry) (v : Variant) (t : Step) (si kv : Nat) (bs : List (Nat × BlockEntry)) : List Nat :=
  let done := pinned v bs
  let q := headSketch s g v t si kv
  let dist := (sketched v bs).map fun b => (hamming q (getFrame s t.ctx b.2.pfn 64 (sketchBytes g.sketch)), b.1)
  ((sortBy (fun (a b : Nat × Nat) => a.1 < b.1 || (a.1 = b.1 && a.2 < b.2)) dist).map (·.2)).take (v.nSlots - done.length)

/-- Blocks of a KV head in slot order. -/
def headBlocks (s : State) (t : Step) (si kv : Nat) (es : Tbl BlockEntry) : List Nat :=
  let g := (imageOf s t.handle).geo
  let v := variantOf s t
  let bs := slotBlocks v es kv
  if v.sparse then pinned v bs ++ selected s g v t si kv bs else bs.map (·.1)

/-- Slots of a stream: groups in order; in a sparse variant a head's groups take its blocks one after another. -/
def fillStream (s : State) (t : Step) (si : Nat) (es : Tbl BlockEntry) : List PageSlot :=
  let v := variantOf s t
  let groups := shapeOf (imageOf s t.handle) v
  let used (ix : Nat) (g : SlotGroup) : Nat := headSlots (groups.take ix) g.kvHead
  groups.zipIdx.flatMap fun x =>
    let g := x.1
    let from' := if v.sparse then used x.2 g else g.first
    (((headBlocks s t si g.kvHead es).drop from').take g.count).map fun b => { si := si, core := g.core, kvHead := g.kvHead, block := some b }

/-- Page selections an engine made and the sketches it compared: one for each KV head, on the die of its first slot group. The reads
wake the stacks of the sketches (14 R356). -/
def countSelections (s : State) (t : Step) : State :=
  let v := variantOf s t
  if !v.sparse then s
  else
    let groups := shapeOf (imageOf s t.handle) v
    ((groups.map (·.kvHead)).eraseDups).foldl (fun s kv => match groups.find? fun g => g.kvHead == kv with
      | some g =>
        let bs := t.streams.flatMap fun (x : StepStream) => sketched v (slotBlocks v x.entries kv)
        let n := bs.length
        let s := (bs.map (·.2.pfn)).foldl wakeFrame s
        count (count s (ckey (Off.COMA_CNT_LO (g.core / 16)) 1 0) t.streams.length) (ckey (Off.COMA_CNT_LO (g.core / 16)) 3 0) n
      | none => s) s

/-- A step fault whose source the table of R387 does not list: its source is free. -/
def freeStepFault (s : State) (t : Step) (status detail peer : Nat) : State :=
  let f := free64 s
  endFault (faultReportAs f.2 1 (stepRecord t { source := f.1.toNat % 256, status := status, detail := detail, peer := peer })) t

/-- Remote blocks of the slots: stream of the batch, KV head, block, entry. -/
def remoteSlots (t : Step) : List (Nat × Nat × Nat × BlockEntry) :=
  t.slots.filterMap fun p => match slotEntry t p with
    | some (b, e) => if e.tier = 2 then some (p.si, p.kvHead, b, e) else none
    | none => none

/-- Remote attention: the descriptor, this node's rank and the query rows go to each holder (12 R291, R296). With more than one
stream the descriptor is rewritten for its stream (DESIGN CHOICE). -/
def askHolders (s : State) (t : Step) : State :=
  let g := (imageOf s t.handle).geo
  let asks := ((remoteSlots t).map fun r => (r.1, r.2.2.2.node)).eraseDups
  let rowLen := g.hq * g.d * (fmtWidth (hostFmt t.desc.ctl) / 8)
  asks.foldl (fun s a =>
    if (findStep s t.desc.id).isNone then s
    else
      let x := t.streams.getD a.1 {}
      let b := t.desc.bytes
      let desc := if t.streams.length = 1 then b
        else putAt (putAt (putAt (putAt b 4 (putLe 4 x.stream)) 25 (putLe 1 (t.desc.ctl ||| 8))) 26 (putLe 1 1 ++ putLe 1 a.1)) 28
          (putLe 4 x.position)
      match sendMsg s t.ctx a.2 0x30 t.desc.id (desc ++ putLe 2 (myRank s t) ++ slice t.query (a.1 * rowLen) rowLen) with
      | some s' => s'
      | none => freeStepFault s t St.NO_PATH 0 a.2) s

/-- Fetch the pages of a remote block of a step over the queue pair to its holder (03 R62, 12 R294). `si` is the place of its stream
among the step's. -/
def fetchBlock (s : State) (t : Step) (si stream key : Nat) (e : BlockEntry) : State :=
  if (findStep s t.desc.id).isNone then s
  else match pathQp s t.ctx e.node with
    | none => freeStepFault s t St.NO_PATH e.pfn e.node
    | some qpn =>
      let s := postWr s qpn { op := 4, length := 1, remote := e.pfn, wrId := t.desc.id,
                              page := stream + key / 2 ^ 34 % 1024 * 2 ^ 24 + key / 2 ^ 26 % 256 * 2 ^ 34, block := key % 2 ^ 26 }
      match findStep s t.desc.id with
      | some u => putStep s { u with awaits := u.awaits ++ [(si, key)] }
      | none => s

/-- Remote read: each remote page of an ATTEND's slots is fetched. -/
def readRemote (s : State) (t : Step) : State :=
  (remoteSlots t).foldl (fun s r =>
    fetchBlock s t r.1 (t.streams.getD r.1 {}).stream (blockKey (t.desc.n 16 2) r.2.1 r.2.2.1) r.2.2.2) s

/-! ### CORE_PASS_END (04 R88 to R102) -/

/-- A slot of a core that its pass reads: stream of the batch, KV head, block, entry. A remote block of a remote-attention
variant is left to its holder. -/
def coreBlocks (s : State) (t : Step) (core : Nat) : List (Nat × Nat × Nat × BlockEntry) :=
  (t.slots.filter fun p => p.core == core).filterMap fun p => match slotEntry t p with
    | some (b, e) => if e.tier = 2 && (variantOf s t).remote then none else some (p.si, p.kvHead, b, e)
    | none => none

/-- The pages of a remote block have arrived. -/
def arrived (t : Step) (si key : Nat) : Option (Bytes × Bytes) :=
  (t.pages.find? fun p => p.1 == si && p.2.1 == key).map (·.2.2)

/-- A block as a core reads it: its local frames, or the remote pages in the operand buffer. -/
def coreBlock (s : State) (t : Step) (si kv b : Nat) (e : BlockEntry) : Except (PageBad × Nat) PageData :=
  let g := (imageOf s t.handle).geo
  let x := t.streams.getD si {}
  let layer := t.desc.n 16 2
  if e.tier = 2 then
    match arrived t si (blockKey layer kv b) with
    | none => .error (.header, e.pfn)
    | some (p, sp) =>
      readFrames s g (placeIn t.ctx layer x.stream kv b e) ((0xFFFFFFFF, p) :: if sp.isEmpty then [] else [(0xFFFFFFFF, sp)])
  else readBlock s g t.ctx layer x.stream kv b e

/-- Read a core's blocks in slot order, up to the first bad page. -/
def coreRead (s : State) (t : Step) :
    List (Nat × Nat × Nat × BlockEntry) → Except (PageBad × Nat) (List (Nat × Nat × Nat × PageData))
  | [] => .ok []
  | (si, kv, b, e) :: rest => match coreBlock s t si kv b e with
    | .error x => .error x
    | .ok d => match coreRead s t rest with
      | .error x => .error x
      | .ok r => .ok ((si, kv, b, d) :: r)

/-- Frame slots a block takes in the operand buffer: its frames, or its plain size where the DMA expander decodes it (R88). -/
def bufferSlots (s : State) (g : Geometry) (d : PageData) (e : BlockEntry) : Nat :=
  if d.use.all fun u => portDecodes s u.1 then (blockFrames e).length
  else
    let w := fmtWidth g.kFmt + fmtWidth g.vFmt
    cdiv (d.rows.length * (g.d * w / 8 + if bitOf g.modes 0 then 2 * (g.d / 32) else 0)) frameBytes

/-- A block that a core reads in its passes over one KV head of one stream. -/
structure PassBlock where
  stream : Nat
  kv : Nat
  block : Nat
  entry : BlockEntry
  data : PageData
  passes : Nat

/-- Passes over a KV head of a stream: 64 query rows each; a batch may list the stream for several query positions (R90, R100). -/
def passCount (g : Geometry) (t : Step) (stream : Nat) : Nat :=
  cdiv (t.streams.countP (fun x => x.stream == stream) * (g.hq / g.hkv)) 64

/-- The blocks of a core's passes, each once. -/
def passBlocks (s : State) (t : Step) (core : Nat) (bs : List (Nat × Nat × Nat × PageData)) : List PassBlock :=
  let g := (imageOf s t.handle).geo
  let all : List PassBlock := ((coreBlocks s t core).zip bs).map fun x =>
    let n := (t.streams.getD x.1.1 {}).stream
    { stream := n, kv := x.1.2.1, block := x.1.2.2.1, entry := x.1.2.2.2, data := x.2.2.2.2, passes := passCount g t n }
  all.foldl (fun acc x => if acc.any fun y => y.stream == x.stream && y.kv == x.kv && y.block == x.block then acc else acc ++ [x]) []

/-- A block is decoded once for each pass by the port expander, and once for each read by the DMA expander (R88, 06 R157). -/
def countBlock (s : State) (core reads : Nat) (b : PassBlock) : State :=
  b.data.use.foldl (fun s u => (List.range (if portDecodes s u.1 then b.passes else reads)).foldl (fun s _ => countDecode s core u) s) s

/-- Counters of a core's passes (R119). Where its blocks take more than the 512 frame slots of the operand buffer, every further pass
reads them again (R90; DESIGN CHOICE: no rule says which blocks the buffer still holds). MACs are counted for every position read,
masked or not, without the padding of groups, and divided by 64 once for a pass end, rounding down (DESIGN CHOICE). -/
def countPass (s : State) (t : Step) (core : Nat) (bs : List (Nat × Nat × Nat × PageData)) (heads : Nat) : State :=
  let g := (imageOf s t.handle).geo
  let k (ev : Nat) : Nat := ckey (Off.ATTN_CNT_LO (core / 16)) ev (core % 16)
  let ps := passBlocks s t core bs
  let again := decide ((ps.map fun b => bufferSlots s g b.data b.entry).sum > 512)
  let reads (b : PassBlock) : Nat := if again then b.passes else 1
  let groups := (ps.map fun b => (b.stream, b.kv, b.passes)).eraseDups
  let more := (groups.map fun x => x.2.2 - 1).sum
  let s := ps.foldl (fun s b => countBlock s core (reads b) b) s
  let macs := (bs.map fun b => b.2.2.2.rows.length).sum * (g.hq / g.hkv) * g.d
  let s := count (count (count s (k 1) (macs / 64)) (k 2) (macs / 64)) (k 3) (ps.map reads).sum
  let s := count s (k 4) heads
  if again && more != 0 then raise (count s (k 7) more) (Off.ATTN_STATUS (core / 16)) 16 [(24, 4, core % 16)] else s

/-- The partial of one query head of one stream. -/
def corePartial (s : State) (t : Step) (si head : Nat) (bs : List (Nat × Nat × Nat × PageData)) : Partial :=
  let g := (imageOf s t.handle).geo
  let v := variantOf s t
  let x := t.streams.getD si {}
  let kv := head / (g.hq / g.hkv)
  let blocks := (bs.filter fun b => b.1 == si && b.2.1 == kv).map fun b => (b.2.2.1, b.2.2.2.rows)
  (stepJob s t x).row (queryRow g v t.desc.ctl t.query si head) x.position blocks

/-- Partials go to the core's cluster and on (R97, R102). -/
def corePartials (s : State) (t : Step) (core : Nat) (part : Nat → Nat → Partial) : State :=
  let heads := coreHeads s t core
  let die := core / 16
  ((List.range t.streams.length).flatMap fun si => heads.map fun h => (si, h)).foldl (fun s x =>
    let p := part x.1 x.2
    let s := if p.nan then raise s (Off.ATTN_STATUS die) 1 [(24, 4, core % 16)] else s
    deliver s t x.1 x.2 { kind := 0, die := die, cluster := core % 16 / 4, core := core % 4 } p) s

/-- Cores of this node that the plan names and the variant's core map does not: they hold no slot and contribute empty partials
(R102). -/
def emptyCores (s : State) (t : Step) : List Nat :=
  let v := variantOf s t
  ((List.range 128).filter fun c => !(coresOf v).contains c && !(coreHeads s t c).isEmpty)

def deliverEmpty (s : State) (t : Step) : State :=
  let v := variantOf s t
  let p : Partial := { emptyPart (imageOf s t.handle).geo.d with p8l := v.p8l, sparse := v.sparse }
  (emptyCores s t).foldl (fun s c => corePartials s t c fun _ _ => p) s

/-- Every engine that has selections of the step has a context for one: more run as contexts become free. -/
def selectionsRun (s : State) (t : Step) : Bool :=
  (List.range 8).all fun die => selectionsOf s t die == 0 || 0 < selecting s die

/-! ### SLOT_FILL, with the empty partials of cores that hold no slot (R102) -/

def slotFill (id : Nat) (s : State) : State :=
  match findStep s id with
  | none => s
  | some t =>
    let v := variantOf s t
    let slots := t.streams.zipIdx.flatMap fun x => fillStream s t x.2 x.1.entries
    if t.kind ≠ 1 || t.filled || (v.sparse && braked s) || (v.osier && unitsHeld s { t with slots := slots }) ||
        !selectionsRun s t then s
    else
      let t := { t with slots := slots, filled := true }
      let s := countSelections (putStep s t) t
      let s := if (remoteSlots t).isEmpty then s else if v.remote then askHolders s t else readRemote s t
      let s := match findStep s id with
        | some t => if v.osier then startAttendUnits s t else s
        | none => s
      settleMerges (deliverEmpty s t) id

/-- SLOT_FILL (05 R130; 04 R115, R116; 07 R187). -/
def execSlotFill (id : Nat) (s : State) : Host.Outcome State Fault Refusal := whileAlive s (slotFill id s)

/-! ### A core's passes end -/

/-- Remote pages a core still waits for. -/
def awaitsPages (s : State) (t : Step) (core : Nat) : Bool :=
  (coreBlocks s t core).any fun b => b.2.2.2.tier == 2 && (arrived t b.1 (blockKey (t.desc.n 16 2) b.2.1 b.2.2.1)).isNone

/-- Local frames a core reads in its pass. -/
def passFrames (s : State) (t : Step) (core : Nat) : List Nat := (coreBlocks s t core).flatMap fun b => entryFrames b.2.2.2

def corePassEnd (id core : Nat) (ecc : MemObs) (s : State) : State :=
  match findStep s id with
  | none => s
  | some t =>
    let v := variantOf s t
    if t.kind ≠ 1 || !t.filled || !(coresOf v).contains core || t.coresDone.contains core || coreFenced s core || braked s then s
    else if v.osier then
      (if !stackHalted s t (groupStack core) then s
        else
          let s := putStep s { t with coresDone := t.coresDone ++ [core] }
          settleMerges (corePartials s t core fun si h => stackPartial s t (groupStack core) si h) id)
    else if awaitsPages s t core then s
    else match lostFrame s (passFrames s t core) ecc, coreRead s t (coreBlocks s t core) with
      | some pfn, _ => stepFault (memEvents s (passFrames s t core) ecc) t 0x10 St.DATA_POISON pfn
      | none, .error (b, pfn) => pageFault (memEvents s (passFrames s t core) ecc) t b pfn
      | none, .ok bs =>
        let s := countPass (memEvents s (passFrames s t core) ecc) t core bs (t.streams.length * (coreHeads s t core).length)
        let s := putStep s { t with coresDone := t.coresDone ++ [core] }
        settleMerges (corePartials s t core fun si h => corePartial s t si h bs) id

/-- CORE_PASS_END (R88 to R102; 07 R187). -/
def execCorePassEnd (id core : Nat) (ecc : MemObs) (s : State) : Host.Outcome State Fault Refusal :=
  whileAlive s (corePassEnd id core ecc s)

/-! ### ATTEND_COMPLETE (01 R17) -/

/-- A record of the step waits in a class queue or is not yet acknowledged by the next hop. -/
def partialsOut (s : State) (t : Step) : Bool :=
  let mine (f : Frame) : Bool := f.op == 0x20 && leAt f.body 12 4 == t.desc.tag && leAt f.body 23 1 == t.desc.attempt
  (s.egr.ports.any fun e => (classFrames e.2 1).any fun (x : QFrame) => mine x.frame) ||
    s.ports.any fun e => (e.2.held.any fun (x : QFrame) => mine x.frame) || e.2.replay.any fun f => match f.frame with
      | some x => mine x.frame
      | none => false

/-- Stores of the step without their response. -/
def storesOut (s : State) (id : Nat) : Bool := s.fab.reqs.any fun e => e.2.src == .rim id

def attendDone (s : State) (t : Step) : Bool :=
  t.filled && (coresOf (variantOf s t)).all (fun c => t.coresDone.contains c) &&
    (List.range t.streams.length).all (fun si => (myEntries s t).all fun e => hasMerged t si e) &&
    t.unsent.isEmpty && !partialsOut s t && !storesOut s t.desc.id

def attendComplete (id : Nat) (s : State) : State :=
  match findStep s id with
  | none => s
  | some t0 =>
    if t0.kind ≠ 1 then s
    else
      let s := sendUnsent s t0
      match findStep s id with
      | none => s
      | some t =>
        if !attendDone s t then s
        else finish (freeUnits s id) t t.status t.flags (putLe 4 t.variant ++ putLe 1 t.desc.attempt ++ putLe 1 (variantOf s t).flags)

/-- ATTEND_COMPLETE (R17; 10 R260). -/
def execAttendComplete (id : Nat) (s : State) : Host.Outcome State Fault Refusal := whileAlive s (attendComplete id s)

/-! ### PARTIAL (04 R108 to R111) -/

/-- A record of a step that is admitted here: checked against its plan, then placed and merged. -/
def takePartial (s : State) (t : Step) (k : Nat) (r : RecHdr) : State :=
  match entryAt s t k r.head r.level with
  | none => dropBad s k
  | some e =>
    if r.d ≠ (imageOf s t.handle).geo.d || slotStream e r.slot ≥ t.streams.length then dropBad s k
    else
      let s := placeRec s t e { tag := r.tag, attempt := r.attempt, head := r.head, level := r.level, slot := r.slot, src := r.src,
                                part := r.part }
      settleMerges s t.desc.id

def holdPartial (s : State) (k : Nat) (r : RecHdr) : State :=
  let x : RimSlot := { tag := r.tag, attempt := r.attempt, head := r.head, level := r.level, slot := r.slot, src := r.src,
                       part := r.part }
  if slotFilled s k x then dropDup s k else setRim s k (rimSlots s k ++ [x])

def partialRec (die cluster : Nat) (rec : Bytes) (s : State) : State :=
  if die > 7 || cluster > 3 || s.fault.st = .fenced || inSafe s then s
  else
    let k := clusterKey die cluster
    let r := parseRecord rec
    if inShadow s && r.src = rf s Off.FAULT_SHADOW_PRIMARY 0 14 then
      (if r.lengthOk && r.crcOk then shadowTake s false r.tag r.attempt (shadowHead r.head r.slot true) r.part else s)
    else if (rimSlots s k).length ≥ 256 then s
    else if !r.lengthOk || (rbit s (Off.ATTN_PARTIAL_CTRL die) 0 && !r.crcOk) || !r.flagsOk || clusterSt s k ≠ .ready then dropBad s k
    else if r.attempt + 1 < tget 0 s.attn.tags r.tag then dropStale s k
    else match stepOf s r.tag r.attempt with
      | some t => takePartial s t k r
      | none => holdPartial s k r

/-- PARTIAL (R108 to R110; 16 R392, R403). While the unit's 256 slots are full the sender keeps the record (R109). -/
def execPartialRec (die cluster : Nat) (rec : Bytes) (s : State) : Host.Outcome State Fault Refusal :=
  whileAlive s (partialRec die cluster rec s)

/-! ### Timers (04 R111, R112) -/

/-- A head of the step that still misses an input of a merge of this node. -/
def openEntry (s : State) (t : Step) (head : Nat) : Option MergeEntry :=
  (myEntries s t).find? fun e => e.head == head && (List.range t.streams.length).any fun si =>
    !hasMerged t si e && (inputsHere s t si e).any (·.isNone)

def mergeTimeout (id head : Nat) (s : State) : State :=
  match findStep s id with
  | none => s
  | some t => if t.kind ≠ 1 then s
    else match openEntry s t head with
      | none => s
      | some e => stepFault (attnEvent s (clusterKey e.die e.cluster) 1) t 0x13 0 0

/-- MERGE_TIMEOUT (R112; 05 R146). R263 numbers no status code of that name: the record's status is 0. -/
def execMergeTimeout (id head : Nat) (s : State) : Host.Outcome State Fault Refusal := whileAlive s (mergeTimeout id head s)

def arrivalTimeout (tag attempt : Nat) (s : State) : State :=
  if (stepOf s tag attempt).isSome then s else staleSlots s fun x => x.tag == tag && x.attempt == attempt

/-- ARRIVAL_TIMEOUT (R111). -/
def execArrivalTimeout (tag attempt : Nat) (s : State) : Host.Outcome State Fault Refusal := whileAlive s (arrivalTimeout tag attempt s)

/-- The brake's release count ends: held merges go on (14 R346). -/
def brakeResume (s : State) : State := if s.brake.releasing then resumeMerges (brakeRelease s) else s

/-- BRAKE_RELEASE (14 R346). -/
def execBrakeRelease (s : State) : Host.Outcome State Fault Refusal := whileAlive s (brakeResume s)

/-! ### Remote attention at the holder (03 R62) -/

/-- The inputs a holder's partial of a head fills at the requester: those not local to it, of this node's rank where a step of
the tag here tells it; the first of them in each entry (DESIGN CHOICE: the message names no rank but the requester's). -/
def remoteInputs (s : State) (img : Image) (e : Sched) (v : Variant) (d : Desc) (peerRank head : Nat) : List (MergeEntry × Nat) :=
  let mine := (stepOf s d.tag d.attempt).map (myRank s)
  let es := (tget [] img.plans v.localPlan ++ tget [] img.plans e.fabricPlan).filter fun m =>
    m.head == head && (m.isLocal || m.rank == peerRank)
  es.filterMap fun m =>
    (m.inputs.zipIdx.find? fun x => !x.1.isLocal && x.1.rank != peerRank && mine.all (· == x.1.rank)).map fun x => (m, x.2)

/-- Attention over this node's own blocks of the stream and layer, in block order, for every query head; each partial goes back
as a PARTIAL frame. -/
def answerRemote (s : State) (ctx peer : Nat) (d : Desc) (peerRank : Nat) (query : Bytes) : State :=
  match streamAt s d.stream, handleRefusal s d.handle with
  | some x, none =>
    let img := imageOf s d.handle
    let layer := d.n 16 2
    match schedOf img 1 x.cls layer with
    | none => s
    | some e => match (variantsOf img e).find? fun v => v.2.remote with
      | none => s
      | some (_, v) =>
        let g := img.geo
        let es := x.layer layer
        let job : CoreJob := { geo := g, var := v, limit := x.len layer }
        let pos := if bitOf d.ctl 3 then d.n 28 4 else x.len layer
        let si := d.n 27 1
        let blocks (kv : Nat) := (headEntries es kv).filter fun b => b.2.tier ≤ 1
        let read (kv : Nat) := (blocks kv).map fun b => (b.1, readBlock s g ctx layer d.stream kv b.1 b.2)
        let bad := (List.range g.hkv).findSome? fun kv => (read kv).findSome? fun r => match r.2 with
          | .error x => some x
          | .ok _ => none
        match bad with
        | some (b, pfn) => faultReportAs (noteBad s b pfn) 1
          { source := b.source, status := b.status, ctx := ctx, stream := d.stream, tag := d.tag, attempt := d.attempt, detail := pfn,
            peer := peer }
        | none =>
          (List.range g.hq).foldl (fun s h =>
            let rows := (read (h / (g.hq / g.hkv))).filterMap fun r => match r.2 with
              | .ok d => some (r.1, d.rows)
              | .error _ => none
            let p := job.row (queryRow g v d.ctl query 0 h) pos rows
            let p := if v.bf16 then p.narrow else p
            (remoteInputs s img e v d peerRank h).foldl (fun s m =>
              trySend s ctx { op := 0x20, tc := 1, dst := peer,
                              body := p.record d.tag d.attempt h g.d (nodeNum s) (slotIx m.1 si m.2) m.1.level }) s) s
  | _, _ => s

def remoteAttend (qpn : Nat) (body : Bytes) (s : State) : State :=
  let q := qpOf s qpn
  if q.st ≠ .ready || braked s || s.fault.st = .fenced || inSafe s then s
  else
    let d : Desc := { ring := q.ctx, bytes := body.take 64 }
    match streamStatus s q.ctx d.stream with
    | some _ => s
    | none => answerRemote s q.ctx q.peer d (leAt body 64 2) (body.drop 66)

/-- REMOTE_ATTEND (03 R62; 12 R296). -/
def execRemoteAttend (qpn : Nat) (body : Bytes) (s : State) : Host.Outcome State Fault Refusal := whileAlive s (remoteAttend qpn body s)

end Sys2Proof.Machine
end

