-- ==== Sys2Proof/Machine/Append.lean ====
section
/-! DEFINITION. APPEND_KV: encoding of positions into pages, reservation, parity deltas and the commit (01 R19; 03 R55, R59 to R65;
06 R155, R156, R161; 08 R198; 16 R396, R397), and the release and scrub of frames (03 R60, 15 R376). -/
namespace Sys2Proof.Machine
open Sys2Proof

/-! ### Coded content of one tensor of a block (06 R155, R156) -/

/-- A coded block: offset, rows, its bytes, and its rows decoded. A block that is copied undecoded has no rows. -/
structure Seg where
  first : Nat
  n : Nat
  raw : Bytes
  rows : Option (List KvRow)

/-- A table as an encoder uses it, with the slot and generation that name it. -/
structure Binding where
  tab : CTable
  ref : Nat

def fixedCuts : List Nat := [16, 32, 48]

/-- Rows from an offset on, cut at the fixed offsets and those in `cuts`. -/
def encodeRows (b : Binding) (first : Nat) (rows : List KvRow) : List Seg :=
  (cutRows fixedCuts first rows).map fun g =>
    { first := g.1, n := g.2.length, raw := (encodeBlock b.tab b.ref g.1 g.2).1, rows := some g.2 }

/-- Escapes the rows take. -/
def escapesOf (b : Binding) (first : Nat) (rows : List KvRow) : Nat :=
  ((cutRows fixedCuts first rows).map fun g => (encodeBlock b.tab b.ref g.1 g.2).2).sum

/-- The bytes of a coded block inside positions [a, e): whole as it stands, or its rows coded anew. None where a block copied
undecoded would have to be cut. -/
def Seg.within (b : Binding) (a e : Nat) (x : Seg) : Option Bytes :=
  if x.first + x.n ≤ a || e ≤ x.first then some []
  else if a ≤ x.first && x.first + x.n ≤ e then some x.raw
  else
    let lo := max a x.first
    x.rows.map fun rs => (encodeBlock b.tab b.ref lo ((rs.drop (lo - x.first)).take (min e (x.first + x.n) - lo))).1

/-- The body of a tensor for positions [a, e). -/
def bodyOf (b : Binding) (xs : List Seg) (a e : Nat) : Option Bytes := (xs.mapM (Seg.within b a e)).map List.flatten

/-! ### One block laid out in pages (03 R55) -/

/-- Both tensors of a block in coded form. -/
structure BlockCode where
  k : List Seg
  v : List Seg
  count : Nat

structure Bindings where
  k : Binding
  v : Binding

def pageCap (sketch : Nat) : Nat := frameBytes - 64 - sketchBytes sketch

/-- K and V bodies of positions [a, e) when they fit one frame. -/
def fitBodies (bs : Bindings) (c : BlockCode) (cap a e : Nat) : Option (Bytes × Bytes) :=
  match bodyOf bs.k c.k a e, bodyOf bs.v c.v a e with
  | some k, some v => if k.length + v.length ≤ cap then some (k, v) else none
  | _, _ => none

/-- Positions of the primary page: as many whole positions as fit. -/
def primaryCount (bs : Bindings) (c : BlockCode) (cap : Nat) : Option Nat :=
  (List.range c.count).reverse.findSome? fun i => if (fitBodies bs c cap 0 (i + 1)).isSome then some (i + 1) else none

/-- Fields common to the pages of a block. -/
structure PageOf where
  geo : Geometry
  stream : Nat
  ctx : Nat
  layer : Nat
  kvHead : Nat
  block : Nat
  handoff : Nat

def PageOf.hdr (p : PageOf) (bs : Bindings) : PageHdr :=
  { fmt := p.geo.kFmt, scaling := bitOf p.geo.modes 0, stream := p.stream, ctx := p.ctx, layer := p.layer, kvHead := p.kvHead,
    block := p.block, sketch := p.geo.sketch, kTable := bs.k.ref, vTable := bs.v.ref, vFmt := p.geo.vFmt, handoff := p.handoff }

/-- The pages of a block in its two frames; none where they do not fit (PAGE_OVERFLOW). -/
def layBlock (p : PageOf) (bs : Bindings) (c : BlockCode) (sketch : Bytes) (prim spill : Nat) : Option (List (Nat × Bytes)) :=
  let cap := pageCap p.geo.sketch
  match primaryCount bs c cap with
  | none => none
  | some n =>
    match fitBodies bs c cap 0 n with
    | none => none
    | some (k, v) =>
      let h := p.hdr bs
      if n = c.count then some [(prim, buildPage { h with count := n } sketch k v)]
      else match fitBodies bs c cap n c.count with
        | none => none
        | some (k2, v2) =>
          some [(prim, buildPage { h with count := n, hasSpill := true, spill := spill } sketch k v),
                (spill, buildPage { h with count := c.count - n, first := n, isSpill := true } (zeros (sketchBytes p.geo.sketch)) k2 v2)]

/-! ### The old pages of a continued block (R156) -/

/-- Pages of a block with their frames: those of this node, or those a step has fetched of a remote block (03 R62). -/
def blockPages (s : State) (slot : Nat) (t : Step) (key : Nat) (e : BlockEntry) : List (Nat × Bytes) :=
  if e.tier = 2 then
    (match t.pages.find? fun p => p.2.1 == key with
      | some p => (e.pfn, p.2.2.1) :: if p.2.2.2.isEmpty then [] else [(e.spill, p.2.2.2)]
      | none => [])
  else (blockFrames e).map fun p => (p, frameBytesOf s slot p)

/-- Pages of a block, each checked under R54. -/
def checkedPages (g : Geometry) (place : PlaceOf) (e : BlockEntry) (pages : List (Nat × Bytes)) : Except (PageBad × Nat) (List (Nat × Bytes)) :=
  match pages.find? fun x => !pageOkFor g place x.2 with
  | some x => .error (.header, x.1)
  | none => if pages.isEmpty then .error (.header, e.pfn) else .ok pages

/-- One tensor of the old pages: its reference, format and body. -/
structure OldTensor where
  isV : Bool

def OldTensor.ref (o : OldTensor) (b : Bytes) : Nat := if o.isV then (pageHdr b).vTable else (pageHdr b).kTable
def OldTensor.body (o : OldTensor) (b : Bytes) : Bytes := if o.isV then pageV b else pageK b

def decodeTensor (s : State) (d : Nat) (o : OldTensor) (b : Bytes) : Except PageBad (List DecBlock) :=
  match decodeTensorOf (padCheck s) (ctableAt s) d o.isV b with
  | .ok bs => .ok bs
  | .error c => .error (.code c.status c.slot)

/-- Rows of a tensor over all its pages; the first page that fails with its frame. -/
def decodeRows (s : State) (d : Nat) (o : OldTensor) : List (Nat × Bytes) → Except (PageBad × Nat) (List KvRow)
  | [] => .ok []
  | (pfn, b) :: rest => match decodeTensor s d o b with
    | .error x => .error (x, pfn)
    | .ok bs => match decodeRows s d o rest with
      | .error x => .error x
      | .ok r => .ok (bs.flatMap (·.rows) ++ r)

/-- A tensor of the old pages as coded blocks, and whether it was coded anew: copied undecoded where it lies under the same
table, else decoded and encoded. The rows of a copied block are known where it decodes. -/
def oldSegs (s : State) (d : Nat) (o : OldTensor) (b : Binding) (pages : List (Nat × Bytes)) :
    Except (PageBad × Nat) (List Seg × Bool) :=
  if pages.all fun x => o.ref x.2 == b.ref then
    let rows : Option (List KvRow) := match decodeRows s d o pages with
      | .ok r => some r
      | .error _ => none
    .ok ((pages.flatMap fun x => codedBlocks 64 (o.body x.2)).map fun x =>
      { first := x.1, n := x.2.1, raw := x.2.2, rows := rows.map fun r => (r.drop x.1).take x.2.1 }, false)
  else match decodeRows s d o pages with
    | .error x => .error x
    | .ok rows => .ok (encodeRows b 0 rows, true)

/-! ### Sketches (08 R198) -/

/-- `n` bytes that nothing constrains. -/
def freeBytes (s : State) (n : Nat) : Bytes × State :=
  ((List.range n).map fun i => BitVec.ofNat 8 ((Config.freeValue (s.freeCtr + i)).toNat), { s with freeCtr := s.freeCtr + n })

/-- The K rows of a block, where all are known. -/
def segRows (xs : List Seg) : Option (List KvRow) := (xs.mapM fun (x : Seg) => x.rows).map List.flatten

/-- The sketch area of a primary page: the sketch of a full block, else zeros. A block whose copied part does not decode has
no sketch the spec gives: free. -/
def sketchOf (s : State) (g : Geometry) (ctx : Nat) (c : BlockCode) : Bytes × State :=
  let n := sketchBytes g.sketch
  if c.count < 64 || g.sketch = 7 then (zeros n, s)
  else match segRows c.k with
    | none => freeBytes s n
    | some rows =>
      let xs := rows.map fun r => (List.range g.d).map (rowVal g.kFmt (bitOf g.modes 0) r)
      (packBits (project (sketchSeed s ctx) (8 * n) (sumRows g.d xs)), s)

/-! ### The plain input (10 R257) -/

/-- K and V of an append in host order: position, KV head, element. -/
structure AppendIn where
  k : Bytes
  v : Bytes

def appendIn (hv : AddrView) (d : Desc) (g : Geometry) : Option AppendIn :=
  let n := d.n 24 4 * g.hkv * g.d * (fmtWidth (d.n 19 1) / 8)
  match hostRead hv (d.addr 32) n, hostRead hv (d.addr 40) n with
  | some k, some v => some { k := k, v := v }
  | _, _ => none

def inRow (d : Desc) (g : Geometry) (b : Bytes) (pos kv : Nat) : List Num :=
  let w := fmtWidth (d.n 19 1) / 8
  (List.range g.d).map fun i => elemVal (d.n 19 1) (leAt b (((pos * g.hkv + kv) * g.d + i) * w) w)

/-- How a tensor is written (05 R124). -/
def quantOf (g : Geometry) (isV : Bool) : Quant :=
  { fmt := if isV then g.vFmt else g.kFmt, scaling := bitOf g.modes 0, ieee := bitOf g.modes (if isV then 4 else 3),
    stoch := bitOf g.modes (if isV then 2 else 1) }

/-- The encoder's generator (R37, R38): values that nothing constrains, one for each element of the append. -/
def encRandom (s : State) (ix : Nat) : Nat := Config.random (s.rngCtr + ix) % 65536

/-- Quantised rows of a KV head for positions [lo, hi) of the append. -/
def quantRows (s : State) (d : Desc) (g : Geometry) (isV : Bool) (b : Bytes) (kv lo hi : Nat) : List KvRow :=
  (List.range (hi - lo)).map fun j =>
    let pos := lo + j
    let base := (((if isV then d.n 24 4 else 0) + pos) * g.hkv + kv) * g.d
    quantRow (quantOf g isV) (fun i => encRandom s (base + i)) (inRow d g b pos kv)

/-- NaNs written as +0 (R35). -/
def squashedIn (d : Desc) (g : Geometry) (a : AppendIn) : Nat :=
  ((List.range (d.n 24 4)).map fun p => ((List.range g.hkv).map fun kv =>
    squashed (quantOf g false) (inRow d g a.k p kv) + squashed (quantOf g true) (inRow d g a.v p kv)).sum).sum

/-! ### Encoding an append -/

/-- What an append has written so far: pages with their frames, entries, and what its counters gain. -/
structure Enc where
  pages : List (Nat × Bytes) := []
  entries : List (Nat × BlockEntry) := []
  elems : Nat := 0
  escapes : Nat := 0
  recoded : Nat := 0
  decoded : Nat := 0

/-- A table of an image as an encoder uses it. -/
def bindingOf (img : Image) (ix : Nat) : Binding :=
  let t := img.tables.getD ix {}
  { tab := tableOf t.bytes, ref := tableRef t.slot t.gen }

def bindingsOf (img : Image) (v : Variant) : Bindings := { k := bindingOf img v.kTable, v := bindingOf img v.vTable }

/-- Why an encoding ends: the block does not fit, or an old page is bad. -/
inductive EncBad where
  | overflow
  | page (b : PageBad) (pfn : Nat)

/-- The old part of a block an append continues: both tensors' coded blocks, elements decoded, blocks coded anew. -/
def oldPart (s : State) (g : Geometry) (bs : Bindings) (place : PlaceOf) (e : BlockEntry) (pages : List (Nat × Bytes)) :
    Except EncBad ((List Seg × Bool) × (List Seg × Bool)) :=
  match checkedPages g place e pages with
  | .error (b, p) => .error (.page b p)
  | .ok pages => match oldSegs s g.d { isV := false } bs.k pages with
    | .error (b, p) => .error (.page b p)
    | .ok k => match oldSegs s g.d { isV := true } bs.v pages with
      | .error (b, p) => .error (.page b p)
      | .ok v => .ok (k, v)

/-- Encode one block of one KV head into its two frames. -/
def encodeOne (s : State) (t : Step) (g : Geometry) (bs : Bindings) (a : AppendIn) (x : Stream) (kv b prim spill : Nat) (acc : Enc) :
    Except EncBad (Enc × State) :=
  let d := t.desc
  let layer := d.n 16 2
  let first := d.n 20 4
  let lo := max first (64 * b)
  let hi := min (first + d.n 24 4) (64 * b + 64)
  let old : Except EncBad ((List Seg × Bool) × (List Seg × Bool)) :=
    if lo % 64 = 0 then .ok (([], false), ([], false))
    else
      let e := x.entry (blockKey layer kv b)
      oldPart s g bs (placeIn t.ctx layer d.stream kv b e) e (blockPages s t.ctx t (blockKey layer kv b) e)
  match old with
  | .error z => .error z
  | .ok (ok, ov) =>
    let kRows := quantRows s d g false a.k kv (lo - first) (hi - first)
    let vRows := quantRows s d g true a.v kv (lo - first) (hi - first)
    let c : BlockCode := { k := ok.1 ++ encodeRows bs.k (lo % 64) kRows, v := ov.1 ++ encodeRows bs.v (lo % 64) vRows,
                           count := hi - 64 * b }
    let sk := sketchOf s g t.ctx c
    let p : PageOf := { geo := g, stream := d.stream, ctx := t.ctx, layer := layer, kvHead := kv, block := b, handoff := x.counter }
    match layBlock p bs c sk.1 prim spill with
    | none => .error .overflow
    | some pages =>
      let anew (o : List Seg × Bool) : Nat := if o.2 then o.1.length else 0
      let back := (b2n ok.2 + b2n ov.2) * (lo % 64) * g.d
      let esc (bd : Binding) (o : List Seg × Bool) (rs : List KvRow) : Nat := escapesOf bd (lo % 64) rs +
        if o.2 then (match segRows o.1 with
          | some r => escapesOf bd 0 r
          | none => 0) else 0
      let e : BlockEntry := { pfn := prim, spill := if pages.length = 2 then spill else 0xFFFFFFFF, node := nodeNum s,
                              tier := pfnTier prim, count := c.count, sketch := c.count == 64 && g.sketch != 7,
                              compute := inCompute s prim }
      .ok ({ pages := acc.pages ++ pages, entries := acc.entries ++ [(blockKey layer kv b, e)],
             elems := acc.elems + 2 * (hi - lo) * g.d + back, escapes := acc.escapes + esc bs.k ok kRows + esc bs.v ov vRows,
             recoded := acc.recoded + anew ok + anew ov, decoded := acc.decoded + back }, sk.2)

/-- Encode every block of an append, in the order of its reservation. -/
def encodeAll (t : Step) (g : Geometry) (bs : Bindings) (a : AppendIn) (x : Stream) :
    State → List (Nat × Nat) → List Nat → Enc → Except EncBad (Enc × State)
  | s, [], _, acc => .ok (acc, s)
  | s, (kv, b) :: rest, prim :: spill :: ps, acc =>
    match encodeOne s t g bs a x kv b prim spill acc with
    | .error z => .error z
    | .ok (acc, s) => encodeAll t g bs a x s rest ps acc
  | _, _ :: _, _, _ => .error .overflow

/-! ### Erasure groups of a context (16 R394 to R397) -/

/-- Fields of a group slot. -/
def grpId (s : State) (n : Nat) : Nat := rfs s Off.FAULT_GROUP_CFG n 0 16
def grpK (s : State) (n : Nat) : Nat := rfs s Off.FAULT_GROUP_CFG n 16 5
def grpR (s : State) (n : Nat) : Nat := rfs s Off.FAULT_GROUP_CFG n 21 2
def grpShard (s : State) (n : Nat) : Nat := rfs s Off.FAULT_GROUP_CFG n 23 5
def grpCtx (s : State) (n : Nat) : Nat := rfs s Off.FAULT_GROUP_CTX n 0 12
def grpMember (s : State) (n j : Nat) : Nat := rfs s Off.FAULT_GROUP_MEMBER (n * 32 + j) 0 14
def grpOf (s : State) (n : Nat) : Group := tget {} s.fault.groups n
def setGrp (s : State) (n : Nat) (g : Group) : State := { s with fault := { s.fault with groups := tset {} s.fault.groups n g } }

/-- The group that takes parity for a context: ACTIVE, or sending its rows, with this node a data shard. -/
def dataGroup (s : State) (ctx : Nat) : Option Nat :=
  (s.fault.groups.find? fun e => grpCtx s e.1 == ctx && (e.2.st == .active || e.2.st == .sending) &&
    decide (grpShard s e.1 < grpK s e.1)).map (·.1)

/-- Key of a row-map entry whose block is gone: the row is never used again (R396). -/
def goneKey (key : Nat) : Nat := key + 2 ^ 60

/-- The row of a block, and the next row of its stream, layer and KV head. -/
def rowAt (g : Group) (stream key : Nat) : Option Nat := (g.rowMap.find? fun e => e.1 == stream && e.2.1 == key).map (·.2.2)
def nextRow (g : Group) (stream key : Nat) : Nat :=
  (g.rowMap.filter fun e => e.1 == stream && e.2.1 % 2 ^ 60 / 2 ^ 26 == key / 2 ^ 26).foldl (fun n e => max n (e.2.2 + 1)) 0

def addRow (g : Group) (stream key : Nat) : Group :=
  if (rowAt g stream key).isSome then g else { g with rowMap := g.rowMap ++ [(stream, key, nextRow g stream key)] }

def dropRow (g : Group) (stream key : Nat) : Group :=
  { g with rowMap := g.rowMap.map fun e => if e.1 = stream && e.2.1 = key then (e.1, goneKey e.2.1, e.2.2) else e }

/-- Body of a PARITY_DELTA message (12 R296). -/
def deltaBody (id shard stream layer kv row : Nat) (delta : Bytes) : Bytes :=
  putLe 2 id ++ putLe 1 shard ++ zeros 1 ++ putLe 4 stream ++ putLe 2 layer ++ putLe 1 kv ++ zeros 1 ++ putLe 4 row ++
    fit frameBytes delta

/-- Messages of a delta to every parity holder of a group: node and body. -/
def deltaMsgs (s : State) (gi stream key row : Nat) (delta : Bytes) : List (Nat × Bytes) :=
  (List.range (grpR s gi)).map fun j =>
    (grpMember s gi (grpK s gi + j),
      deltaBody (grpId s gi) (grpShard s gi) stream (key / 2 ^ 34) (key / 2 ^ 26 % 256) row delta)

/-- Deltas of one block's rewrite, primary in row 2t and spill in row 2t + 1; an absent page counts as zeros. -/
def blockDeltas (s : State) (gi stream key t : Nat) (old new : List Bytes) : List (Nat × Bytes) :=
  (List.range 2).flatMap fun j =>
    match old[j]?, new[j]? with
    | none, none => []
    | a, b => deltaMsgs s gi stream key (2 * t + j) (xorB (fit frameBytes (a.getD [])) (fit frameBytes (b.getD [])))

/-- Send messages for a step; false where one finds no queue pair (12 R291). A spare in SHADOW sends none. -/
def sendDeltas (s : State) (ctx id : Nat) : List (Nat × Bytes) → Bool × State
  | [] => (true, s)
  | m :: ms =>
    if inShadow s then (true, s)
    else match sendMsg s ctx m.1 0x20 id m.2 with
      | none => (false, s)
      | some s =>
        let s := count s (ckey Off.FAULT_CNT_LO 7 0) 1
        let s := match findStep s id with
          | some t => putStep s { t with deltas := t.deltas + 1, parity := t.parity ++ [m] }
          | none => s
        sendDeltas s ctx id ms

/-! ### APPEND_KV (03 R61, R65; 05 R137 to R140) -/

/-- The first status that ends an append before its reservation. -/
def appendRefusal (s : State) (d : Desc) : Option Nat :=
  if d.n 19 1 > 2 then some St.FMT_CODE_INVALID
  else if d.n 24 4 = 0 then some St.COUNT_INVALID
  else match handleRefusal s d.handle with
    | some e => some e
    | none => match streamAt s d.stream with
      | some x => if x.ctx ≠ d.ring then some St.STREAM_ABSENT
        else match streamRefusal s d.stream with
          | some e => some e
          | none => if d.n 20 4 ≠ x.len (d.n 16 2) then some St.POSITION_GAP else none
      | none => if d.n 20 4 ≠ 0 then some St.STREAM_ABSENT
        else if d.n 18 1 > (imageOf s d.handle).geo.classes then some St.NO_VARIANT else none

/-- Page frames of an append, two for each block in turn. -/
def takePages (slice code ctx : Nat) : State → List (Nat × Nat) → List Nat → Option (List Nat × State)
  | s, [], _ => some ([], s)
  | s, (kv, b) :: rest, picks =>
    let fits (p : Nat) : Bool := code != 2 || bankUnit p == blockUnit kv b
    match takeFrames s slice code ctx .reserved fits 2 picks with
    | none => none
    | some (ps, s) => match takePages slice code ctx s rest (picks.drop 2) with
      | none => none
      | some (qs, s) => some (ps ++ qs, s)

/-- The whole reservation: table frames in the board tier, then page frames (R65). -/
def reserveAppend (s : State) (d : Desc) (p : AppendPlan) (picks : List Nat) : Option (List Nat × List Nat × State) :=
  let slice := (ctxOf s d.ring).slice
  match takeFrames s slice 1 d.ring .reserved anyFrame p.tables.length picks with
  | none => none
  | some (ts, s) => match takePages slice p.code d.ring s p.blocks (picks.drop p.tables.length) with
    | none => none
    | some (ps, s) => some (ts, ps, s)

/-- A bad old page ends an append: it is recorded and reported, and the descriptor completes with the code (R156, R161). -/
def pageReport (s : State) (t : Step) (b : PageBad) (pfn : Nat) : State :=
  let f := frameFault (noteBad s b pfn) pfn
  faultReportAs f.2 1 (stepRecord t { source := b.source, status := b.status, detail := pfn, flags := b2n f.1 })

/-- An admitted append ends without effect. -/
def appendEnd (s : State) (t : Step) (status : Nat) : State :=
  let s := cutStep s t
  complete s t.desc status 0 (appendOut s t.desc status)

/-- The core whose DMA engine encodes: the lowest of the variant's core map (DESIGN CHOICE). -/
def encoderCore (v : Variant) : Nat := (coresOf v).headD 0

def countEncode (s : State) (core : Nat) (e : Enc) : State :=
  let s := count s (ckey Off.COMP_CNT_LO 3 0) e.elems
  let s := count s (ckey Off.COMP_CNT_LO 4 core) e.escapes
  let s := count s (ckey Off.COMP_CNT_LO 2 core) e.decoded
  count s (ckey Off.COMP_CNT_LO 6 core) e.recoded

/-- Deltas of an append's new pages against the blocks they replace. -/
def appendDeltas (s : State) (t : Step) (x : Stream) (e : Enc) : List (Nat × Bytes) :=
  match dataGroup s t.ctx with
  | none => []
  | some gi =>
    let g := grpOf s gi
    e.entries.flatMap fun b =>
      let old := x.entry b.1
      let row := (rowAt g t.desc.stream b.1).getD (nextRow g t.desc.stream b.1 +
        ((e.entries.takeWhile fun y => y.1 != b.1).countP fun y => y.1 / 2 ^ 26 == b.1 / 2 ^ 26 && (rowAt g t.desc.stream y.1).isNone))
      blockDeltas s gi t.desc.stream b.1 row ((blockFrames old).map (frameBytesOf s t.ctx))
        ((blockFrames b.2).map fun p => ((e.pages.find? fun y => y.1 == p).map (·.2)).getD [])

/-- The pages are written, their deltas sent; the step waits for its commit. -/
def writeAppend (s : State) (t : Step) (x : Stream) (e : Enc) (squash : Nat) : State :=
  let ms := appendDeltas s t x e
  let s := e.pages.foldl (fun s p => putFrame s t.ctx p.1 0 p.2) s
  let s := countEncode s (encoderCore (variantOf s t)) e
  let c := ctxOf s t.ctx
  let s := if squash = 0 then s else setCtx s t.ctx { c with fmtExceptions := c.fmtExceptions + squash }
  let t := { t with newEntries := e.entries, flags := if squash = 0 then 0 else 1, started := true }
  let r := sendDeltas (putStep s t) t.ctx t.desc.id ms
  if r.1 then r.2
  else match findStep r.2 t.desc.id with
    | some t => stepFault r.2 t 0x15 St.NO_PATH 0
    | none => r.2

/-- Frames of the partly filled blocks an append reads (R60). -/
def appendFrames (x : Stream) (layer : Nat) (blocks : List (Nat × Nat)) : List Nat :=
  blocks.flatMap fun b => entryFrames (x.entry (blockKey layer b.1 b.2))

/-- Remote blocks an append continues: the local node does not write a remote page, it reads it and writes a new one (R60, R62). -/
def remoteParts (x : Stream) (layer : Nat) (blocks : List (Nat × Nat)) : List (Nat × BlockEntry) :=
  (blocks.map fun b => (blockKey layer b.1 b.2, x.entry (blockKey layer b.1 b.2))).filter fun e => e.2.tier == 2

/-- The encoding of an admitted append whose blocks are all at hand: the entries fixed at its admission (05 R140) and its reserved
frames. -/
def appendEncode (s : State) (t : Step) (ecc : MemObs) : State :=
  let d := t.desc
  let img := imageOf s t.handle
  let x := { appendStream s d with entries := (t.streams.head?.map (·.entries)).getD [] }
  let blocks := appendBlocks img.geo d
  let a : AppendIn := { k := t.input.1, v := t.input.2 }
  let frames := appendFrames x (d.n 16 2) blocks
  let lost := lostFrame s frames ecc
  let s := memEvents s frames ecc
  match lost, encodeAll t img.geo (bindingsOf img (variantOf s t)) a x s blocks (t.reserve.drop t.newTables.length) {} with
  | some pfn, _ => stepFault s t 0x10 St.DATA_POISON pfn
  | none, .error .overflow => appendEnd s t St.PAGE_OVERFLOW
  | none, .error (.page b pfn) => appendEnd (pageReport s t b pfn) t b.status
  | none, .ok (e, s) =>
    let s := { s with rngCtr := s.rngCtr + 2 * d.n 24 4 * img.geo.hkv * img.geo.d }
    writeAppend s { t with input := ([], []) } x e (squashedIn d img.geo a)

/-- Admission: the reservation, then the encoding, or the reads of the remote blocks it continues. -/
def appendAdmit (s : State) (d : Desc) (p : AppendPlan) (a : AppendIn) (v energy : Nat) (degraded : Bool) (picks : List Nat) (ecc : MemObs) :
    State :=
  match reserveAppend s d p picks with
  | none => refuse s d St.POOL_EXHAUSTED
  | some (ts, ps, s) =>
    let x := appendStream s d
    let s := countAdmit (admitStep s d energy { variant := v, reserve := ts ++ ps, newTables := p.tables.zip ts, input := (a.k, a.v),
                                                streams := [{ stream := d.stream, committed := x.len (d.n 16 2),
                                                              entries := x.layer (d.n 16 2) }] }) degraded
    match findStep s d.id with
    | none => s
    | some t =>
      let far := remoteParts x (d.n 16 2) p.blocks
      if far.isEmpty then appendEncode s t ecc else far.foldl (fun s e => fetchBlock s t 0 d.stream e.1 e.2) s

/-- An append: admitted, or, once the remote blocks it continues have arrived, encoded. -/
def appendKv (id : Nat) (hv : AddrView) (pick : List Nat) (ecc : MemObs) (s : State) : State :=
  match findDesc s id with
  | none => match findStep s id with
    | some t => if t.kind = 2 && !t.started && t.awaits.isEmpty then appendEncode s t ecc else s
    | none => s
  | some d =>
    if d.kind ≠ 2 || !descReady s d then s
    else match appendRefusal s d with
      | some e => refuse s d e
      | none => match appendIn hv d (imageOf s d.handle).geo with
        | none => refuse s d St.HOST_READ_ERROR
        | some a =>
          if !dispatchOpen s then s
          else match schedOf (imageOf s d.handle) 2 (appendStream s d).cls (d.n 16 2) with
            | none => refuse s d St.NO_VARIANT
            | some _ => match appendPlan s d with
              | .error e =>
                let s := if e = St.QUOTA_EXCEEDED then raise s Off.TIER_STATUS 1 [(20, 12, d.ring)] else s
                refuse s d e
              | .ok p => match weftReq s d (some [d.stream]) with
                | none => refuse s d St.NO_VARIANT
                | some (r, e) => match pickVariant s (imageOf s d.handle) r e with
                  | .noVariant => refuse s d St.NO_VARIANT
                  | .wait => s
                  | .take v energy degraded =>
                    if mayAdmit s id then appendAdmit s d p a v energy degraded pick ecc else s

/-- APPEND_KV (R65; 01 R19; 06 R155, R156; 08 R198). -/
def execAppendKv (id : Nat) (hv : HostView) (pick : List Nat) (ecc : MemObs) (s : State) : Host.Outcome State Fault Refusal :=
  whileAlive s (appendKv id (descView s id hv) pick ecc s)

/-! ### APPEND_COMMIT (01 R19, 03 R59 to R61) -/

/-- Frames that entries replace. -/
def replacedFrames (x : Stream) (new : List (Nat × BlockEntry)) : List Nat := new.flatMap fun e => entryFrames (x.entry e.1)

/-- Remote entries that entries replace: they leave the remote tier's use (R64). -/
def replacedRemote (x : Stream) (new : List (Nat × BlockEntry)) : Nat := new.countP fun e => (x.entry e.1).tier == 2

def dropRemote (s : State) (ctx n : Nat) : State :=
  if n = 0 then s else { s with tier := { s.tier with remoteUsed := tmod 0 s.tier.remoteUsed ctx fun u => u - n } }

/-- Steps admitted before now other than this one (R60). -/
def earlierSteps (s : State) (id : Nat) : List Nat := (liveSteps s).filter (· != id)

/-- Dirty lines of a COMPUTE frame are written back before its page commits (07 R174). -/
def cleanCompute (s : State) (pfn : Nat) : State :=
  if inCompute s pfn then cleanFrames s (· == pfn) else s

/-- The page in a frame is committed: the frame's use, and the tables its header names (06 R162). -/
def commitPage (s : State) (ctx pfn : Nat) (use : Use) (refs : List Nat) : State :=
  match tfind s.tier.frames pfn with
  | some i => cleanCompute (setFrameInfo s pfn { i with ctx := ctx, use := use, tabs := refs }) pfn
  | none => s

def commitEntry (s : State) (ctx : Nat) (e : BlockEntry) (refs : List Nat) : State :=
  let s := commitPage s ctx e.pfn .page refs
  if e.spill = 0xFFFFFFFF then s else commitPage s ctx e.spill .spill refs

/-- Rows of newly committed blocks in a data shard's row map (16 R396). -/
def mapRows (s : State) (ctx stream : Nat) (keys : List Nat) : State :=
  match dataGroup s ctx with
  | none => s
  | some gi => setGrp s gi (keys.foldl (fun g k => addRow g stream k) (grpOf s gi))

/-- One update of a stream's page tables: new entries, table frames and committed length of a layer (R59). -/
def Stream.commit (x : Stream) (new : List (Nat × BlockEntry)) (tables : List (Nat × Nat)) (layer len : Nat) : Stream :=
  { x with entries := new.foldl (fun es e => tset {} es e.1 e.2) x.entries,
           tables := tables.foldl (fun ts t => tput ts t.1 t.2) x.tables,
           committed := tset 0 x.committed layer len }

/-- The status that ends an append at its commit: its position is no longer the committed length. A stream number that another
context has created since the admission ends it POSITION_GAP, which the spec leaves open (DESIGN CHOICE). -/
def commitRefusal (s : State) (t : Step) : Option Nat :=
  match streamAt s t.desc.stream with
  | some x => if x.ctx ≠ t.ctx || x.len (t.desc.n 16 2) ≠ t.desc.n 20 4 then some St.POSITION_GAP
    else match x.st with
      | .owned => none
      | .draining => none
      | _ => streamRefusal s t.desc.stream
  | none => if t.desc.n 20 4 = 0 then none else some St.POSITION_GAP

def appendCommit (id : Nat) (s : State) : State :=
  match findStep s id with
  | none => s
  | some t =>
    if t.kind ≠ 2 || !t.started || t.deltas ≠ 0 || braked s then s
    else match commitRefusal s t with
      | some e => appendEnd s t e
      | none =>
        let d := t.desc
        let x := appendStream s d
        let img := imageOf s t.handle
        let v := variantOf s t
        let bs := bindingsOf img v
        let used := (t.newEntries.flatMap fun e => entryFrames e.2) ++ t.newTables.map (·.2)
        let s := putStream s d.stream (x.commit t.newEntries t.newTables (d.n 16 2) (d.n 20 4 + d.n 24 4))
        let s := t.newEntries.foldl (fun s e => commitEntry s t.ctx e.2 [bs.k.ref, bs.v.ref]) s
        let s := t.newTables.foldl (fun s e => commitPage s t.ctx e.2 .table []) s
        let s := mapRows s t.ctx d.stream (t.newEntries.map (·.1))
        let s := giveBack s t (t.reserve.filter fun p => !used.contains p)
        let s := dropRemote s t.ctx (replacedRemote x t.newEntries)
        let s := retireFrames s (replacedFrames x t.newEntries) (earlierSteps s id)
        finish s t St.OK t.flags (appendResults s d)

/-- APPEND_COMMIT (R19; 03 R59 to R61; 05 R146). -/
def execAppendCommit (id : Nat) (s : State) : Host.Outcome State Fault Refusal := whileAlive s (appendCommit id s)

/-! ### Release and scrub -/

def frameRelease (ix : Nat) (s : State) : State :=
  match s.tier.old[ix]? with
  | none => s
  | some o =>
    if o.waits.any fun i => (findStep s i).isSome then s
    else releaseFrames { s with tier := { s.tier with old := s.tier.old.eraseIdx ix } } o.frames

/-- FRAME_RELEASE (R60, R68, R78): every step that could read the old frames has ended. -/
def execFrameRelease (ix : Nat) (s : State) : Host.Outcome State Fault Refusal := whileAlive s (frameRelease ix s)

def scrubDone (pfn : Nat) (s : State) : State :=
  if !s.tier.scrub.contains pfn || frameHeld s pfn then s
  else
    let s := touchRegion (frameScrub s pfn) pfn
    { s with tier := { s.tier with scrub := s.tier.scrub.filter (· != pfn) } }

/-- SCRUB_DONE (15 R376; 07 R172): the frame holds zeros and returns to its pool. The writes into a region that is held wait. -/
def execScrubDone (pfn : Nat) (s : State) : Host.Outcome State Fault Refusal := whileAlive s (scrubDone pfn s)

end Sys2Proof.Machine
end

