-- ==== Sys2Proof/Machine/Moves.lean ====
section
/-! DEFINITION. PAGE_MOVE: MOVE, FLUSH, FLUSH_INVALIDATE, FREE, and the set-up flush (03 R67 to R71, R86; 05 R143, R144; 06 R164; 07
R173, R174; 10 R257). -/
namespace Sys2Proof.Machine
open Sys2Proof

/-! ### Fields and ranges of a PAGE_MOVE (10 R257) -/

def Desc.op (d : Desc) : Nat := d.n 16 1

/-- The blocks a PAGE_MOVE names. -/
structure Span where
  layerLo : Nat
  layerHi : Nat
  headLo : Nat
  headHi : Nat
  blockLo : Nat
  blockHi : Nat

def spanOf (d : Desc) : Span :=
  { layerLo := d.n 20 2, layerHi := d.n 22 2, headLo := d.n 24 1, headHi := d.n 25 1, blockLo := d.n 28 4, blockHi := d.n 32 4 }

def Span.ok (x : Span) : Bool := decide (x.layerLo ≤ x.layerHi ∧ x.headLo ≤ x.headHi ∧ x.blockLo ≤ x.blockHi)

/-- Triples of layer, KV head and block, empty blocks included (R144). -/
def Span.items (x : Span) : Nat := (x.layerHi - x.layerLo + 1) * (x.headHi - x.headLo + 1) * (x.blockHi - x.blockLo + 1)

/-- The place of a block among the triples. -/
def Span.ix (x : Span) (key : Nat) : Option Nat :=
  let l := key / 2 ^ 34
  let h := key / 2 ^ 26 % 256
  let b := key % 2 ^ 26
  if x.layerLo ≤ l && l ≤ x.layerHi && x.headLo ≤ h && h ≤ x.headHi && x.blockLo ≤ b && b ≤ x.blockHi then
    some (((l - x.layerLo) * (x.headHi - x.headLo + 1) + (h - x.headLo)) * (x.blockHi - x.blockLo + 1) + (b - x.blockLo))
  else none

/-- A stream's blocks among items [lo, hi). -/
def Span.blocks (x : Span) (es : Tbl BlockEntry) (lo hi : Nat) : List (Nat × BlockEntry) :=
  es.filter fun e => match x.ix e.1 with
    | some i => lo ≤ i && i < hi
    | none => false

/-- Every frame of a run exists (03 R50). -/
def runOk (s : State) (lo n : Nat) : Bool :=
  let last := lo + n - 1
  if !pfnOk s lo || !pfnOk s last || isHbm lo != isHbm last then false
  else if isHbm lo then (span (stackOf lo) (stackOf last - 1)).all fun i => decide (i ≥ stackOf last) || stackFrames i == 4194304
  else (span (channelOf lo) (channelOf last - 1)).all fun c => decide (c ≥ channelOf last) || channelFrames s c == 2 ^ 25

/-! ### Refusals and portions shared by the kinds of R143 -/

/-- Items of a PAGE_MOVE (R144). -/
def moveItems (d : Desc) : Nat := if d.op = 1 || d.op = 2 then d.n 32 4 else (spanOf d).items

/-- The first status that ends a PAGE_MOVE before admission: reserved codes, counts and ranges (R67, R476), the stream (R61), the
image of a recode (R121). -/
def moveRefusal (s : State) (d : Desc) : Option Nat :=
  if d.op > 4 || d.n 17 1 > 2 then some St.FMT_CODE_INVALID
  else if d.op = 1 || d.op = 2 then
    (if d.n 32 4 = 0 then some St.COUNT_INVALID else if !runOk s (d.n 28 4) (d.n 32 4) then some St.PFN_INVALID else none)
  else if !(spanOf d).ok then some St.COUNT_INVALID
  else match streamStatus s d.ring d.stream with
    | some e => some e
    | none => if d.op = 0 && bitOf (d.n 18 1) 0 then handleRefusal s d.handle else none

/-- A descriptor of R143 takes its first portion. -/
def firstPortion (s : State) (d : Desc) (items : Nat) (t : Step) : Option State :=
  match portion s d items true with
  | none => none
  | some (n, cost) =>
    if !mayAdmit s d.id then none
    else some (admitStep s d cost { t with items := n, left := items - n, portions := [stamp s d.ring n] })

/-- A step of R143 takes its next portion. -/
def nextPortion (s : State) (t : Step) : Option State :=
  if t.left = 0 || t.stopped || !mayAdmit s t.desc.id then none
  else match portion s t.desc t.left false with
    | none => none
    | some (n, cost) => some (admitPortion s t n cost)

/-- One portion of a kind of R143, first or later; `work` acts on the items [lo, hi) it admits. -/
def runPortion (s : State) (id kind : Nat) (op : Desc → Bool) (refusal : State → Desc → Option Nat) (items : Desc → Nat) (t0 : Step)
    (work : State → Step → Nat → Nat → State) : State :=
  let go (s : State) (total : Nat) : State := match findStep s id with
    | some t => work s t (total - t.left - t.items) (total - t.left)
    | none => s
  match findDesc s id with
  | some d =>
    if d.kind ≠ kind || !op d || !descReady s d then s
    else match refusal s d with
      | some e => refuse s d e 0 (ownerResults s d.stream)
      | none => match firstPortion s d (items d) t0 with
        | none => s
        | some s => go s (items d)
  | none => match findStep s id with
    | none => s
    | some t =>
      if t.kind ≠ kind || !op t.desc then s
      else match nextPortion s t with
        | none => s
        | some s => go s (items t.desc)

/-- A step of R143 ends early without effect. -/
def cutWith (s : State) (t : Step) (status : Nat) (results : Bytes := []) : State := complete (cutStep s t) t.desc status 0 results

/-- Results of a PAGE_MOVE (R260). -/
def moveResults (frames regions : Nat) : Bytes := putLe 4 frames ++ putLe 4 regions

/-! ### MOVE (R67, R68; 06 R164) -/

/-- Placement code of a block: 0 HBM, 1 board, 2 COMPUTE; none for a remote or empty one. -/
def placeCode (e : BlockEntry) : Option Nat :=
  if e.tier = 0 then some (if e.compute then 2 else 0) else if e.tier = 1 then some 1 else none

def Desc.dest (d : Desc) : Nat := d.n 17 1
def Desc.recode (d : Desc) : Bool := bitOf (d.n 18 1) 0

/-- The tables an image binds for a class and layer: those of the first variant of its append step. -/
def layerBindings (img : Image) (cls layer : Nat) : Option Bindings :=
  (schedOf img 2 cls layer).map fun e => bindingsOf img (img.variants.getD e.vFirst {})

/-- Why the copy of a block ends a MOVE. -/
inductive MoveBad where
  | status (c : Nat)
  | page (b : PageBad) (pfn : Nat)

/-- Pages of a block, checked under R54 without a geometry. -/
def plainPages (place : PlaceOf) (pages : List (Nat × Bytes)) : Except MoveBad (List (Nat × Bytes)) :=
  match pages.find? fun x => !(pageShapeOk x.2 && pagePlaceOk x.2 place) with
  | some x => .error (.page .header x.1)
  | none => .ok pages

/-- New frames of a block: one for each page, or two where it is coded anew, by quota and pool of the destination (R65). -/
def moveFrames (s : State) (ctx dest kv b k : Nat) (picks : List Nat) : Except MoveBad (List Nat × State) :=
  if k > quotaLeft s ctx (quotaTier dest) then .error (.status St.QUOTA_EXCEEDED)
  else
    let slice := (ctxOf s ctx).slice
    let fits (p : Nat) : Bool := dest != 2 || bankUnit p == blockUnit kv b
    match takeFrames s slice dest ctx .reserved fits k picks with
    | none => .error (.status St.POOL_EXHAUSTED)
    | some r => .ok r

/-- What the copy of one block yields: its new pages, its new entry. -/
structure Copied where
  pages : List (Nat × Bytes)
  entry : BlockEntry

/-- A copy without recode: the pages as they are, the primary naming its new spill frame. -/
def plainCopy (e : BlockEntry) (pages : List (Nat × Bytes)) (new : List Nat) : Copied :=
  match pages, new with
  | [(_, p)], n :: _ => { pages := [(n, p)], entry := { e with pfn := n } }
  | (_, p) :: (_, q) :: _, n :: m :: _ => { pages := [(n, setSpill p m), (m, q)], entry := { e with pfn := n, spill := m } }
  | _, _ => { pages := [], entry := e }

/-- A recode (06 R164): both tensors decoded and encoded under the image's tables. -/
def recodeBlock (s : State) (g : Geometry) (bs : Bindings) (x : Stream) (stream slot layer kv b : Nat) (e : BlockEntry)
    (pages : List (Nat × Bytes)) (new : List Nat) : Except MoveBad Copied :=
  let bad := pages.find? fun p => !pageGeoOk p.2 g.sketch g.kFmt g.vFmt (bitOf g.modes 0)
  let other := pages.any fun p => decide ((pageHdr p.2).fmt ≠ g.kFmt) || decide ((pageHdr p.2).vFmt ≠ g.vFmt)
  if other then .error (.status St.FMT_UNIT_MISMATCH)
  else match bad with
    | some p => .error (.page .header p.1)
    | none => match decodeRows s g.d { isV := false } pages with
      | .error (z, p) => .error (.page z p)
      | .ok k => match decodeRows s g.d { isV := true } pages with
        | .error (z, p) => .error (.page z p)
        | .ok v =>
          let c : BlockCode := { k := encodeRows bs.k 0 k, v := encodeRows bs.v 0 v, count := k.length }
          let p : PageOf := { geo := g, stream := stream, ctx := slot, layer := layer, kvHead := kv, block := b, handoff := x.counter }
          match new with
          | n :: m :: _ =>
            match layBlock p bs c ((pages.head?.map fun y => pageSketch y.2).getD []) n m with
            | none => .error (.status St.PAGE_OVERFLOW)
            | some out => .ok { pages := out, entry := { e with pfn := n, spill := if out.length = 2 then m else 0xFFFFFFFF } }
          | _ => .error (.status St.POOL_EXHAUSTED)

/-- Encoder and decoder counters of a recode, on core 0 (DESIGN CHOICE: no rule names the core). -/
def countRecode (s : State) (g : Geometry) (bs : Bindings) (pages : List (Nat × Bytes)) : State :=
  let n := 2 * ((pages.map fun p => (pageHdr p.2).count).sum) * g.d
  let esc (o : OldTensor) (b : Binding) : Nat := match decodeRows s g.d o pages with
    | .ok r => escapesOf b 0 r
    | .error _ => 0
  let e := esc { isV := false } bs.k + esc { isV := true } bs.v
  count (count (count s (ckey Off.COMP_CNT_LO 2 0) n) (ckey Off.COMP_CNT_LO 3 0) n) (ckey Off.COMP_CNT_LO 4 0) e

/-- Deltas of a recoded block (16 R397). -/
def recodeDeltas (s : State) (ctx stream key : Nat) (old new : List (Nat × Bytes)) : List (Nat × Bytes) :=
  match dataGroup s ctx with
  | none => []
  | some gi => match rowAt (grpOf s gi) stream key with
    | none => []
    | some row => blockDeltas s gi stream key row (old.map (·.2)) (new.map (·.2))

/-- Write the copy of one block of a MOVE into its new frames. -/
def moveCopy (s : State) (t : Step) (x : Stream) (key : Nat) (e : BlockEntry) (pages : List (Nat × Bytes)) (new : List Nat) :
    Except MoveBad State :=
  let d := t.desc
  let layer := key / 2 ^ 34
  let img := imageOf s d.handle
  let made : Except MoveBad (Copied × State) :=
    if d.recode then
      match layerBindings img x.cls layer with
      | none => .error (.status St.NO_VARIANT)
      | some bs => match recodeBlock s img.geo bs x d.stream t.ctx layer (key / 2 ^ 26 % 256) (key % 2 ^ 26) e pages new with
        | .error z => .error z
        | .ok c => .ok (c, countRecode s img.geo bs pages)
    else .ok (plainCopy e pages new, s)
  match made with
  | .error z => .error z
  | .ok (c, s) =>
    let s := c.pages.foldl (fun s p => putFrame s t.ctx p.1 0 p.2) s
    let n := c.entry.pfn
    let entry := { c.entry with tier := pfnTier n, compute := inCompute s n, node := nodeNum s }
    match findStep s d.id with
    | none => .ok s
    | some u =>
      let s := putStep s { u with newEntries := u.newEntries ++ [(key, entry)],
                                  streams := [{ stream := d.stream, entries := ((u.streams.head?.map (·.entries)).getD []) ++ [(key, e)] }],
                                  taken := u.taken + c.pages.length }
      let r := if d.recode then sendDeltas s t.ctx d.id (recodeDeltas s t.ctx d.stream key pages c.pages) else (true, s)
      if r.1 then .ok r.2 else .error (.status St.STEP_FAULT)

/-- Frames that a MOVE reserves for a block: they are the step's. -/
def moveReserve (s : State) (t : Step) (key k : Nat) (picks : List Nat) : Except MoveBad (List Nat × State) :=
  match moveFrames s t.ctx t.desc.dest (key / 2 ^ 26 % 256) (key % 2 ^ 26) k picks with
  | .error z => .error z
  | .ok (new, s) => match findStep s t.desc.id with
    | some u => .ok (new, putStep s { u with reserve := u.reserve ++ new })
    | none => .ok (new, s)

/-- A block of a MOVE as its page headers must name it. -/
def movePlace (t : Step) (key : Nat) (e : BlockEntry) : PlaceOf :=
  placeIn t.ctx (key / 2 ^ 34) t.desc.stream (key / 2 ^ 26 % 256) (key % 2 ^ 26) e

/-- Copy one block of a MOVE; a remote one is fetched first, into two frames reserved for it, and copied at the step's end. -/
def moveBlock (s : State) (t : Step) (x : Stream) (key : Nat) (e : BlockEntry) (picks : List Nat) : Except MoveBad (Nat × State) :=
  if e.tier = 2 then
    (match moveReserve s t key 2 picks with
      | .error z => .error z
      | .ok (new, s) => match findStep s t.desc.id with
        | none => .ok (2, s)
        | some u =>
          let s := putStep s { u with fetches := u.fetches ++ [(key, e, new)],
                                      streams := if u.streams.isEmpty then [{ stream := t.desc.stream }] else u.streams }
          .ok (2, fetchBlock s t 0 t.desc.stream key e))
  else match plainPages (movePlace t key e) (blockPages s t.ctx t key e) with
    | .error z => .error z
    | .ok pages => match moveReserve s t key (if t.desc.recode then 2 else pages.length) picks with
      | .error z => .error z
      | .ok (new, s) => match moveCopy s t x key e pages new with
        | .error z => .error z
        | .ok s => .ok (new.length, s)

/-- Copy the remote blocks that have arrived. -/
def moveFetched (t : Step) (x : Stream) : State → List (Nat × BlockEntry × List Nat) → Except (MoveBad × State) State
  | s, [] => .ok s
  | s, (key, e, new) :: rest => match plainPages (movePlace t key e) (blockPages s t.ctx t key e) with
    | .error z => .error (z, s)
    | .ok pages => match moveCopy s t x key e pages new with
      | .error z => .error (z, s)
      | .ok s => moveFetched t x s rest

/-- The blocks of one portion, in order. A shared block is left alone (R68); so are an empty one and one already
in place. -/
def moveBlocks (t : Step) (x : Stream) : State → List (Nat × BlockEntry) → List Nat → Except (MoveBad × State) State
  | s, [], _ => .ok s
  | s, (key, e) :: rest, picks =>
    if e.shared then
      match findStep s t.desc.id with
      | some u => moveBlocks t x (putStep s { u with status := St.PAGE_SHARED }) rest picks
      | none => .ok s
    else if e.tier = 3 || (placeCode e = some t.desc.dest && !t.desc.recode) then moveBlocks t x s rest picks
    else match moveBlock s t x key e picks with
      | .error z => .error (z, s)
      | .ok (k, s) => moveBlocks t x s rest (picks.drop k)

/-- A MOVE ends without effect. -/
def moveFails (s : State) (t : Step) (why : MoveBad) : State :=
  match findStep s t.desc.id with
  | none => s
  | some u => match why with
    | .status c => if c = St.STEP_FAULT then stepFault s u 0x15 St.NO_PATH 0 else cutWith s u c (moveResults 0 0)
    | .page b pfn => cutWith (pageReport s u b pfn) u b.status (moveResults 0 0)

def moveWork (pick : List Nat) (ecc : MemObs) (s : State) (t : Step) (lo hi : Nat) : State :=
  match streamAt s t.desc.stream with
  | none => cutWith s t St.STREAM_ABSENT (moveResults 0 0)
  | some x =>
    let x := x.view s t.desc.stream
    let blocks := (spanOf t.desc).blocks x.entries lo hi
    let frames := blocks.flatMap fun b => entryFrames b.2
    let lost := lostFrame s frames ecc
    let s := memEvents s frames ecc
    if lost.isSome then stepFault s t 0x10 St.DATA_POISON (lost.getD 0)
    else match moveBlocks t x s blocks pick with
    | .ok s => s
    | .error z => moveFails z.2 t z.1

def move (id : Nat) (pick : List Nat) (ecc : MemObs) (s : State) : State :=
  runPortion s id 5 (fun d => d.op == 0 || d.op > 4) moveRefusal moveItems {} (moveWork pick ecc)

/-- MOVE (R67, R68; 05 R143, R144; 06 R164). A PAGE_MOVE of a reserved operation is refused here. -/
def execMove (id : Nat) (pick : List Nat) (ecc : MemObs) (s : State) : Host.Outcome State Fault Refusal := whileAlive s (move id pick ecc s)

/-! ### FLUSH and FLUSH_INVALIDATE (R67, R70, R71; 07 R173) -/

def inRun (lo n pfn : Nat) : Bool := lo ≤ pfn && pfn < lo + n

/-- Osier regions that a run of frames covers, in rising order. -/
def coveredRegions (lo n : Nat) : List Nat :=
  let first := max lo (24 * 2 ^ 22)
  let last := min (lo + n) (32 * 2 ^ 22)
  if last ≤ first then []
  else (span (first / 128) ((last - 1) / 128)).filterMap fun r => regionOf (r * 128)

/-- A flush of some frames: their dirty lines are written back, and with `drop` all their lines leave the cache (R67, R70). -/
def flushFrames (s : State) (drop : Bool) (p : Nat → Bool) : State := if drop then dropFrames s p else cleanFrames s p

/-- Work of a flush on its frames [lo, hi): the lines dirty now go back, but for those of regions that are held, which follow at the
flush's end (07 R175); the regions' writes so far are noted. -/
def flushWork (s : State) (t : Step) (lo hi : Nat) : State :=
  let base := t.desc.n 28 4
  let s := flushFrames s (t.desc.op == 2) fun p => inRun (base + lo) (hi - lo) p && !frameHeld s p
  let seen := ((coveredRegions (base + lo) (hi - lo)).filter fun k => !(t.regions.any fun r => r.1 == k)).map fun k =>
    (k, (regionSt s k).writes, 0)
  match findStep s t.desc.id with
  | some u => putStep s { u with regions := u.regions ++ seen,
                                 params := u.params ++ (seen.filter fun r => regionHeld s r.1).map fun r => BitVec.ofNat 32 r.1 }
  | none => s

/-- Regions whose lines a flush found held. -/
def flushHeld (t : Step) : List Nat := t.params.map (·.toNat)

def flush (id : Nat) (s : State) : State := runPortion s id 5 (fun d => d.op == 1) moveRefusal moveItems {} flushWork

/-- FLUSH (R67, R71; 05 R143, R144). -/
def execFlush (id : Nat) (s : State) : Host.Outcome State Fault Refusal := whileAlive s (flush id s)

def flushInvalidate (id : Nat) (s : State) : State := runPortion s id 5 (fun d => d.op == 2) moveRefusal moveItems {} flushWork

/-- FLUSH_INVALIDATE (R67, R70). -/
def execFlushInvalidate (id : Nat) (s : State) : Host.Outcome State Fault Refusal := whileAlive s (flushInvalidate id s)

/-- First frame of a region. -/
def regionPfn (k : Nat) : Nat := (k / 2 ^ 15 + 24) * 2 ^ 22 + k % 2 ^ 15 * 128

/-- The generation of a region is returned (R173): the next controller write advances it, and one that landed since the flush
began has scheduled one more advance, which follows at once. -/
def returnGen (s : State) (k writes0 : Nat) : State :=
  let r := regionSt s k
  setRegion s k { r with gen := if r.writes ≠ writes0 then (r.gen + 1) % 2 ^ 48 else r.gen, returned := true }

/-- Entry of a generation list (10 R257). -/
def genEntry (s : State) (k : Nat) : Bytes := putLe 4 (regionPfn k) ++ putLe 8 (regionSt s k).gen ++ zeros 4

/-! ### PAGE_MOVE_STEP_END -/

/-- A MOVE swaps the entries whose blocks still lie where it copied them from; a block that another commit replaced meanwhile
keeps its newer entry (DESIGN CHOICE). -/
def moveEnd (s : State) (t : Step) : State :=
  let d := t.desc
  match streamAt s d.stream with
  | none => cutWith s t St.STREAM_ABSENT (moveResults 0 0)
  | some x =>
    let old := (t.streams.head?.map (·.entries)).getD []
    let seen := x.view s d.stream
    let live := t.newEntries.filter fun e => seen.entry e.1 == tget {} old e.1
    let used := live.flatMap fun e => entryFrames e.2
    let s := putStream s d.stream { x with entries := live.foldl (fun es e => tset {} es e.1 e.2) x.entries }
    let s := live.foldl (fun s e =>
      let bytes := frameBytesOf s t.ctx e.2.pfn
      commitEntry s t.ctx e.2 [(pageHdr bytes).kTable, (pageHdr bytes).vTable]) s
    let s := giveBack s t (t.reserve.filter fun p => !used.contains p)
    let s := dropRemote s t.ctx (replacedRemote x live)
    let s := retireFrames s (replacedFrames x live) (earlierSteps s d.id)
    finish s t t.status 0 (moveResults t.taken 0)

/-- A flush ends once no region of it is held; the lines it found held go back now (07 R175). -/
def flushEnd (s : State) (t : Step) : State :=
  let d := t.desc
  let s := if (flushHeld t).isEmpty then s
    else flushFrames s (d.op == 2) fun p => inRun (d.n 28 4) (d.n 32 4) p && (regionOf p).any fun k => (flushHeld t).contains k
  let list := ((t.regions.take (d.n 36 4)).flatMap fun r => genEntry s r.1)
  let s := hostOut s d (d.addr 40) list
  let s := t.regions.foldl (fun s r => returnGen s r.1 r.2.1) s
  finish s t St.OK 0 (moveResults (d.n 32 4) t.regions.length)

/-- A MOVE whose remote blocks have all arrived copies them and ends, unless deltas are still to be acknowledged. -/
def moveGoes (s : State) (t : Step) : State :=
  if !t.awaits.isEmpty then s
  else if t.fetches.isEmpty then moveEnd s t
  else match streamAt s t.desc.stream with
    | none => cutWith s t St.STREAM_ABSENT (moveResults 0 0)
    | some x => match moveFetched t x (putStep s { t with fetches := [] }) t.fetches with
      | .error z => moveFails z.2 t z.1
      | .ok s => match findStep s t.desc.id with
        | some u => if u.deltas = 0 then moveEnd s u else s
        | none => s

def pageMoveStepEnd (id : Nat) (s : State) : State :=
  match findStep s id with
  | none => s
  | some t =>
    if t.kind ≠ 5 || t.left ≠ 0 || t.deltas ≠ 0 then s
    else if t.desc.op = 0 then moveGoes s t
    else if t.desc.op = 1 || t.desc.op = 2 then (if t.regions.any fun r => regionHeld s r.1 then s else flushEnd s t)
    else s

/-- PAGE_MOVE_STEP_END (R67, R68, R70, R71; 06 R164; 07 R173, R174). -/
def execPageMoveStepEnd (id : Nat) (s : State) : Host.Outcome State Fault Refusal := whileAlive s (pageMoveStepEnd id s)

/-! ### FREE (R67, R68) -/

/-- Committed length of a layer as its entries give it (DEDUCED: no rule states it after a FREE). -/
def layerLength (es : Tbl BlockEntry) (layer : Nat) : Nat :=
  (es.filter fun e => e.1 / 2 ^ 34 == layer).foldl (fun n e => max n (64 * (e.1 % 2 ^ 26) + e.2.count)) 0

/-- A table frame still has a block entry under it. -/
def tableUsed (es : Tbl BlockEntry) (key : Nat) : Bool :=
  let lk := key / 2 ^ 20
  let level := key % 2 ^ 20 / 2 ^ 17
  let ix := key % 2 ^ 17
  es.any fun e => e.1 / 2 ^ 26 == lk && (level == 0 || (level == 1 && e.1 % 2 ^ 26 / 2 ^ 22 == ix) || (level == 2 && e.1 % 2 ^ 26 / 2 ^ 10 == ix))

/-- A stream without some blocks: entries, lengths and the table frames of subtrees that empty (R57). -/
def Stream.without (x : Stream) (gone : List Nat) : Stream × List Nat :=
  let es := x.entries.filter fun e => !gone.contains e.1
  let layers := x.committed.map (·.1)
  let dead := x.tables.filter fun t => !tableUsed es t.1
  ({ x with entries := es,
            tables := x.tables.filter fun t => tableUsed es t.1,
            committed := layers.foldl (fun c l => if gone.any (fun k => k / 2 ^ 34 == l) then tset 0 c l (layerLength es l) else c) x.committed },
   dead.map (·.2))

/-- Prefix records a stream no longer names. -/
def lostRecords (old new : Tbl BlockEntry) : List Nat :=
  (((old.filter fun e => e.2.shared).map (·.2.recNo)).eraseDups).filter fun r => !(new.any fun e => e.2.shared && e.2.recNo == r)

/-- Zero deltas of the blocks a stream gives up, and their rows (16 R396, R397). -/
def freeRows (s : State) (ctx stream : Nat) (gone : List (Nat × BlockEntry)) : State :=
  match dataGroup s ctx with
  | none => s
  | some gi =>
    gone.foldl (fun s e =>
      match rowAt (grpOf s gi) stream e.1 with
      | none => s
      | some row =>
        let ms := blockDeltas s gi stream e.1 row ((blockFrames e.2).map (frameBytesOf s ctx)) []
        let s := (sendDeltas s ctx noStep ms).2
        setGrp s gi (dropRow (grpOf s gi) stream e.1)) s

/-- A stream gives up blocks: its own frames and emptied table frames leave, references on records drop, remote entries end;
a stream without any block left has no record any more. -/
def dropBlocks (s : State) (n : Nat) (x : Stream) (gone : List (Nat × BlockEntry)) (waits : List Nat) : State :=
  let y := x.without (gone.map (·.1))
  let own := gone.filter fun e => !e.2.shared
  let s := freeRows s x.ctx n own
  let remote := gone.countP fun e => e.2.tier == 2
  let s := if y.1.entries.isEmpty then { s with tier := { s.tier with streams := tdel s.tier.streams n } } else putStream s n y.1
  let s := { s with tier := { s.tier with
               remoteUsed := tmod 0 s.tier.remoteUsed x.ctx fun u => u - remote } }
  let s := (lostRecords gone (y.1.view s n).entries).foldl pfxDrop s
  retireFrames s (own.flatMap (fun e => entryFrames e.2) ++ y.2) waits

def freeWork (s : State) (t : Step) (_ hi : Nat) : State :=
  let d := t.desc
  if hi < moveItems d then s
  else match streamAt s d.stream with
    | none => cutWith s t St.STREAM_ABSENT (moveResults 0 0)
    | some x =>
      let gone := (spanOf d).blocks (x.view s d.stream).entries 0 (moveItems d)
      let n := ((gone.filter fun e => !e.2.shared).flatMap fun e => entryFrames e.2).length
      let s := dropBlocks s d.stream x gone (earlierSteps s d.id)
      finish s t (if gone.any (fun e => e.2.shared) then St.PAGE_SHARED else St.OK) 0 (moveResults n 0)

def free (id : Nat) (s : State) : State := runPortion s id 5 (fun d => d.op == 3) moveRefusal moveItems {} freeWork

/-- FREE (R67, R68; 05 R143, R144). It takes effect with its last portion. A shared block's frames stay its record's; the stream's
reference drops and the descriptor reports PAGE_SHARED. -/
def execFree (id : Nat) (s : State) : Host.Outcome State Fault Refusal := whileAlive s (free id s)

/-! ### The set-up flush (R86) -/

def flushBase (s : State) : Nat := rf s Off.TIER_FLUSH_BASE 0 32
def flushCount (s : State) : Nat := rf s Off.TIER_FLUSH_COUNT 0 32

def tierFlush (m : Master) (invalidate : Bool) (s : State) : State :=
  regCmd s m Off.TIER_FLUSH_CTRL [(1, 1, b2n invalidate)] fun t =>
    if t.tier.flushBusy then t
    else
      let t := flushFrames t invalidate fun p => inRun (flushBase t) (flushCount t) p && !frameHeld t p
      { t with tier := { t.tier with flushBusy := true } }

/-- TIER_FLUSH (R86). Lines of a region that is held go back when the flush ends (07 R175). -/
def execTierFlush (m : Master) (invalidate : Bool) (s : State) : Host.Outcome State Fault Refusal := .next (tierFlush m invalidate s)

/-- Regions a set-up flush covers that are held. -/
def tierFlushHeld (s : State) : Bool := (coveredRegions (flushBase s) (flushCount s)).any (regionHeld s)

def tierFlushDone (s : State) : State :=
  if !s.tier.flushBusy || tierFlushHeld s then s
  else
    let s := flushFrames s (rbit s Off.TIER_FLUSH_CTRL 1) fun p => inRun (flushBase s) (flushCount s) p && isHbm p && 24 ≤ stackOf p
    { s with tier := { s.tier with flushBusy := false } }

/-- TIER_FLUSH_DONE (R86): no region of the range is held any more, and lines that were go back (07 R175). -/
def execTierFlushDone (s : State) : Host.Outcome State Fault Refusal := whileAlive s (tierFlushDone s)

end Sys2Proof.Machine
end

