-- ==== Sys2Proof/Machine/Coma.lean ====
section
/-! DEFINITION. Coma indexes and tenant searches: local and sharded search, index operations, drain (08 R194 to R221; 05 R143, R144;
10 R257; 12 R296). -/
namespace Sys2Proof.Machine
open Sys2Proof

/-! ### Frames of a section (R205) -/

/-- The parts of a byte range of a run of frames: frame, offset, length. -/
def runParts (first : Nat) : Nat → Nat → Nat → List (Nat × Nat × Nat)
  | 0, _, _ => []
  | fuel + 1, off, n =>
    if n = 0 then []
    else
      let k := min n (16384 - off % 16384)
      (first + off / 16384, off % 16384, k) :: runParts first fuel (off + k) (n - k)

/-- `n` bytes of a section at an offset. -/
def runRead (s : State) (ctx first off n : Nat) : Bytes :=
  (runParts first (n / 16384 + 2) off n).flatMap fun p => getFrame s ctx p.1 p.2.1 p.2.2

def runWrite (s : State) (ctx first off : Nat) (bs : Bytes) : State :=
  ((runParts first (bs.length / 16384 + 2) off bs.length).foldl (fun (a : State × Bytes) p =>
    (putFrame a.1 ctx p.1 p.2.1 (a.2.take p.2.2), a.2.drop p.2.2)) (s, bs)).1

/-- The lowest run of `k` free frames from `p` on, within [.., hi). -/
def seekRun (s : State) (n place k hi : Nat) : Nat → Nat → Option Nat
  | 0, _ => none
  | fuel + 1, p =>
    if p + k > hi then none
    else match (List.range k).find? fun i => !frameFree s n place (p + i) with
      | none => some p
      | some i => seekRun s n place k hi fuel (nextCandidate s place (p + i))

/-- Runs that follow on one another, as one; the list rises by base. -/
def joinRuns : List (Nat × Nat) → List (Nat × Nat)
  | [] => []
  | r :: rest => match joinRuns rest with
    | n :: more => if n.1 ≤ r.1 + r.2 then (r.1, max r.2 (n.1 + n.2 - r.1)) :: more else r :: n :: more
    | [] => [r]

/-- A free run of a pool: the allocator's choice when it is one, else the lowest. -/
def pickRun (s : State) (n place k : Nat) (pick : Option Nat) : Option Nat :=
  let fuel := s.tier.frames.length + s.tier.scrub.length + s.tier.retired.length + (nodeRanges s).length + s.osier.regions.length + 300
  let low := (joinRuns (sortBy (fun a b => a.1 < b.1) (sliceRuns s n place))).findSome? fun r => seekRun s n place k (r.1 + r.2) fuel r.1
  match pick with
  | some p => if (List.range k).all fun i => frameFree s n place (p + i) then some p else low
  | none => low

def takeRun (s : State) (ctx first k : Nat) : State :=
  (List.range k).foldl (fun s i => setFrameInfo s (first + i) { ctx := ctx, use := .coma, mapGen := s.map.gen }) s

/-! ### Index geometry (R205 to R207) -/

def indexOf (s : State) (n : Nat) : Option Index := tfind s.coma.indexes n
def setIndex (s : State) (n : Nat) (x : Index) : State := { s with coma := { s.coma with indexes := tput s.coma.indexes n x } }

def Index.rawBytes (x : Index) : Nat := if x.rcode = 7 then 0 else 8 * 2 ^ x.rcode
def Index.rowSize (x : Index) : Nat := cdiv (24 + x.m + x.rawBytes) 32 * 32
def Index.hasCodes (x : Index) : Bool := x.m != 0
def Index.hasRaw (x : Index) : Bool := x.rcode != 7

/-- Elements and element size of a section: 0 ROWS, 1 NEIGHBOURS, 2 CODEBOOK. -/
def Index.section (x : Index) (sec : Nat) : Nat × Nat :=
  match sec with
  | 0 => (x.capacity, x.rowSize)
  | 1 => if x.degree = 0 then (0, 4) else (x.capacity, 4 * x.degree)
  | 2 => if x.m = 0 then (0, 1) else (256 * x.m, x.b / 8)
  | _ => (0, 1)

def Index.sectionFirst (x : Index) (sec : Nat) : Nat := if sec = 0 then x.rows else if sec = 1 then x.nbrs else x.book

def Index.sectionFrames (x : Index) (sec : Nat) : Nat := cdiv ((x.section sec).1 * (x.section sec).2) 16384

/-- A row (R206). -/
structure ComaRow where
  id : Nat
  tag : Nat
  valid : Bool
  dead : Bool
  codes : Bytes
  raw : Bytes

def rowBytesAt (s : State) (x : Index) (r : Nat) : Bytes := runRead s x.ctx x.rows (r * x.rowSize) x.rowSize

def rowOf (s : State) (x : Index) (r : Nat) : ComaRow :=
  let b := rowBytesAt s x r
  { id := leAt b 0 8, tag := leAt b 8 8, valid := bitOf (leAt b 16 4) 0, dead := bitOf (leAt b 16 4) 1, codes := slice b 24 x.m,
    raw := slice b (24 + x.m) x.rawBytes }

def neighboursOf (s : State) (x : Index) (r : Nat) : List Nat :=
  let b := runRead s x.ctx x.nbrs (r * 4 * x.degree) (4 * x.degree)
  (List.range x.degree).map fun i => leAt b (4 * i) 4

/-- Centroid j of subspace m. -/
def centroid (s : State) (x : Index) (m j : Nat) : Bytes := runRead s x.ctx x.book ((256 * m + j) * (x.b / 8)) (x.b / 8)

/-! ### Search record and distances (R202, R203, R209, R210) -/

/-- A buffer address in a record: its bits [5:0] are ignored (10 R257). -/
def recBuffer (b : Bytes) (off : Nat) : Nat := leAt b off 8 / 64 * 64

structure SearchHdr where
  index : Nat
  mode : Nat
  widen : Nat
  k : Nat
  ef : Nat
  rerank : Nat
  shards : Nat
  mask : Nat
  value : Nat
  list : Nat
  result : Nat

def searchHdr (b : Bytes) : SearchHdr :=
  { index := leAt b 0 2, mode := leAt b 2 1, widen := leAt b 3 1, k := leAt b 4 2, ef := leAt b 6 2, rerank := leAt b 8 2,
    shards := leAt b 10 2, mask := leAt b 16 8, value := leAt b 24 8, list := recBuffer b 32, result := recBuffer b 40 }

/-- Bytes of the product-code part of a query, padded to 8. -/
def Index.codeBytes (x : Index) : Nat := if x.m = 0 then 0 else cdiv (x.m * x.b) 64 * 8
def Index.queryBytes (x : Index) : Nat := x.codeBytes + x.rawBytes

/-- Product-code distance of a row. -/
def codeDist (s : State) (x : Index) (q codes : Bytes) : Nat :=
  ((List.range x.m).map fun m => hamming (slice q (m * (x.b / 8)) (x.b / 8)) (centroid s x m (codes.getD m 0).toNat)).sum

def rawDist (x : Index) (q raw : Bytes) : Nat := hamming (slice q x.codeBytes x.rawBytes) raw

/-- The primary distance. -/
def primaryDist (s : State) (x : Index) (q : Bytes) (r : ComaRow) : Nat := if x.hasCodes then codeDist s x q r.codes else rawDist x q r.raw

def passes (h : SearchHdr) (r : ComaRow) : Bool := (r.tag &&& h.mask) == (h.value &&& h.mask)

/-- Order of every list the engine keeps: distance, then row. -/
def nearer (a b : Nat × Nat) : Bool := a.1 < b.1 || (a.1 = b.1 && a.2 < b.2)

/-- Ranges of a search record (R209). -/
def hdrOk (h : SearchHdr) : Bool :=
  h.mode ≤ 1 && h.widen ≤ 7 && 1 ≤ h.k && h.k ≤ 1024 && (h.mode = 0 || (h.k ≤ h.ef && h.ef ≤ 4096)) &&
    (h.rerank = 0 || (h.k ≤ h.rerank && h.rerank ≤ 4096)) && h.shards ≤ 256

/-- The record fits the index (R209). -/
def hdrFits (x : Index) (h : SearchHdr) : Bool :=
  (h.mode = 0 || x.degree != 0) && (h.rerank = 0 || (x.hasCodes && x.hasRaw))

/-! ### Search procedures (R211 to R214) -/

/-- What a scan or traversal finds: rows with distance, nearest first. -/
structure Found where
  best : List (Nat × Nat) := []
  tombs : Nat := 0
  dists : Nat := 0
  dead : Bool := false
  full : Bool := false

/-- FLAT (R211). -/
def flatSearch (s : State) (x : Index) (h : SearchHdr) (q : Bytes) : Found :=
  (List.range x.capacity).foldl (fun f r =>
    let row := rowOf s x r
    if !row.valid then f
    else if row.dead then { f with tombs := f.tombs + 1 }
    else
      let f := { f with dists := f.dists + 1 }
      if passes h row then { f with best := (insertBy nearer (primaryDist s x q row, r) f.best).take (max h.k h.rerank) } else f) {}

/-- State of a traversal: visited rows, candidates, results. -/
structure Walker where
  seen : List Nat
  cand : List (Nat × Nat)
  res : List (Nat × Nat)
  tombs : Nat := 0
  dists : Nat := 0
  full : Bool := false

/-- Neighbours of one expanded row, in list order. -/
def expand (s : State) (x : Index) (h : SearchHdr) (q : Bytes) (ef : Nat) : Walker → List Nat → Walker
  | w, [] => w
  | w, n :: ns =>
    let row := rowOf s x n
    if decide (n ≥ x.capacity) || !row.valid || w.seen.contains n then expand s x h q ef w ns
    else if w.seen.length ≥ 16384 then { w with full := true }
    else
      let w := { w with seen := w.seen ++ [n] }
      if row.dead then expand s x h q ef { w with tombs := w.tombs + 1 } ns
      else
        let d := primaryDist s x q row
        let w := { w with dists := w.dists + 1 }
        let worst := (w.res.getLast?.map (·.1)).getD 0
        if w.res.length < ef || d < worst then
          let w := { w with cand := insertBy nearer (d, n) w.cand }
          expand s x h q ef (if passes h row then { w with res := (insertBy nearer (d, n) w.res).take ef } else w) ns
        else expand s x h q ef w ns

/-- The loop of R212; each turn expands one row, so the number of rows bounds it. -/
def traverse (s : State) (x : Index) (h : SearchHdr) (q : Bytes) (ef : Nat) : Nat → Walker → Walker
  | 0, w => w
  | fuel + 1, w =>
    match w.cand with
    | [] => w
    | c :: rest =>
      if decide (w.res.length ≥ ef) && decide (c.1 > (w.res.getLast?.map (·.1)).getD 0) then w
      else
        let w := expand s x h q ef { w with cand := rest } (neighboursOf s x c.2)
        if w.full then w else traverse s x h q ef fuel w

/-- One round of GRAPH (R212). -/
def graphRound (s : State) (x : Index) (h : SearchHdr) (q : Bytes) (entry : List Nat) (ef : Nat) : Found :=
  match entry.find? fun r => decide (r < x.capacity) && (rowOf s x r).valid && !(rowOf s x r).dead with
  | none => { dead := true }
  | some r =>
    let row := rowOf s x r
    let d := primaryDist s x q row
    let w := traverse s x h q ef (min x.capacity 16384 + 1)
      { seen := [r], cand := [(d, r)], res := if passes h row then [(d, r)] else [], dists := 1 }
    { best := w.res.take (max h.k h.rerank), tombs := w.tombs, dists := w.dists, full := w.full }

/-- Re-ranking (R213), then the first k; `raws` counts sketches compared. -/
def finishRank (s : State) (x : Index) (h : SearchHdr) (q : Bytes) (best : List (Nat × Nat)) : List (Nat × Nat) :=
  if h.rerank = 0 then best.take h.k
  else (sortBy nearer ((best.take h.rerank).map fun b => (rawDist x q (rowOf s x b.2).raw, b.2))).take h.k

/-- Rounds of a GRAPH search (R214): round 0, then up to `widen` further ones. Rows of the last round, and the counts of all. -/
def graphRounds (s : State) (x : Index) (h : SearchHdr) (q : Bytes) (entry : List Nat) : Nat → Nat → Found → Found × Nat
  | 0, r, f => (f, r)
  | fuel + 1, r, f =>
    let ef := min 4096 (h.ef * 2 ^ r)
    if f.dead || (finishRank s x h q f.best).length ≥ h.k || r ≥ h.widen || (r ≥ 1 && ef ≥ 4096) then (f, r)
    else
      let g := graphRound s x h q entry (min 4096 (h.ef * 2 ^ (r + 1)))
      graphRounds s x h q entry fuel (r + 1) { g with tombs := g.tombs + f.tombs, dists := g.dists + f.dists }

/-- The engine's answer to one search on one index, with the distances it computed and the sketches it re-ranked. -/
def runSearch (s : State) (x : Index) (h : SearchHdr) (q : Bytes) (entry : List Nat) (updates0 : Nat) : SResult × Nat × Nat :=
  let f : Found × Nat := if h.mode = 0 then (flatSearch s x h q, 0)
    else graphRounds s x h q entry 8 0 (graphRound s x h q entry h.ef)
  let hits := (finishRank s x h q f.1.best).map fun b => ({ id := (rowOf s x b.2).id, row := b.2, dist := b.1 } : Hit)
  ({ hits := hits, underfull := decide (hits.length < h.k), entryDead := f.1.dead, visitedFull := f.1.full,
     updated := x.updates != updates0, rounds := f.2, tombs := f.1.tombs, examined := sat32 f.1.dists },
   f.1.dists, if h.rerank = 0 then 0 else (f.1.best.take h.rerank).length)

/-! ### Result records (R218) -/

def SResult.flags (r : SResult) : Nat :=
  b2n r.underfull + 2 * b2n r.missing + 4 * b2n r.entryDead + 8 * b2n r.visitedFull + 16 * b2n r.updated

def SResult.bytes (r : SResult) : Bytes :=
  putLe 2 r.hits.length ++ putLe 2 r.flags ++ putLe 1 r.rounds ++ putLe 1 0 ++ putLe 2 r.answered ++ putLe 4 r.tombs ++
    putLe 4 r.examined ++ zeros 16 ++ r.hits.flatMap fun h => putLe 8 h.id ++ putLe 4 h.row ++ putLe 2 h.dist ++ putLe 2 h.shard

def resultOf (b : Bytes) (shard : Nat) : SResult :=
  let f := leAt b 2 2
  { hits := (List.range (leAt b 0 2)).map fun i => { id := leAt b (32 + 16 * i) 8, row := leAt b (40 + 16 * i) 4, dist := leAt b (44 + 16 * i) 2, shard := shard },
    underfull := bitOf f 0, missing := bitOf f 1, entryDead := bitOf f 2, visitedFull := bitOf f 3, updated := bitOf f 4,
    rounds := leAt b 4 1, answered := leAt b 6 2, tombs := leAt b 8 4, examined := leAt b 12 4 }

/-- The merge of R217; a shard that answered with an error has answered, and is missing. -/
def mergeShards (k shards : Nat) (answers : List (Nat × Option SResult)) : SResult :=
  let got := answers.filterMap fun a => a.2.map fun r => (a.1, r)
  let hits := got.flatMap fun a => a.2.hits.map fun h => { h with shard := a.1 }
  let before (a b : Hit) : Bool := a.dist < b.dist || (a.dist = b.dist && (a.shard < b.shard || (a.shard = b.shard && a.row < b.row)))
  let best := (sortBy before hits).take k
  { hits := best, underfull := decide (best.length < k), missing := decide (got.length < shards), entryDead := got.any (·.2.entryDead),
    visitedFull := got.any (·.2.visitedFull), updated := got.any (·.2.updated), rounds := got.foldl (fun n a => max n a.2.rounds) 0,
    answered := answers.length, tombs := (got.map (·.2.tombs)).sum % 2 ^ 32, examined := sat32 (got.map (·.2.examined)).sum }

/-! ### Engines and queue (R194, R195) -/

/-- Start a search: it samples the index's updates count and entry rows. -/
def startQuery (s : State) (q : Query) : Query :=
  match indexOf s q.index with
  | some x => { q with running := true, updates0 := x.updates, entry0 := x.entry }
  | none => { q with running := true }

/-- A search enters its engine, or the queue behind it. -/
def enterEngine (s : State) (q : Query) : State :=
  let q := { q with q := s.coma.nextQ }
  let q := if engineRunning s q.die < tenantContexts s q.die && engineQueued s q.die = 0 && !comaFenced s q.die then startQuery s q else q
  { s with coma := { s.coma with queries := s.coma.queries ++ [q], nextQ := s.coma.nextQ + 1 } }

def putQuery (s : State) (q : Query) : State :=
  { s with coma := { s.coma with queries := s.coma.queries.map fun (p : Query) => if p.q = q.q then q else p } }
def dropQuery (s : State) (n : Nat) : State := { s with coma := { s.coma with queries := s.coma.queries.filter fun p => p.q != n } }
def findQuery (s : State) (n : Nat) : Option Query := s.coma.queries.find? fun p => p.q == n

def comaQueueStart (die : Nat) (s : State) : State :=
  match (engineQueries s die).find? fun q => !q.running with
  | none => s
  | some q => if engineRunning s die < tenantContexts s die && !comaFenced s die then putQuery s (startQuery s q) else s

/-- COMA_QUEUE_START (R195). -/
def execComaQueueStart (die : Nat) (s : State) : Host.Outcome State Fault Refusal := whileAlive s (comaQueueStart die s)

/-! ### SEARCH (R209, R215, R216) -/

/-- An index as a context sees it. -/
def indexFor (s : State) (ctx n : Nat) : Except Nat Index :=
  match indexOf s n with
  | none => .error St.COMA_INDEX_INVALID
  | some x => if x.ctx ≠ ctx then .error St.COMA_INDEX_INVALID else if x.dropping then .error St.COMA_INDEX_DROPPING else .ok x

/-- Shard list entries: node, index, QPN, key. -/
def shardEntry (b : Bytes) (i : Nat) : Nat × Nat × Nat × Nat :=
  (leAt b (16 * i) 2 % 2 ^ 14, leAt b (16 * i + 2) 2, leAt b (16 * i + 4) 4 % 2 ^ 24, leAt b (16 * i + 8) 4)

/-- Query bits of a sharded search: as long as a local shard's index says, else as much of the longest form as can be read
(DESIGN CHOICE: the record does not say its length). -/
def shardBits (s : State) (hv : AddrView) (ctx a : Nat) (es : List (Nat × Nat × Nat × Nat)) : Option Bytes :=
  let own : Option Index := es.findSome? fun e => if e.1 = nodeNum s then (match indexFor s ctx e.2.1 with
      | .ok x => some x
      | .error _ => none) else none
  match own with
  | some x => hostRead hv (a + 64) x.queryBytes
  | none => (List.range 81).reverse.findSome? fun i => hostRead hv (a + 64) (8 * i)

/-- A search of one index that can start: its index, or the status that refuses it. -/
def searchable (s : State) (ctx n : Nat) (h : SearchHdr) : Except Nat Index :=
  match indexFor s ctx n with
  | .error e => .error e
  | .ok x => if hdrFits x h then .ok x else .error St.COMA_PARAM

/-- Answers that find no open query, or repeat one, are counted; the counter is that of die 0 (DESIGN CHOICE). -/
def lateAnswer (s : State) : State := count s (ckey (Off.COMA_CNT_LO 0) 6 0) 1

/-- The query still takes an answer of a shard. -/
def Query.awaits (q : Query) (pos : Nat) : Bool :=
  !q.timedOut && decide (pos < q.shards.length) && !q.answers.any (·.1 == pos) && !q.failed.contains pos

/-- Every shard of a query has answered, or will not. -/
def Query.complete (q : Query) : Bool := q.answers.length + q.failed.length == q.shards.length

/-- The answer of one shard, of this node or another, is recorded; none is an error. Where the query takes it no more it is dropped and
counted (R217). -/
def recordShard (s : State) (q : Nat) (pos : Nat) (r : Option SResult) : State :=
  match findQuery s q with
  | some p => if p.awaits pos then putQuery s { p with answers := p.answers ++ [(pos, r)] } else lateAnswer s
  | none => lateAnswer s

/-- A shard will not answer: its request could not leave, or failed (12 R291). -/
def missAt (s : State) (q pos : Nat) : State :=
  match findQuery s q with
  | some p => if p.awaits pos then putQuery s { p with failed := p.failed ++ [pos] } else s
  | none => s

/-- Body of a SHARD_REQUEST: the header with shards 0 and the entry's index, its key, the query bits (12 R296). -/
def shardBody (hdr bits : Bytes) (index key : Nat) : Bytes :=
  putAt (putAt hdr 10 (putLe 2 0)) 0 (putLe 2 index) ++ putLe 4 key ++ zeros 4 ++ bits

/-- One shard leaves: on an engine of this node, or to its node; one that cannot leave counts as missing. -/
def sendShard (ctx id parent : Nat) (hdr bits : Bytes) (s : State) (x : Nat × (Nat × Nat × Nat × Nat)) : State :=
  let pos := x.1
  let (node, index, qpn, key) := x.2
  if node = nodeNum s then
    match searchable s ctx index (searchHdr hdr) with
    | .ok ix => enterEngine s { id := some id, die := ix.home, ctx := ctx, index := index, hdr := hdr, bits := bits, parent := some (parent, pos) }
    | .error _ => recordShard s parent pos none
  else
    let q := qpOf s qpn
    if q.st = .ready && q.ctx = ctx && q.peer = node then postSend s qpn 0x10 id (shardBody hdr bits index key)
    else missAt s parent pos

/-- Admission of a SEARCH. -/
def admitSearch (s : State) (d : Desc) (items : Nat) : Option State :=
  if !mayAdmit s d.id then none
  else match portion s d items true with
    | none => none
    | some (_, cost) => some (admitStep s d cost {})

def searchLocal (s : State) (d : Desc) (hdr : Bytes) (hv : AddrView) : State :=
  let h := searchHdr hdr
  match searchable s d.ring h.index h with
  | .error e => refuse s d e
  | .ok x => match hostRead hv (d.addr 24 + 64) x.queryBytes with
    | none => refuse s d St.HOST_READ_ERROR
    | some bits =>
      if queueFull s x.home then noteEngines s d [x.home]
      else match admitSearch s d 1 with
        | none => s
        | some s => enterEngine s { id := some d.id, die := x.home, ctx := d.ring, index := h.index, hdr := hdr, bits := bits }

def searchSharded (s : State) (d : Desc) (hdr : Bytes) (hv : AddrView) : State :=
  let h := searchHdr hdr
  match hostRead hv h.list (16 * h.shards) with
  | none => refuse s d St.HOST_READ_ERROR
  | some b =>
    let es := (List.range h.shards).map (shardEntry b)
    match shardBits s hv d.ring (d.addr 24) es with
    | none => refuse s d St.HOST_READ_ERROR
    | some bits =>
      let homes := es.filterMap fun e => if e.1 = nodeNum s then (indexOf s e.2.1).map (·.home) else none
      if !queuesTake s homes then noteEngines s d homes
      else match admitSearch s d h.shards with
        | none => noteItems s d h.shards
        | some s =>
          let n := s.coma.nextQ
          let p : Query := { q := n, id := some d.id, ctx := d.ring, hdr := hdr, bits := bits, shards := es, running := true }
          let s := { s with coma := { s.coma with queries := s.coma.queries ++ [p], nextQ := n + 1 } }
          (es.zipIdx.map fun e => (e.2, e.1)).foldl (sendShard d.ring d.id n hdr bits) s

def search (id : Nat) (hv : AddrView) (s : State) : State :=
  match findDesc s id with
  | none => s
  | some d =>
    if d.kind ≠ 6 || !(d.n 16 1 == 0 || decide (d.n 16 1 > 6)) || !descReady s d then s
    else if d.n 16 1 > 6 then refuse s d St.FMT_CODE_INVALID
    else if !rbit s Off.COMA_CTRL 0 then refuse s d St.COMA_DISABLED
    else match hostRead hv (d.addr 24) 64 with
      | none => refuse s d St.HOST_READ_ERROR
      | some hdr =>
        if !hdrOk (searchHdr hdr) then refuse s d St.COMA_PARAM
        else if (searchHdr hdr).shards = 0 then searchLocal s d hdr hv
        else searchSharded s d hdr hv

/-- SEARCH (R208 to R217; 05 R143, R144). A SKETCH_QUERY of a reserved operation is refused here. -/
def execSearch (id : Nat) (hv : HostView) (s : State) : Host.Outcome State Fault Refusal := whileAlive s (search id (descView s id hv) s)

/-! ### SEARCH_DONE, SHARD_TIMEOUT (R214, R217 to R219) -/

/-- An event of COMA_STATUS; it names the die. -/
def comaEvent (s : State) (flags die : Nat) : State := if flags = 0 then s else raise s Off.COMA_STATUS flags [(24, 3, die)]

/-- Engine counters and events of a search that ends. -/
def countSearch (s : State) (x : Index) (r : SResult) (dists raws : Nat) : State :=
  let key (ev : Nat) := ckey (Off.COMA_CNT_LO x.home) ev 0
  let s := count s (key 0) 1
  let s := count (count s (key 2) (if x.hasCodes then dists else 0)) (key 3) (raws + if x.hasCodes then 0 else dists)
  let s := count s (key 5) r.tombs
  comaEvent s (4 * b2n r.visitedFull + 8 * b2n r.entryDead) x.home

/-- The result record is written, its entries with relaxed ordering (10 R242), then the completion posted. -/
def postResult (s : State) (id : Nat) (h : SearchHdr) (r : SResult) : State :=
  match findStep s id with
  | none => s
  | some t => finish (hostOut (hostOut s t.desc h.result (r.bytes.take 32)) t.desc (h.result + 32) (r.bytes.drop 32) true) t St.OK

/-- An error answer to a shard request: its status alone (DESIGN CHOICE: the spec gives no record for it). -/
def shardError (s : State) (qpn status : Nat) : State := postSend s qpn 0x11 noStep (putLe 2 status ++ zeros 6)

/-- A search on an index of this node ends. -/
def searchEnds (s : State) (q : Query) : State :=
  let h := searchHdr q.hdr
  match indexOf s q.index with
  | none => dropQuery s q.q
  | some x =>
    let a := runSearch s x h q.bits q.entry0 q.updates0
    let r := a.1
    let s := countSearch (dropQuery s q.q) x r a.2.1 a.2.2
    match q.parent, q.id with
    | some (p, pos), _ => recordShard s p pos (some r)
    | none, some id => postResult s id h r
    | none, none => if (qpOf s q.qpn).st = .ready then postSend s q.qpn 0x11 noStep r.bytes else s

/-- The merge of a sharded search: every shard has answered, or the timeout has passed. -/
def mergeEnds (s : State) (q : Query) : State :=
  let h := searchHdr q.hdr
  let r := mergeShards h.k q.shards.length q.answers
  match q.id with
  | some id => postResult (dropQuery s q.q) id h r
  | none => dropQuery s q.q

/-- A search on an index of this node has read its frames. One that could not be corrected faults the step, and a shard of it counts as
missing; a shard for another node is not answered (DESIGN CHOICE: no rule says so of shards). -/
def searchRead (s : State) (q : Query) (ecc : MemObs) : State :=
  let frames := match indexOf s q.index with
    | some x => x.frames
    | none => []
  let lost := lostFrame s frames ecc
  let s := memEvents s frames ecc
  match lost with
  | none => searchEnds s q
  | some pfn => match q.parent, q.id with
    | some (p, pos), _ => recordShard (dropQuery s q.q) p pos none
    | none, some id => match findStep s id with
      | some t => stepFault (dropQuery s q.q) t 0x10 St.DATA_POISON pfn
      | none => dropQuery s q.q
    | none, none => dropQuery s q.q

def searchDone (n : Nat) (ecc : MemObs) (s : State) : State :=
  match findQuery s n with
  | none => s
  | some q =>
    if q.shards.isEmpty then (if q.running && !comaFenced s q.die && !braked s then searchRead s q ecc else s)
    else if q.timedOut || q.complete then mergeEnds s q
    else s

/-- SEARCH_DONE (R217, R218). -/
def execSearchDone (q : Nat) (ecc : MemObs) (s : State) : Host.Outcome State Fault Refusal := whileAlive s (searchDone q ecc s)

def shardTimeout (n : Nat) (s : State) : State :=
  match findQuery s n with
  | none => s
  | some q =>
    if q.shards.isEmpty || q.timedOut || q.complete then s
    else comaEvent (putQuery s { q with timedOut := true }) 1 0

/-- SHARD_TIMEOUT (R217). -/
def execShardTimeout (q : Nat) (s : State) : Host.Outcome State Fault Refusal := whileAlive s (shardTimeout q s)

def shardAnswer (n shard : Nat) (body : Bytes) (s : State) : State :=
  recordShard s n shard (if body.length < 32 then none else some (resultOf body shard))

/-- SHARD_ANSWER (R217). -/
def execShardAnswer (q shard : Nat) (body : Bytes) (s : State) : Host.Outcome State Fault Refusal := whileAlive s (shardAnswer q shard body s)

/-! ### SHARD_REQUEST (R215, R216) -/

def shardRequest (qpn : Nat) (body : Bytes) (s : State) : State :=
  let q := qpOf s qpn
  let hdr := body.take 64
  let h := searchHdr hdr
  if q.st ≠ .ready then s
  else
    let s := debit s (kindPer s 6)
    match indexOf s h.index with
    | none => comaEvent (shardError s qpn St.COMA_ACCESS) 2 0
    | some x =>
      if x.ctx ≠ q.ctx || x.key ≠ leAt body 64 4 then comaEvent (shardError s qpn St.COMA_ACCESS) 2 x.home
      else if !rbit s Off.COMA_CTRL 0 then shardError s qpn St.COMA_DISABLED
      else if x.dropping then shardError s qpn St.COMA_INDEX_DROPPING
      else if !hdrOk h || !hdrFits x h then shardError s qpn St.COMA_PARAM
      else if queueFull s x.home then s
      else enterEngine s { qpn := qpn, die := x.home, ctx := x.ctx, index := h.index, hdr := hdr, bits := body.drop 72 }

/-- SHARD_REQUEST (R215, R216). The queue pair lets none through to an engine whose queue is full (12 R296). -/
def execShardRequest (qpn : Nat) (body : Bytes) (s : State) : Host.Outcome State Fault Refusal := whileAlive s (shardRequest qpn body s)

/-! ### Index operations (R205, R207, R208) -/

/-- The parameter block as QUERY_INDEX and CREATE return it. -/
def indexBlock (s : State) (n : Nat) (x : Index) : Bytes :=
  let live := (List.range x.capacity).countP fun r => (rowOf s x r).valid && !(rowOf s x r).dead
  putLe 1 x.m ++ putLe 1 x.b ++ putLe 1 x.rcode ++ putLe 1 x.degree ++ putLe 1 x.tier ++ putLe 1 x.home ++ zeros 2 ++
    putLe 4 x.capacity ++ putLe 4 x.key ++ x.entry.flatMap (putLe 4) ++ putLe 2 n ++ zeros 2 ++ putLe 4 live ++ putLe 8 x.updates ++ zeros 16

/-- The index a parameter block asks for. -/
def blockIndex (ctx : Nat) (b : Bytes) : Index :=
  { ctx := ctx, m := leAt b 0 1, b := leAt b 1 1, rcode := leAt b 2 1, degree := leAt b 3 1, tier := leAt b 4 1, home := leAt b 5 1,
    capacity := leAt b 8 4, entry := (List.range 4).map fun i => leAt b (16 + 4 * i) 4 }

/-- Ranges of a creation (R207). -/
def indexOk (x : Index) : Bool :=
  (x.m == 0 || (8 ≤ x.m && x.m ≤ 64 && 16 ≤ x.b && x.b ≤ 64 && x.b % 8 == 0)) && (x.rcode ≤ 4 || x.rcode == 7) && x.degree ≤ 64 &&
    x.tier ≤ 1 && x.home ≤ 7 && 1 ≤ x.capacity && x.capacity ≤ 0xFFFFFFFE && (x.hasCodes || x.hasRaw)

/-- One descriptor of a SKETCH_QUERY operation other than SEARCH: record of `len` bytes, checks, admission, work. -/
def indexOp (id op len : Nat) (hv : AddrView) (s : State) (check : State → Desc → Bytes → Option Nat)
    (work : State → Desc → Bytes → State) : State :=
  match findDesc s id with
  | none => s
  | some d =>
    if d.kind ≠ 6 || d.n 16 1 ≠ op || !descReady s d then s
    else match hostRead hv (d.addr 24) len with
      | none => refuse s d St.HOST_READ_ERROR
      | some r => match check s d r with
        | some e => refuse s d e
        | none => match admitSearch s d 1 with
          | none => s
          | some s => match findStep s id with
            | some t => work s t.desc r
            | none => s

/-- The admitted operation ends. -/
def opEnds (s : State) (d : Desc) (status : Nat) (results : Bytes := []) : State :=
  match findStep s d.id with
  | some t => finish s t status 0 results
  | none => s

def freeIndex (s : State) : Option Nat := lowest 1024 fun n => (indexOf s n).isNone

/-- Take the runs of an index's sections in turn; first frames. -/
def takeSections (x : Index) (slice ctx : Nat) (pick : List Nat) : State → List Nat → Option (List Nat × State)
  | s, [] => some ([], s)
  | s, sec :: rest =>
    let k := x.sectionFrames sec
    if k = 0 then (takeSections x slice ctx pick s rest).map fun r => (0 :: r.1, r.2)
    else match pickRun s slice x.tier k (pick[sec]?) with
      | none => none
      | some p => (takeSections x slice ctx pick (takeRun s ctx p k) rest).map fun r => (p :: r.1, r.2)

def createCheck (s : State) (d : Desc) (b : Bytes) : Option Nat :=
  let x := blockIndex d.ring b
  let total := x.sectionFrames 0 + x.sectionFrames 1 + x.sectionFrames 2
  if !indexOk x then some St.COMA_PARAM
  else if s.sec.rng = .failed then some St.RNG_FAILED
  else if total > quotaLeft s d.ring x.tier then some St.QUOTA_EXCEEDED
  else none

/-- CREATE: sections, key, number. With 1,024 indexes the spec names no status: free. -/
def createWork (pick : List Nat) (s : State) (d : Desc) (b : Bytes) : State :=
  let x := blockIndex d.ring b
  let slice := (ctxOf s d.ring).slice
  let before := poolFree s slice x.tier
  match freeIndex s, takeSections x slice d.ring pick s [0, 1, 2] with
  | none, _ =>
    let f := free64 s
    opEnds f.2 d (f.1.toNat % 65536)
  | _, none => opEnds s d St.POOL_EXHAUSTED
  | some n, some (ps, s) =>
    let g := draw s
    let x := { x with rows := ps.getD 0 0, nbrs := ps.getD 1 0, book := ps.getD 2 0, key := Config.random g.1 % 2 ^ 32,
                      frames := [0, 1, 2].flatMap fun i => (List.range (x.sectionFrames i)).map fun k => ps.getD i 0 + k }
    let s := poolLowCheck (setIndex g.2 n x) slice x.tier d.ring before
    let s := runWrite s d.ring x.rows 0 (zeros (x.capacity * x.rowSize))
    let s := runWrite s d.ring x.nbrs 0 (List.replicate ((x.section 1).1 * (x.section 1).2) 0xFF)
    opEnds (hostOut s d (d.addr 24) (indexBlock s n x)) d St.OK (putLe 2 n)

def create (id : Nat) (hv : AddrView) (pick : List Nat) (s : State) : State := indexOp id 1 64 hv s createCheck (createWork pick)

/-- CREATE (R205, R207, R208; 05 R143). -/
def execCreate (id : Nat) (hv : HostView) (pick : List Nat) (s : State) : Host.Outcome State Fault Refusal := whileAlive s (create id (descView s id hv) pick s)

/-- The index an operation record names: invalid or dropping ones are refused. -/
def opIndex (s : State) (d : Desc) (r : Bytes) : Option Nat :=
  match indexFor s d.ring (leAt r 0 2) with
  | .error e => some e
  | .ok _ => none

/-- Change an index by an operation that counts in `updates`. -/
def touchIndex (s : State) (n : Nat) (f : Index → Index) : State :=
  match indexOf s n with
  | some x => setIndex s n { f x with updates := (x.updates + 1) % 2 ^ 64 }
  | none => s

def writeCheck (hv : AddrView) (s : State) (d : Desc) (r : Bytes) : Option Nat :=
  match indexFor s d.ring (leAt r 0 2) with
  | .error e => some e
  | .ok x =>
    let sec := x.section (leAt r 2 1)
    if leAt r 4 4 + leAt r 8 4 > sec.1 || leAt r 2 1 > 2 then some St.COMA_ROW_RANGE
    else if (hostRead hv (recBuffer r 16) (leAt r 8 4 * sec.2)).isNone then some St.HOST_READ_ERROR
    else none

def writeWork (hv : AddrView) (s : State) (d : Desc) (r : Bytes) : State :=
  match indexFor s d.ring (leAt r 0 2) with
  | .error e => opEnds s d e
  | .ok x =>
    let sec := x.section (leAt r 2 1)
    let data := (hostRead hv (recBuffer r 16) (leAt r 8 4 * sec.2)).getD []
    let s := runWrite s d.ring (x.sectionFirst (leAt r 2 1)) (leAt r 4 4 * sec.2) data
    opEnds (touchIndex s (leAt r 0 2) id) d St.OK

def indexWrite (id : Nat) (hv : AddrView) (s : State) : State := indexOp id 2 32 hv s (writeCheck hv) (writeWork hv)

/-- INDEX_WRITE (R208, R219). -/
def execIndexWrite (id : Nat) (hv : HostView) (s : State) : Host.Outcome State Fault Refusal := whileAlive s (indexWrite id (descView s id hv) s)

def tombCheck (hv : AddrView) (s : State) (d : Desc) (r : Bytes) : Option Nat :=
  match opIndex s d r with
  | some e => some e
  | none => if (hostRead hv (recBuffer r 16) (4 * leAt r 8 4)).isNone then some St.HOST_READ_ERROR else none

/-- Row numbers outside the index name no row (DESIGN CHOICE: no status is given for them). -/
def tombWork (hv : AddrView) (s : State) (d : Desc) (r : Bytes) : State :=
  let n := leAt r 0 2
  let list := (hostRead hv (recBuffer r 16) (4 * leAt r 8 4)).getD []
  let rows := (List.range (leAt r 8 4)).map fun i => leAt list (4 * i) 4
  let s := rows.foldl (fun s row => match indexOf s n with
    | some x =>
      if row ≥ x.capacity then s
      else
        let b := rowBytesAt s x row
        runWrite s x.ctx x.rows (row * x.rowSize + 16) (putLe 4 (putFld (leAt b 16 4) 1 1 1))
    | none => s) s
  opEnds (touchIndex s n id) d St.OK

def tombstone (id : Nat) (hv : AddrView) (s : State) : State := indexOp id 3 32 hv s (tombCheck hv) (tombWork hv)

/-- TOMBSTONE (R208, R219). -/
def execTombstone (id : Nat) (hv : HostView) (s : State) : Host.Outcome State Fault Refusal := whileAlive s (tombstone id (descView s id hv) s)

def dropWork (s : State) (d : Desc) (r : Bytes) : State :=
  let n := leAt r 0 2
  match indexOf s n with
  | some x => opEnds (setIndex s n { x with dropping := true }) d St.OK
  | none => opEnds s d St.COMA_INDEX_INVALID

def dropIndex (id : Nat) (hv : AddrView) (s : State) : State := indexOp id 4 32 hv s opIndex dropWork

/-- DROP (R208, R220). -/
def execDrop (id : Nat) (hv : HostView) (s : State) : Host.Outcome State Fault Refusal := whileAlive s (dropIndex id (descView s id hv) s)

def indexDrained (n : Nat) (s : State) : State :=
  match indexOf s n with
  | none => s
  | some x =>
    if !x.dropping || s.coma.queries.any fun q => q.shards.isEmpty && q.index == n then s
    else
      let s := releaseFrames { s with coma := { s.coma with indexes := tdel s.coma.indexes n } } x.frames
      comaEvent s 16 x.home

/-- INDEX_DRAINED (R220). -/
def execIndexDrained (index : Nat) (s : State) : Host.Outcome State Fault Refusal := whileAlive s (indexDrained index s)

def queryCheck (s : State) (d : Desc) (r : Bytes) : Option Nat :=
  match indexFor s d.ring (leAt r 0 2) with
  | .error e => if e = St.COMA_INDEX_DROPPING then none else some e
  | .ok _ => none

def queryWork (s : State) (d : Desc) (r : Bytes) : State :=
  let n := leAt r 0 2
  match indexOf s n with
  | some x => opEnds (hostOut s d (recBuffer r 16) (indexBlock s n x)) d St.OK
  | none => opEnds s d St.COMA_INDEX_INVALID

def queryIndex (id : Nat) (hv : AddrView) (s : State) : State := indexOp id 5 32 hv s queryCheck queryWork

/-- QUERY_INDEX (R207, R208). -/
def execQueryIndex (id : Nat) (hv : HostView) (s : State) : Host.Outcome State Fault Refusal := whileAlive s (queryIndex id (descView s id hv) s)

def entryRows (r : Bytes) : List Nat := (List.range 4).map fun i => leAt r (4 + 4 * i) 4

def entryCheck (s : State) (d : Desc) (r : Bytes) : Option Nat :=
  match indexFor s d.ring (leAt r 0 2) with
  | .error e => some e
  | .ok x => if (entryRows r).all fun e => decide (e < x.capacity) || e == 0xFFFFFFFF then none else some St.COMA_ROW_RANGE

def entryWork (s : State) (d : Desc) (r : Bytes) : State :=
  opEnds (touchIndex s (leAt r 0 2) fun x => { x with entry := entryRows r }) d St.OK

def setEntry (id : Nat) (hv : AddrView) (s : State) : State := indexOp id 6 32 hv s entryCheck entryWork

/-- SET_ENTRY (R208). -/
def execSetEntry (id : Nat) (hv : HostView) (s : State) : Host.Outcome State Fault Refusal := whileAlive s (setEntry id (descView s id hv) s)

end Sys2Proof.Machine
end

