-- ==== Sys2Proof/Machine/Egress.lean ====
section
/-! DEFINITION. Egress: counted lengths, shapers, gates, deficit round robin, frame starts, gate lists, and the ingress policer
(13 R314 to R331; 11 R268 to R271, R276, R279). -/
namespace Sys2Proof.Machine
open Sys2Proof

/-! ### Token buckets (R319 to R321, R330) -/

/-- Units of 2^-24 byte that a CLK_CTL cycle adds at a rate in MB/s. -/
def tokenStep (rate : Nat) : Nat := rate * 2 ^ 24 / 800

/-- A bucket after some cycles. -/
def refill (tokens cycles rate burst : Nat) : Nat := min (burst * 64 * 2 ^ 24) (tokens + cycles * tokenStep rate)

def clampRate (hi r : Nat) : Nat := min hi (max 1 r)

def classWord (s : State) (off cls : Nat) : Nat := regWord s (rkey off cls)

def shapeRate (s : State) (p cls : Nat) : Nat := clampRate 200000 (classWord s (Off.EGR_SHAPE_RATE p) cls % 2 ^ 18)
def shapeOn (s : State) (p cls : Nat) : Bool := cls != 0 && bitOf (classWord s (Off.EGR_SHAPE_RATE p) cls) 31
def shapeBurst (s : State) (p cls : Nat) : Nat := max 128 (classWord s (Off.EGR_SHAPE_BURST p) cls % 2 ^ 18)

/-- Tokens of a class bucket at the present cycle. -/
def tokensNow (s : State) (p cls : Nat) : Nat :=
  let e := eport s p
  refill (tget 0 e.tokens cls) (s.clk.counter - max e.stamp s.egr.since) (shapeRate s p cls) (shapeBurst s p cls)

/-- Counted length of a frame on a port (R319). -/
def overhead (s : State) (p : Nat) : Nat := if rbit s (Off.EGR_CTRL p) 1 then rf s (Off.EGR_CTRL p) 8 8 else 0
def counted (s : State) (p : Nat) (f : Frame) : Nat := frameLen f + overhead s p

/-! ### Gates (R322 to R325, R328) -/

/-- Largest frame of a class. -/
def longestFrame (cls : Nat) : Nat := if cls = 1 then 2136 else if cls = 2 then 4152 else 4184

/-- The guard band G of a class (R324): 1.28 ns a flit, or 2.56 ns when DEGRADED, in cycles of 1.25 ns. -/
def guardOf (s : State) (p cls : Nat) (degraded : Bool) : Nat :=
  let links := cdiv (longestFrame cls + overhead s p) 240 + 1
  cdiv (links * (if degraded then 256 else 128)) 125

def guardNow (s : State) (p cls : Nat) : Nat := guardOf s p cls ((portOf s p).st == .degraded)

/-- Cycles until the run of open entries that starts a list ends; none when every entry of the list is open. -/
def openRun : List GateEntry → Option Nat
  | [] => none
  | g :: gs => if g.opened then (openRun gs).map (g.dur + ·) else some 0

/-- Where a cycle lies in a list: whether the gate is open, cycles left of the entry, and, where it is open, cycles to the
close; none when there is no close. `pos` counts from the start of the list. -/
def gateAt : Nat → List GateEntry → List GateEntry → Bool × Nat × Option Nat
  | _, _, [] => (true, 0, none)
  | pos, whole, g :: gs =>
    if pos < g.dur then
      (g.opened, g.dur - pos, if g.opened then (openRun (gs ++ whole)).map (g.dur - pos + ·) else none)
    else gateAt (pos - g.dur) whole gs

/-- State of a class's gate under a set of lists at a cycle. A class without a list is open and has no close. -/
def gateState (g : GateSet) (cls t : Nat) : Bool × Nat × Option Nat :=
  let l := tget [] g.lists cls
  if l.isEmpty || g.cycle = 0 then (true, 0, none)
  else if l.all (·.opened) then (true, (gateAt ((t - g.base) % g.cycle) l l).2.1, none)
  else gateAt ((t - g.base) % g.cycle) l l

/-- State of a class's gate on a port at a cycle; ungated before the first base (R328). -/
def gateNow (s : State) (p cls t : Nat) : Bool × Nat × Option Nat :=
  match (eport s p).active with
  | some g => gateState g cls t
  | none => (true, 0, none)

def gatesOn (s : State) (p : Nat) : Bool := rbit s (Off.EGR_CTRL p) 0

/-- The base of a pending install is a close for the class (R328): its gate is open just before, and the new lists give another
state or another close. -/
def baseCloses (s : State) (p cls : Nat) (g : GateSet) : Bool :=
  let old := gateNow s p cls (g.base - 1)
  let new := gateState g cls g.base
  old.1 && (!new.1 || (old.2.2.map (g.base - 1 + ·)) != (new.2.2.map (g.base + ·)))

/-- A frame of the class may start at a cycle: the gate is open and outside its guard band. -/
def gateOpenAt (s : State) (p cls t : Nat) : Bool :=
  if cls = 0 || !gatesOn s p then true
  else
    let n := guardNow s p cls
    let a := gateNow s p cls t
    a.1 && (match a.2.2 with
      | some left => decide (n < left)
      | none => true) &&
    (match (eport s p).pending with
      | some g => t ≥ g.base || g.base - t > n || !baseCloses s p cls g
      | none => true)

/-- A frame of the class may start now. -/
def gateOpen (s : State) (p cls : Nat) : Bool := gateOpenAt s p cls s.clk.counter

/-! ### Waiting heads (R332, events 2 to 4 of EGR_CNT) -/

/-- Cycles, from the first to before the last, for which a bucket that then holds `have'` holds less than `need`. -/
def shortCycles (need have' cycles rate : Nat) : Nat := min cycles (cdiv (need - have') (tokenStep rate))

/-- Cycles since the port's buckets were last brought up to date for which the head frame of a class was short of its gate, its shaper
and its credits. A cycle in which it lacked more than one of them counts for each (DESIGN CHOICE). -/
def waitCycles (s : State) (p cls : Nat) : Nat × Nat × Nat :=
  let e := eport s p
  match (tget [] e.queues cls).head? with
  | none => (0, 0, 0)
  | some q =>
    let stamp := max e.stamp s.egr.since
    let t0 := max stamp (tget 0 e.heads cls)
    let n := s.clk.counter - t0
    let before := refill (tget 0 e.tokens cls) (t0 - stamp) (shapeRate s p cls) (shapeBurst s p cls)
    (if cls = 0 || !gatesOn s p then 0 else (List.range n).countP fun i => !gateOpenAt s p cls (t0 + i),
      if shapeOn s p cls then shortCycles (counted s p q.frame * 2 ^ 24) before n (shapeRate s p cls) else 0,
      if cdiv (frameLen q.frame) 256 ≤ (portOf s p).txCredits.getD cls 0 then 0 else n)

/-- The cycles a class's head waited are counted. -/
def countWaits (s : State) (p cls : Nat) : State :=
  let w := waitCycles s p cls
  let put (s : State) (ev n : Nat) : State := if n = 0 then s else count s (ckey (Off.EGR_CNT_LO p) ev cls) n
  put (put (put s 2 w.1) 3 w.2.1) 4 w.2.2

/-- Bring every bucket and waiting count of a port up to the present cycle. -/
def accrue (s : State) (p : Nat) : State :=
  let ts := (span 1 7).map fun c => (c, tokensNow s p c)
  let s := (List.range 8).foldl (fun s c => countWaits s p c) s
  setEport s p { eport s p with tokens := ts.foldl (fun t e => tset 0 t e.1 e.2) [], stamp := s.clk.counter }

/-- The cycle lies in a closed span of the class. -/
def gateClosed (s : State) (p cls : Nat) : Bool := cls != 0 && gatesOn s p && !(gateNow s p cls s.clk.counter).1

/-- A port event of the egress block; it names the class. -/
def egressEvent (s : State) (p bit cls : Nat) : State := raise s (Off.EGR_STATUS p) (2 ^ bit) [(20, 3, cls)]

/-! ### Flits (11 R268 to R270) -/

/-- A flit: link header, payload, CRC. -/
def flitBytes (hdr : Nat) (payload : Bytes) : Bytes :=
  let b := putLe 8 hdr ++ fit 240 payload
  b ++ putLe 8 (crc64 b)

def flitHdr (seq ack ackKind ctc ccnt type : Nat) : Nat :=
  seq % 4096 + ack % 4096 * 2 ^ 12 + ackKind * 2 ^ 24 + ctc % 8 * 2 ^ 26 + ccnt % 256 * 2 ^ 29 + type * 2 ^ 37

/-- Payloads of the flits that carry a frame: each frame starts a flit of its own (DESIGN CHOICE). -/
def flitsOf (bs : Bytes) : List Bytes := (List.range (cdiv bs.length 240)).map fun i => slice bs (240 * i) 240

/-- Some rim-merge unit has all its input slots full: TC1 credit is withheld (04 R109). -/
def rimFull (s : State) : Bool := s.attn.rim.any fun e => 256 ≤ e.2.length

/-- The class whose credits the next flit returns, and how many (11 R271). -/
def creditOut (s : State) (p : Nat) : Nat × Nat :=
  match (portOf s p).owed.zipIdx.find? fun x => x.1 != 0 && !(x.2 == 1 && rimFull s) with
  | some x => (x.2, min x.1 255)
  | none => (0, 0)

/-- A flit leaves. Its header carries the result that is due, an ack of the last flit received in sequence or a nak of what came
after it, and the credits of one class (11 R269, R271). -/
def flitOut (s : State) (p seq type : Nat) (payload : Bytes) : State :=
  let port := portOf s p
  let c := creditOut s p
  let s := setPort s p { port with ackDue := 0, owed := port.owed.zipIdx.map fun x => if x.2 = c.1 then x.1 - c.2 else x.1 }
  emit s (.flit p (flitBytes (flitHdr seq (if port.ackDue = 0 then 0 else port.rxSeq + 4095) port.ackDue c.1 c.2 type) payload))

/-- An idle flit. -/
def sendIdle (s : State) (p : Nat) : State := flitOut s p (portOf s p).txSeq 1 []

/-- Flits move on the port: it is UP, or in the states of training that exchange them. -/
def linked (port : Port) : Bool := portUp port || port.st == .peer || port.st == .auth

/-- A port without data sends an idle flit for an acknowledgement or credits that are due. -/
def sendDue (s : State) (p : Nat) : State :=
  let port := portOf s p
  if linked port && (port.ackDue != 0 || (creditOut s p).2 != 0) then sendIdle s p else s

/-- Put flits on the wire and into the replay buffer; the last one carries the frame. -/
def sendFlits (s : State) (p : Nat) (q : QFrame) (ps : List Bytes) : State :=
  let n := ps.length
  ps.zipIdx.foldl (fun s x =>
    let port := portOf s p
    let f : SentFlit := { seq := port.txSeq, payload := x.1, cls := q.frame.tc, frame := if x.2 + 1 = n then some q else none }
    flitOut (setPort s p { port with txSeq := (port.txSeq + 1) % 4096, replay := port.replay ++ [f] }) p f.seq 0 x.1) s

/-! ### Eligibility (R316; 11 R270, R271, R273) -/

/-- Frames of link control before a port has keys. -/
def authOp (op : Nat) : Bool := 0xF0 ≤ op && op ≤ 0xF3

/-- The frame as it leaves: under the context's session of the moment (15 R373). None while the port holds none. -/
def outFrame (s : State) (p : Nat) (q : QFrame) : Option Frame :=
  let port := portOf s p
  if q.frame.tc = 0 then
    (if portUp port then (tfind port.sessions 0).map fun _ => { q.frame with session := 0 }
      else if port.st == .auth && authOp q.frame.op then some { q.frame with session := 0 } else none)
  else if !portUp port then none
  else (carrier port q.ctx).map fun n => { q.frame with session := n }

/-- A TC2 frame waits while a frame held for its target can still be issued again (11 R273). -/
def reissuePending (s : State) (f : Frame) : Bool :=
  f.tc == 2 && s.ports.any fun e => !portUp e.2 && e.2.held.any fun (q : QFrame) =>
    q.frame.dst == f.dst && (match flowPort s q.ctx q.frame.dst q.frame.tc with
      | some n => (sessionOf (portOf s n) q.ctx).isSome
      | none => false)

/-- Items 1 to 3 of R316 for the head frame of a class, with a session below its limit. -/
def headMay (s : State) (p cls : Nat) : Option Frame :=
  match (tget [] (eport s p).queues cls).head? with
  | none => none
  | some q => match outFrame s p q with
    | none => none
    | some f =>
      let port := portOf s p
      let key := tget {} port.sessions f.session
      if cdiv (frameLen f) 256 ≤ port.txCredits.getD cls 0 && key.txCtr < 2 ^ 47 && !reissuePending s f && gateOpen s p cls &&
          (!shapeOn s p cls || counted s p f * 2 ^ 24 ≤ tokensNow s p cls) then some f
      else none

/-- The replay buffer has room for the flits of a frame (11 R270). -/
def replayRoom (s : State) (p : Nat) (f : Frame) : Bool := (portOf s p).replay.length + cdiv (frameLen f) 240 ≤ 256

/-- The head frame of a class that may start now. -/
def headReady (s : State) (p cls : Nat) : Option Frame := (headMay s p cls).filter (replayRoom s p)

/-- The replay buffer is full: no further flit fits, or a frame that may start waits only for room in it. A frame starts when all its
flits fit (DESIGN CHOICE). -/
def replayFull (s : State) (p : Nat) : Bool :=
  256 ≤ (portOf s p).replay.length || (List.range 8).any fun c => (headMay s p c).any fun f => !replayRoom s p f

/-! ### Deficit round robin (R318) -/

def quantumOf (s : State) (p cls : Nat) : Nat := 64 * max 1 (classWord s (Off.EGR_DRR_QUANTUM p) cls % 2 ^ 14)

def passTurn (e : EPort) : EPort := { e with turn := if e.turn ≥ 7 then 3 else e.turn + 1, inTurn := false }

/-- Turns of the weighted group until a class starts its head frame: the class, and the state of the turns. -/
def drrTurns (s : State) (p : Nat) : Nat → EPort → Option (Nat × Frame) × EPort
  | 0, e => (none, e)
  | k + 1, e =>
    let c := e.turn
    if (tget [] e.queues c).isEmpty then drrTurns s p k (passTurn { e with deficit := tdel e.deficit c })
    else match headReady s p c with
      | none => drrTurns s p k (passTurn e)
      | some f =>
        let e := if e.inTurn then e else { e with deficit := tset 0 e.deficit c (tget 0 e.deficit c + quantumOf s p c), inTurn := true }
        if counted s p f ≤ tget 0 e.deficit c then
          (some (c, f), { e with deficit := tset 0 e.deficit c (tget 0 e.deficit c - counted s p f) })
        else drrTurns s p k (passTurn e)

/-- Rounds enough for any quantum to cover any frame. -/
def drrFuel (s : State) (p : Nat) : Nat := if (span 3 7).any fun c => (headReady s p c).isSome then 400 else 5

/-! ### EGRESS_FRAME_START (R315, R316) -/

/-- The head frame of a class starts: credits, tokens and the session counter move, its flits leave. The frame leaves its queue, and
a response the in-flight count of its region (11 R281). -/
def startFrame (s : State) (p cls : Nat) (f : Frame) : State :=
  let e := eport s p
  let port := portOf s p
  let len := counted s p f
  let all := classFrames e cls
  let e := { e with tokens := if shapeOn s p cls then tset 0 e.tokens cls (tget 0 e.tokens cls - len * 2 ^ 24) else e.tokens }
  let e := if 3 ≤ cls && all.tail.isEmpty then passTurn { e with deficit := tdel e.deficit cls } else e
  let s := leaveRegion (putClass (setEport s p e) p cls all.tail) (all.head?.bind (·.region))
  let s := count (count s (ckey (Off.EGR_CNT_LO p) 0 cls) 1) (ckey (Off.EGR_CNT_LO p) 1 cls) len
  let credits := port.txCredits.zipIdx.map fun x => if x.2 = cls then x.1 - cdiv (frameLen f) 256 else x.1
  match tfind port.sessions f.session with
  | none =>
    let s := setPort s p { port with txCredits := credits }
    sendFlits s p { ctx := 4096, frame := f } (flitsOf (frameHeader f ++ fit (frameLen f - 56) f.body ++ zeros 16))
  | some k =>
    let f := { f with counter := k.txCtr + 1 }
    let s := setPort s p { port with txCredits := credits, sessions := tput port.sessions f.session { k with txCtr := k.txCtr + 1 } }
    let s := if k.txCtr + 1 = 2 ^ 47 then raise s (Off.PORT_STATUS p) 8 else s
    sendFlits s p { ctx := k.ctx, frame := f } (flitsOf (sealFrame f k.txKey))

/-- The scheduler picks a frame: the lowest ready strict class, else the weighted group. A port with no frame to start sends what is
due in an idle flit. -/
def schedule (s : State) (p : Nat) : State :=
  match [0, 1, 2].findSome? fun c => (headReady s p c).map fun f => (c, f) with
  | some (c, f) => startFrame s p c f
  | none =>
    let r := drrTurns s p (drrFuel s p) (eport s p)
    let s := setEport s p r.2
    match r.1 with
    | some (c, f) => startFrame s p c f
    | none => sendDue s p

/-- Frames of a context that still wait on a port. -/
def waitsOn (s : State) (p ctx : Nat) : Bool :=
  (List.range 8).any (fun c => (classFrames (eport s p) c).any fun f => f.ctx == ctx) || (portOf s p).held.any fun f => f.ctx == ctx

/-- Sessions of a port that left their context's slice are closed once the frames before have left (17 R438). -/
def closeLeft (s : State) (p : Nat) : State :=
  ((portOf s p).sessions.filter fun e => e.2.closing && !waitsOn s p e.2.ctx).foldl (fun s e =>
    let port := portOf s p
    sendControl (setPort s p { port with sessions := tdel port.sessions e.1 }) p 0xF7 (putLe 2 e.1 ++ zeros 6)) s

def egressFrameStart (p now : Nat) (s : State) : State :=
  if p ≥ 24 || inSafe s then s
  else closeLeft (schedule (accrue { s with clk := { s.clk with counter := max s.clk.counter now } } p) p) p

/-- EGRESS_FRAME_START (R314 to R321): at cycle `now` of the local counter. -/
def execEgressFrameStart (port now : Nat) (s : State) : Host.Outcome State Fault Refusal := whileAlive s (egressFrameStart port now s)

/-! ### Gate commands (R322, R325, R327 to R329) -/

def gateEntryEnd (p cls : Nat) (s : State) : State :=
  match (eport s p).active with
  | none => s
  | some g =>
    if (tget [] g.lists cls).isEmpty || g.cycle = 0 || cls = 0 then s
    else { s with clk := { s.clk with counter := s.clk.counter + (gateState g cls s.clk.counter).2.1 } }

/-- GATE_ENTRY_END (R322): time reaches the end of the entry of the class; the gate follows its list. -/
def execGateEntryEnd (port cls : Nat) (s : State) : Host.Outcome State Fault Refusal := whileAlive s (gateEntryEnd port cls s)

def adminLen (s : State) (p cls : Nat) : Nat := regWord s (rkey (Off.EGR_GATE_LEN p) cls) % 512

/-- Entries of an admin list. -/
def adminList (s : State) (p cls : Nat) : List GateEntry :=
  (List.range (adminLen s p cls)).map fun i =>
    let w := regWord s (rkey (Off.EGR_GATE_ENTRY p) (cls * 256 + i))
    { dur := w % 2 ^ 24, opened := bitOf w 31 }

/-- The first entry that opens a window of at most `n` cycles. -/
def shortWindow (n : Nat) (l : List GateEntry) : Option Nat :=
  if l.all (·.opened) then none
  else (List.range l.length).find? fun i =>
    let g := l.getD i {}
    let before := l.getD ((i + l.length - 1) % l.length) {}
    g.opened && !before.opened && (match openRun (l.drop i ++ l.take i) with
      | some w => decide (w ≤ n)
      | none => false)

/-- Why an admin list is refused: the status, and the entry where one is named. -/
def listRefusal (s : State) (p cycle cls : Nat) : Option (Nat × Option Nat) :=
  let l := adminList s p cls
  if l.isEmpty then none
  else if l.length > 256 then some (St.GATE_LIST_BAD, none)
  else match l.findIdx? fun g => g.dur == 0 with
    | some i => some (St.GATE_LIST_BAD, some i)
    | none =>
      if (l.map (·.dur)).sum ≠ cycle then some (St.GATE_LIST_BAD, none)
      else (shortWindow (guardOf s p cls false) l).map fun i => (St.GATE_WINDOW_SHORT, some i)

/-- An install is refused: the status, and class and entry of the failing check; the spec names none for some: free. -/
def installRefused (s : State) (p status : Nat) (cls entry : Option Nat) : State :=
  let f := free64 s
  let c := cls.getD (f.1.toNat % 8)
  let n := entry.getD (f.1.toNat / 8 % 256)
  egressEvent (setEport f.2 p { eport f.2 p with resStatus := status, resClass := c, resEntry := n }) p 2 c

def install (s : State) (p : Nat) : State :=
  let cycle := rf s (Off.EGR_GATE_CYCLE p) 0 32
  let base := rpair s (Off.EGR_GATE_BASE_LO p)
  if (eport s p).pending.isSome then installRefused s p St.GATE_BUSY none none
  else if cycle = 0 then installRefused s p St.GATE_LIST_BAD none none
  else match (span 1 7).findSome? fun c => (listRefusal s p cycle c).map fun r => (c, r) with
    | some (c, st, i) => installRefused s p st (some c) i
    | none =>
      if base < s.clk.counter + 1024 then installRefused s p St.GATE_LATE none none
      else
        let g : GateSet := { lists := (span 1 7).foldl (fun t c => tset [] t c (adminList s p c)) [], cycle := cycle, base := base }
        setEport s p { eport s p with pending := some g, resStatus := 0, resClass := 0, resEntry := 0 }

def gateInstall (m : Master) (p : Nat) (s : State) : State :=
  if p ≥ 24 then s else regCmd s m (Off.EGR_GATE_CMD p) [(0, 1, 1), (1, 1, 0)] fun s => install s p

/-- GATE_INSTALL (R322, R325, R327, R329). -/
def execGateInstall (m : Master) (port : Nat) (s : State) : Host.Outcome State Fault Refusal := .next (gateInstall m port s)

def gateCancel (m : Master) (p : Nat) (s : State) : State :=
  if p ≥ 24 then s
  else regCmd s m (Off.EGR_GATE_CMD p) [(0, 1, 0), (1, 1, 1)] fun s =>
    match (eport s p).pending with
    | some g => if s.clk.counter ≥ g.base then s else setEport s p { eport s p with pending := none }
    | none => s

/-- GATE_CANCEL (R329). -/
def execGateCancel (m : Master) (port : Nat) (s : State) : Host.Outcome State Fault Refusal := .next (gateCancel m port s)

def gateBase (p : Nat) (s : State) : State :=
  match (eport s p).pending with
  | none => s
  | some g =>
    let s := accrue { s with clk := { s.clk with counter := max s.clk.counter g.base } } p
    egressEvent (setEport s p { eport s p with active := some g, pending := none }) p 0 0

/-- GATE_BASE (R327, R328). -/
def execGateBase (port : Nat) (s : State) : Host.Outcome State Fault Refusal := whileAlive s (gateBase port s)

/-! ### Ingress policer (R330, R331) -/

def policerOf (s : State) (c : Nat) : Policer := tget {} s.egr.policers c
def setPolicer (s : State) (c : Nat) (v : Policer) : State := { s with egr := { s.egr with policers := tset {} s.egr.policers c v } }

def polWord (s : State) (off c : Nat) : Nat := regWord s (rkey off c)
def polOn (s : State) (c : Nat) : Bool := bitOf (polWord s Off.EGR_POL_RATE c) 31

/-- Tokens of a context's bucket at the present cycle. -/
def polTokens (s : State) (c : Nat) : Nat :=
  let q := policerOf s c
  refill q.tokens (s.clk.counter - max q.stamp s.egr.since) (clampRate 4800000 (polWord s Off.EGR_POL_RATE c % 2 ^ 23))
    (max 128 (polWord s Off.EGR_POL_BURST c % 2 ^ 18))

def polAccrue (s : State) (c : Nat) : State := setPolicer s c { policerOf s c with tokens := polTokens s c, stamp := s.clk.counter }

/-- Test a frame of a context's sessions: true where it conforms, and its bytes are debited; else it is counted. -/
def police (s : State) (c : Nat) (f : Frame) : Bool × State :=
  if !polOn s c then (true, s)
  else
    let s := polAccrue s c
    let q := policerOf s c
    let need := frameLen f * 2 ^ 24
    if need ≤ q.tokens then (true, setPolicer s c { q with tokens := q.tokens - need })
    else (false, raise (setPolicer s c { q with drops := sat32 (q.drops + 1) }) Off.EGR_POL_STATUS 1 [(20, 12, c)])

/-- Cycles until the bucket could hold the frame; a bucket too small for it never could: its burst is at least the frame's
largest size (R321). -/
def policeWait (s : State) (c : Nat) (f : Frame) : Nat :=
  cdiv (frameLen f * 2 ^ 24 - polTokens s c) (tokenStep (clampRate 4800000 (polWord s Off.EGR_POL_RATE c % 2 ^ 23)))

end Sys2Proof.Machine
end

