-- ==== Sys2Proof/Machine/Image.lean ====
section
/-! DEFINITION. Weft images: format, checks, loading, table binding, unloading (05 R120 to R136; 02 R22 to R47; 04 R99; 06 R149 to
R152, R162, R163; 07 R182, R183; 08 R201; 15 R378, R380). -/
namespace Sys2Proof.Machine
open Sys2Proof

/-- Why a check fails: code, section type, record index (R136). -/
structure LoadBad where
  code : Nat
  secType : Nat := 0
  record : Nat := 0

/-- What a check of one thing answers. -/
abbrev Check := Except LoadBad Unit

def need (b : Bool) (code : Nat) (sec : Nat := 0) (r : Nat := 0) : Check :=
  if b then .ok () else .error { code := code, secType := sec, record := r }

/-- Checks in order; the first that fails decides. -/
def allOk : List Check → Check
  | [] => .ok ()
  | .ok () :: cs => allOk cs
  | .error e :: _ => .error e

/-! ### Header and directory (R122, R123; R136 steps 2 and 6) -/

/-- A directory entry. -/
structure DirEnt where
  type : Nat
  size : Nat
  count : Nat
  off : Nat
  len : Nat

/-- What R123 lays down of a section type: record size, fewest and most records. -/
def sectionSpec (type : Nat) : Option (Nat × Nat × Nat) :=
  match type with
  | 0x01 => some (64, 1, 1)
  | 0x02 => some (8, 1, 64)
  | 0x03 => some (16, 1, 16384)
  | 0x04 => some (32, 1, 1048576)
  | 0x05 => some (64, 1, 16777216)
  | 0x06 => some (0, 0, 2 ^ 32)
  | 0x07 => some (0, 0, 2 ^ 32)
  | 0x08 => some (16, 0, 2 ^ 32)
  | 0x09 => some (0, 0, 64)
  | 0x0A => some (0, 0, 2 ^ 32)
  | 0xFF => some (424, 1, 1)
  | _ => none

def requiredSections : List Nat := [0x01, 0x02, 0x03, 0x04, 0x05, 0x06, 0x08, 0xFF]

/-- Step 2: magic, version, section count, length and group size, then device and revision. -/
def headerCheck (b : Bytes) (len : Nat) : Check :=
  let n := leAt b 19 1
  allOk [
    need (leAt b 0 4 == 0x54464557 && leAt b 4 2 == 1 && 8 ≤ n && n ≤ 16 && leAt b 8 8 == len && len ≤ 2 ^ 31 &&
      64 + 32 * n + 424 ≤ len && 1 ≤ leAt b 32 4 && leAt b 32 4 ≤ 16384) St.WEFT_BAD_HEADER,
    need (leAt b 16 2 == 0x3200 && leAt b 18 1 == 0xB0) St.WEFT_TARGET]

def directory (b : Bytes) : List DirEnt :=
  (List.range (leAt b 19 1)).map fun i =>
    let o := 64 + 32 * i
    { type := leAt b o 2, size := leAt b (o + 2) 2, count := leAt b (o + 4) 4, off := leAt b (o + 8) 8, len := leAt b (o + 16) 8 }

def entOf (dir : List DirEnt) (type : Nat) : Option DirEnt := dir.find? fun e => e.type == type

/-- The bytes of a section; none of an absent one. -/
def sectionOf (b : Bytes) (dir : List DirEnt) (type : Nat) : Bytes :=
  match entOf dir type with
  | some e => slice b e.off e.len
  | none => []

/-- Sections ascend without overlap from the end of the directory on. -/
def ascending : Nat → List DirEnt → Bool
  | _, [] => true
  | lo, e :: es => lo ≤ e.off && ascending (e.off + e.len) es

def entCheck (b : Bytes) (dir : List DirEnt) (i : Nat) (e : DirEnt) : Bool :=
  match sectionSpec e.type with
  | none => false
  | some (size, lo, hi) =>
    e.size == size && lo ≤ e.count && e.count ≤ hi && e.off % 64 == 0 && (size == 0 || e.len == size * e.count) &&
      leAt b (64 + 32 * i + 24) 8 == 0 && dir.countP (fun x => x.type == e.type) == 1

/-- Bytes and masks of the reserved fields of fixed records (R122 to R133). -/
def reservedOf (type : Nat) : List (Nat × Nat) :=
  let all (lo hi : Nat) : List (Nat × Nat) := (span lo hi).map fun i => (i, 0xFF)
  match type with
  | 0x01 => (10, 0xE0) :: all 13 15 ++ all 24 63
  | 0x03 => all 9 15
  | 0x04 => all 14 15 ++ all 20 31
  | 0x05 => [(5, 0xF0), (7, 0xF0), (10, 0xC0), (49, 0xFF)] ++ all 54 55 ++ all 60 63
  | 0x08 => all 8 15
  | 0xFF => all 36 39
  | _ => []

def reservedClear (b : Bytes) (off : Nat) (masks : List (Nat × Nat)) : Bool :=
  masks.all fun m => (b.getD (off + m.1) 0).toNat &&& m.2 == 0

/-- Records of a fixed section. -/
def recsOf (b : Bytes) (dir : List DirEnt) (type : Nat) : List Bytes :=
  match entOf dir type with
  | some e => (List.range e.count).map fun i => slice b (e.off + e.size * i) e.size
  | none => []

/-- Step 6: the directory under R123, and reserved fields. -/
def directoryCheck (b : Bytes) : Check :=
  let dir := directory b
  let len := leAt b 8 8
  let reserved := dir.flatMap fun e => ((recsOf b dir e.type).zipIdx.map fun r =>
    need (reservedClear r.1 0 (reservedOf e.type)) St.WEFT_SECTION (e.type % 256) r.2)
  let attends := (recsOf b dir 0x04).any fun r => leAt r 0 1 == 1
  let osier := (recsOf b dir 0x05).any fun r => bitOf (leAt r 10 1) 3
  allOk ([
    need (dir.zipIdx.all fun x => entCheck b dir x.2 x.1) St.WEFT_SECTION,
    need (ascending (64 + 32 * dir.length) dir) St.WEFT_SECTION,
    need (match dir.getLast? with
      | some e => e.type == 0xFF && e.off + 424 == len && e.len == 424
      | none => false) St.WEFT_SECTION,
    need (requiredSections.all fun t => (entOf dir t).isSome) St.WEFT_SECTION,
    need ((entOf dir 0x08).map (·.count) == (entOf dir 0x05).map (·.count)) St.WEFT_SECTION,
    need (!attends || (entOf dir 0x07).isSome) St.WEFT_SECTION,
    need (!osier || (entOf dir 0x0A).isSome) St.WEFT_SECTION,
    need (leAt b 6 2 / 2 == 0 && (slice b 36 28).all (· == 0)) St.WEFT_SECTION] ++ reserved)

/-! ### Records -/

def geoOf (r : Bytes) : Geometry :=
  { layers := leAt r 0 2, hq := leAt r 2 2, hkv := leAt r 4 2, d := leAt r 6 2, kFmt := leAt r 8 1, vFmt := leAt r 9 1,
    modes := leAt r 10 1, sketch := leAt r 11 1, classes := leAt r 12 1, maxLength := leAt r 16 8 }

def placementRec (r : Bytes) : Placement :=
  { cls := leAt r 0 1, lo := leAt r 2 2, hi := leAt r 4 2, tiers := (List.range (min 3 (leAt r 1 1))).map fun i => leAt r (6 + i) 1 }

def schedRec (r : Bytes) : Sched :=
  { op := leAt r 0 1, cls := leAt r 1 1, lo := leAt r 2 2, hi := leAt r 4 2, prio := leAt r 6 2, vFirst := leAt r 8 4,
    vCount := leAt r 12 2, fabricPlan := leAt r 16 4 }

/-- A variant with its cost (R128, R133). -/
def variantRec (r cost : Bytes) : Variant :=
  { step := leAt r 0 4, bucket := leAt r 4 1, tierSet := leAt r 5 1, bandMask := leAt r 6 1, vclass := leAt r 7 1 % 16,
    batchLo := leAt r 8 1, batchHi := leAt r 9 1, flags := leAt r 10 1, qFmt := leAt r 11 1, scale := leAt r 12 4,
    window := leAt r 16 4, nSlots := leAt r 20 2, pFirst := leAt r 22 1, pLast := leAt r 23 1, slots := leAt r 24 4,
    localPlan := leAt r 28 4, coreMap := BitVec.ofNat 128 (leAt r 32 16), stackMask := leAt r 48 1, kTable := leAt r 50 2,
    vTable := leAt r 52 2, osierProg := leAt r 56 4, energy := leAt cost 0 4, duration := leAt cost 4 4 }

/-- Slot groups at an offset of SLOTS (R129). -/
def groupsAt (b : Bytes) (off : Nat) : List SlotGroup :=
  (List.range (leAt b off 4)).map fun j =>
    let o := off + 8 + 8 * j
    { kvHead := leAt b o 1, core := leAt b (o + 1) 1, count := leAt b (o + 2) 2, first := leAt b (o + 4) 4 }

/-- Rank, die, cluster as entries and inputs of a merge plan pack them. -/
def placeBits (w : Nat) : Nat × Nat × Nat := (fld w 0 14, fld w 14 3, fld w 17 2)

/-- A merge plan at an offset of MERGE (R131). -/
def planAt (b : Bytes) (off : Nat) : List MergeEntry :=
  let ne := leAt b off 4
  let ins := off + 8 + 16 * ne
  (List.range ne).map fun j =>
    let o := off + 8 + 16 * j
    let w := leAt b (o + 4) 4
    let p := placeBits w
    { head := leAt b o 2, level := leAt b (o + 2) 1, final := leAt b (o + 3) 1 == 1, rank := p.1, die := p.2.1, cluster := p.2.2,
      isLocal := bitOf w 19,
      inputs := (List.range (leAt b (o + 12) 2)).map fun k =>
        let x := leAt b (ins + 4 * (leAt b (o + 8) 4 + k)) 4
        let q := placeBits x
        { rank := q.1, die := q.2.1, cluster := q.2.2, core := fld x 19 2, kind := fld x 21 1, isLocal := bitOf x 22 } }

/-- Records of the TABLES section (R134): offsets. A record that does not fit ends the walk. -/
def tableOffsets (b : Bytes) : Nat → Nat → List Nat
  | 0, _ => []
  | n + 1, o => o :: (if o + 10 + leAt b (o + 6) 4 > b.length then [] else tableOffsets b n (cdiv (o + 10 + leAt b (o + 6) 4) 8 * 8))

def tableRec (b : Bytes) (o : Nat) : ImgTable :=
  { tensor := leAt b o 1, lo := leAt b (o + 2) 2, hi := leAt b (o + 4) 2, bytes := slice b (o + 10) (leAt b (o + 6) 4) }

/-- Everything an image says, read under the formats of R122 to R134. -/
def parseImage (b : Bytes) : Image :=
  let dir := directory b
  let sched := (recsOf b dir 0x04).map schedRec
  let costs := recsOf b dir 0x08
  let vars := (recsOf b dir 0x05).zipIdx.map fun r => variantRec r.1 (costs.getD r.2 [])
  let slots := sectionOf b dir 0x06
  let merge := sectionOf b dir 0x07
  let tabs := sectionOf b dir 0x09
  let plans := (vars.map (·.localPlan) ++ sched.map (·.fabricPlan)).filter fun o => o + 8 ≤ merge.length
  { geo := geoOf ((recsOf b dir 0x01).headD []), buckets := (recsOf b dir 0x02).map fun r => leAt r 0 8,
    placement := (recsOf b dir 0x03).map placementRec, sched := sched, variants := vars,
    shapes := ((vars.map (·.slots)).filter fun o => o + 8 ≤ slots.length).foldl (fun t o => tput t o (groupsAt slots o)) [],
    plans := plans.foldl (fun t o => tput t o (planAt merge o)) [],
    tables := (tableOffsets tabs (((entOf dir 0x09).map (·.count)).getD 0) 0).map (tableRec tabs),
    osier := sectionOf b dir 0x0A, groupSize := leAt b 32 4, modelId := leAt b 20 4, buildId := leAt b 24 8 }

/-! ### Record checks (R124 to R134; R136 step 7) -/

/-- The format rules, in the order R124 names them: R22, R26, R28, R34, R36, R47, each over K then V. -/
def formatCheck (g : Geometry) : Check :=
  let scaling := bitOf g.modes 0
  let both (p : Nat → Bool) (code : Nat) : List Check := [need (p g.kFmt) code 1, need (p g.vFmt) code 1]
  allOk (both (· < 0xF) St.FMT_CODE_INVALID ++
    both (fun f => scaling || !(f == 8 || f == 9)) St.FMT_SCALE_REQUIRED ++
    [need (!scaling || g.d % 32 == 0) St.FMT_BLOCK_SHAPE 1] ++
    both (fun f => !scaling || (fmtEmax f).isSome) St.FMT_BLOCK_SHAPE ++
    [need (!bitOf g.modes 3 || g.kFmt == 3 || g.kFmt == 4) St.FMT_SAT_MODE 1,
      need (!bitOf g.modes 4 || g.vFmt == 3 || g.vFmt == 4) St.FMT_SAT_MODE 1,
      need (!bitOf g.modes 1 || (3 ≤ g.kFmt && g.kFmt ≤ 9)) St.FMT_SR_TARGET 1,
      need (!bitOf g.modes 2 || (3 ≤ g.vFmt && g.vFmt ≤ 9)) St.FMT_SR_TARGET 1] ++
    both isKvFmt St.FMT_UNIT_MISMATCH)

/-- GEOMETRY (R99, R124). -/
def geometryCheck (g : Geometry) : Check :=
  allOk [
    need (1 ≤ g.hq && g.hq ≤ 1024 && 1 ≤ g.hkv && g.hkv ≤ 256 && g.hq % g.hkv == 0 && g.d % 16 == 0 && 16 ≤ g.d && g.d ≤ 512)
      St.HEAD_GEOMETRY 1,
    need (1 ≤ g.layers && g.layers ≤ 1024 && 1 ≤ g.maxLength && g.maxLength ≤ 2 ^ 32 && (g.sketch ≤ 4 || g.sketch == 7))
      St.HEAD_GEOMETRY 1,
    formatCheck g]

/-- BUCKETS (R125). -/
def bucketsCheck (bs : List Nat) : Check :=
  allOk (bs.zipIdx.map fun x =>
    need ((x.2 == 0 || decide (bs.getD (x.2 - 1) 0 < x.1)) && (x.2 + 1 != bs.length || x.1 == 2 ^ 64 - 1)) St.WEFT_BUCKETS 2 x.2)

/-- How many records of a list cover a layer of a class. -/
def coverCount (rs : List (Nat × Nat × Nat)) (cls layer : Nat) : Nat :=
  rs.countP fun r => r.1 == cls && r.2.1 ≤ layer && layer ≤ r.2.2

/-- One PLACEMENT record (R126). -/
def placementCheck (g : Geometry) (osier : Bool) (raw : List Bytes) (i : Nat) (r : Bytes) : Check :=
  let p := placementRec r
  let n := leAt r 1 1
  let earlier := (raw.take i).map placementRec
  need (p.cls ≤ g.classes && 1 ≤ n && n ≤ 3 && p.lo ≤ p.hi && decide (p.hi < g.layers) && p.tiers.all (· ≤ 2) &&
    p.tiers.eraseDups.length == p.tiers.length && ((span n 2).all fun k => leAt r (6 + k) 1 == 0xFF) &&
    (osier || !p.tiers.contains 2) && !(earlier.any fun q => q.cls == p.cls && q.lo ≤ p.hi && p.lo ≤ q.hi)) St.WEFT_REF 3 i

def placementsCheck (g : Geometry) (osier : Bool) (raw : List Bytes) : Check :=
  let ps := raw.map fun r => let p := placementRec r; (p.cls, p.lo, p.hi)
  allOk ((raw.zipIdx.map fun r => placementCheck g osier raw r.2 r.1) ++
    [need ((List.range (g.classes + 1)).all fun c => (List.range g.layers).all fun l => coverCount ps c l == 1) St.WEFT_REF 3
      (raw.length - 1)])

/-- One SCHEDULE record (R127). -/
def schedCheck (img : Image) (merge i : Nat) (e : Sched) : Check :=
  allOk [
    need (e.op == 1 || e.op == 2) St.WEFT_OP_INVALID 4 i,
    need (e.cls ≤ img.geo.classes && e.lo ≤ e.hi && decide (e.hi < img.geo.layers) && 1 ≤ e.vCount && e.vCount ≤ 256 &&
      e.vFirst + e.vCount ≤ img.variants.length && (e.fabricPlan == 0xFFFFFFFF || (e.op == 1 && e.fabricPlan + 8 ≤ merge)) &&
      !((img.sched.take i).any fun q => q.op == e.op && q.cls == e.cls && q.lo ≤ e.hi && e.lo ≤ q.hi)) St.WEFT_REF 4 i]

/-- The image's APPEND_KV variants for a class and layer range: the variant's own when its step is one. -/
def appendVariants (img : Image) (v : Variant) : List Variant :=
  let e := img.sched.getD v.step {}
  if e.op = 2 then [v]
  else (img.sched.filter fun q => q.op == 2 && q.cls == e.cls && q.lo ≤ e.hi && e.lo ≤ q.hi).flatMap fun q =>
    (List.range q.vCount).map fun k => img.variants.getD (q.vFirst + k) {}

/-- Bytes of an element of an osier page format. -/
def osierBytes (fmt : Nat) : Nat := fmtWidth fmt / 8

/-- An osier variant (07 R183). -/
def osierCheck (img : Image) (v : Variant) : Bool :=
  let g := img.geo
  let fmt (f : Nat) : Bool := 1 ≤ f && f ≤ 4
  fmt g.kFmt && fmt g.vFmt && !bitOf g.modes 0 &&
    ((appendVariants img v).all fun a => identityTable (tableOf (img.tables.getD a.kTable {}).bytes) &&
      identityTable (tableOf (img.tables.getD a.vTable {}).bytes)) &&
    decide (64 * g.d * (osierBytes g.kFmt + osierBytes g.vFmt) + 2048 ≤ 2 * (16320 - sketchBytes g.sketch))

/-- A table an APPEND_KV variant encodes with: of its tensor, over every layer of its step (R128). -/
def tableFits (img : Image) (e : Sched) (tensor ix : Nat) : Bool :=
  match img.tables[ix]? with
  | some t => t.tensor == tensor && t.lo ≤ e.lo && e.hi ≤ t.hi
  | none => false

/-- A program starts at an offset of OSIER (R134). -/
def programStarts (img : Image) (off : Nat) : Bool :=
  off + 16 ≤ img.osier.length && leAt (progHead img off) 0 2 == 0x534F && leAt (progHead img off) 2 1 == 1

/-- The query format is one that R47 lets the variant's unit take: an osier unit's, or a tile array's. -/
def queryFmtOk (v : Variant) : Bool := if v.osier then (1 ≤ v.qFmt && v.qFmt ≤ 4) || v.qFmt == 10 else v.qFmt ≤ 9

/-- One VARIANT record (R128, 08 R201, 07 R183; 02 R22, R47). -/
def variantCheck (img : Image) (slots merge i : Nat) (v : Variant) : Check :=
  let e := img.sched.getD v.step {}
  let attend := e.op == 1
  let ref (b : Bool) : Check := need b St.WEFT_REF 5 i
  allOk [
    ref (decide (v.step < img.sched.length) && e.vFirst ≤ i && decide (i < e.vFirst + e.vCount) && decide (v.bucket < img.buckets.length) &&
      1 ≤ v.batchLo && v.batchLo ≤ v.batchHi),
    need (decide (v.qFmt < 0xF)) St.FMT_CODE_INVALID 5 i,
    need (queryFmtOk v) St.FMT_UNIT_MISMATCH 5 i,
    need (!v.p8l || isP8lFmt img.geo.vFmt) St.FMT_P8L_OPERAND 5 i,
    ref (!v.sparse || v.nSlots != 0),
    need (!v.sparse || v.nSlots ≤ v.pFirst + v.pLast + 1024) St.WEFT_SLOTS 5 i,
    ref (!v.osier || v.stackMask != 0),
    ref (if attend then v.slots + 8 ≤ slots && v.localPlan + 8 ≤ merge else v.slots == 0xFFFFFFFF && v.localPlan == 0xFFFFFFFF),
    ref (if attend then (v.kTable == 0xFFFF || decide (v.kTable < img.tables.length)) && (v.vTable == 0xFFFF || decide (v.vTable < img.tables.length))
      else tableFits img e 0 v.kTable && tableFits img e 1 v.vTable),
    ref (if v.osierProg == 0xFFFFFFFF then !v.osier || !attend else programStarts img v.osierProg),
    need (!v.osier || osierCheck img v) St.OSIER_GEOMETRY 5 i]

/-- Groups of one KV head ascend without overlap. -/
def headAscends : Nat → List SlotGroup → Bool
  | _, [] => true
  | lo, g :: gs => lo ≤ g.first && headAscends (g.first + g.count) gs

/-- The slot shape of a variant (R129). SLOTS has no records of its own: the index is the variant's (DESIGN CHOICE). -/
def shapeCheck (img : Image) (b : Bytes) (i : Nat) (v : Variant) : Check :=
  if (img.sched.getD v.step {}).op ≠ 1 then .ok ()
  else
    let gs := groupsAt b v.slots
    allOk [
      need (v.slots + 8 + 8 * leAt b v.slots 4 ≤ b.length) St.WEFT_REF 6 i,
      need (gs.all fun g => decide (g.core < 128)) St.WEFT_SECTION 6 i,
      need (leAt b (v.slots + 4) 4 == (gs.map (·.count)).sum && (gs.map (·.count)).sum ≤ 65536 &&
        (gs.all fun g => decide (g.kvHead < img.geo.hkv) && v.coreMap.getLsbD g.core &&
          decide ((((gs.filter fun h => h.core == g.core).map (·.count)).sum) ≤ 4096)) &&
        (List.range img.geo.hkv).all fun kv => headAscends 0 (gs.filter fun g => g.kvHead == kv)) St.WEFT_SLOTS 6 i]

/-- One merge plan in itself (R131): its bytes lie in the section, its reserved bits are clear, its entries keep their ranges. -/
def planCheck (img : Image) (b : Bytes) (i off : Nat) (fabric : Bool) : Check :=
  let ne := leAt b off 4
  let ni := leAt b (off + 4) 4
  let ins := off + 8 + 16 * ne
  let entry (j : Nat) : Check :=
    let o := off + 8 + 16 * j
    let level := leAt b (o + 2) 1
    allOk [
      need (decide (leAt b o 2 < 1024) && decide (leAt b (o + 4) 4 < 2 ^ 20) && leAt b (o + 14) 2 == 0) St.WEFT_SECTION 7 i,
      need (leAt b (o + 8) 4 + leAt b (o + 12) 2 ≤ ni) St.WEFT_REF 7 i,
      need (2 ≤ leAt b (o + 12) 2 && leAt b (o + 12) 2 ≤ 256 && leAt b (o + 3) 1 ≤ 1 && decide (leAt b o 2 < img.geo.hq) &&
        (if fabric then 3 ≤ level && level ≤ 6 else level ≤ 2)) St.WEFT_MERGE 7 i]
  allOk ([need (ins + 4 * ni ≤ b.length) St.WEFT_REF 7 i] ++ (List.range ne).map entry ++
    (List.range ni).map fun k => need (decide (leAt b (ins + 4 * k) 4 < 2 ^ 23)) St.WEFT_SECTION 7 i)

/-- Inputs that a step sends into a cluster: those of local entries there, and those of fabric entries of a rank. -/
def inputsInto (es : List MergeEntry) (p : MergeEntry → Bool) : Nat := ((es.filter p).map (·.inputs.length)).sum

/-- A level-3 input names the output of a level-2 entry of its head: the local plan is each rank's (R131). -/
def levelTwoOut (loc : List MergeEntry) (head : Nat) (x : MergeIn) : Bool :=
  x.kind == 1 && loc.any fun e => e.level == 2 && e.head == head && !e.final && e.die == x.die && e.cluster == x.cluster

/-- Both plans of a variant together: one final entry for each head, level-3 inputs that level 2 makes, at most 256 inputs into one
cluster (R131, R109). -/
def plansFit (img : Image) (loc fab : List MergeEntry) : Bool :=
  let ranks := ((fab.filter fun e => !e.isLocal).map (·.rank)).eraseDups.filter fun r => decide (r < img.groupSize)
  ((List.range img.geo.hq).all fun h => (loc ++ fab).countP (fun e => e.head == h && e.final) == 1) &&
    (fab.all fun e => e.level != 3 || e.inputs.all (levelTwoOut loc e.head)) &&
    (List.range 8).all fun d => (List.range 4).all fun c =>
      let base := inputsInto (loc ++ fab.filter (·.isLocal)) fun e => e.die == d && e.cluster == c
      decide (base ≤ 256) && ranks.all fun r => decide (base + inputsInto fab (fun e => !e.isLocal && e.rank == r && e.die == d && e.cluster == c) ≤ 256)

def mergeCheck (img : Image) (b : Bytes) (i : Nat) (v : Variant) : Check :=
  let e := img.sched.getD v.step {}
  if e.op ≠ 1 then .ok ()
  else allOk [
    planCheck img b i v.localPlan false,
    if e.fabricPlan = 0xFFFFFFFF then .ok () else planCheck img b i e.fabricPlan true,
    need (plansFit img (planAt b v.localPlan) (if e.fabricPlan = 0xFFFFFFFF then [] else planAt b e.fabricPlan)) St.WEFT_MERGE 7 i]

/-- One TABLES record (R134; 02 R22; 06 R149, R152). -/
def tablesCheck (g : Geometry) (b : Bytes) (i o : Nat) : Check :=
  let t := tableRec b o
  allOk [
    need (o + 10 ≤ b.length && o + 10 + leAt b (o + 6) 4 ≤ b.length) St.WEFT_REF 9 i,
    need (leAt b (o + 1) 1 == 0) St.WEFT_SECTION 9 i,
    need (t.tensor ≤ 1 && t.lo ≤ t.hi && decide (t.hi < g.layers)) St.WEFT_REF 9 i,
    need (leAt t.bytes 3 1 % 16 != 0xF) St.FMT_CODE_INVALID 9 i,
    need (tableGood t.bytes (if t.tensor = 0 then g.kFmt else g.vFmt) (bitOf g.modes 0)) St.TABLE_BAD 9 i]

/-- Step 7: section by section in directory order, record by record. -/
def recordsCheck (b : Bytes) (img : Image) : Check :=
  let dir := directory b
  let slots := sectionOf b dir 0x06
  let merge := sectionOf b dir 0x07
  let tabs := sectionOf b dir 0x09
  allOk (dir.map fun e => match e.type with
    | 0x01 => geometryCheck img.geo
    | 0x02 => bucketsCheck img.buckets
    | 0x03 => placementsCheck img.geo (entOf dir 0x0A).isSome (recsOf b dir 0x03)
    | 0x04 => allOk (img.sched.zipIdx.map fun x => schedCheck img merge.length x.2 x.1)
    | 0x05 => allOk (img.variants.zipIdx.map fun x => variantCheck img slots.length merge.length x.2 x.1)
    | 0x06 => allOk (img.variants.zipIdx.map fun x => shapeCheck img slots x.2 x.1)
    | 0x07 => allOk (img.variants.zipIdx.map fun x => mergeCheck img merge x.2 x.1)
    | 0x08 => allOk (img.variants.zipIdx.map fun x => need (1 ≤ x.1.energy) St.WEFT_REF 8 x.2)
    | 0x09 => allOk ((tableOffsets tabs e.count 0).zipIdx.map fun x => tablesCheck img.geo tabs x.2 x.1)
    | _ => .ok ())

/-! ### Signature (R135; 15 R378, R380) -/

/-- Identifier of a key: the first 4 bytes of the SHA-256 of its modulus. -/
def keyId (modulus : Bytes) : Nat := le ((sha256 modulus).take 4)

def keyEnt (s : State) (i : Nat) : KeyEnt := tget {} s.sec.store i

/-- An enrolled key with a role (bit 0 IMAGE, 1 FABRIC) and an identifier verifies a signature. -/
def enrolledVerify (s : State) (role id : Nat) (msg sig : Bytes) : Bool :=
  (List.range 8).any fun i =>
    let k := keyEnt s i
    k.valid && bitOf k.roles role && keyId k.modulus == id && pssVerify k.modulus msg sig

def signatureOk (s : State) (b : Bytes) : Bool :=
  let o := leAt b 8 8 - 424
  bitOf (leAt b 6 2) 0 && enrolledVerify s 0 (leAt b (o + 32) 4) (b.take o) (slice b (o + 40) 384)

/-! ### IMAGE_LOAD (R136) -/

/-- The argument record of a privileged descriptor (10 R259). -/
def Desc.recAddr (d : Desc) : Nat := d.addr 24
def Desc.recLen (d : Desc) : Nat := d.n 32 8

def storeBase (s : State) : Nat := rf s Off.WEFT_STORE_BASE 0 32
def storeFrames (s : State) : Nat := rf s Off.WEFT_STORE_FRAMES 0 32

/-- WEFT_STORE_FREE: frames no image occupies. -/
def storeFree (s : State) : Nat := storeFrames s - (s.weft.handles.map fun h => h.2.frames).sum

/-- Step 3: the store is set and lies in populated board frames. -/
def storeSet (s : State) : Bool :=
  isBoard (storeBase s) && pfnOk s (storeBase s) && (storeFrames s ≤ 1 || runOk s (storeBase s) (storeFrames s))

/-- Steps 2 to 7 on the bytes of an image. -/
def loadChecks (s : State) (b : Bytes) : Check :=
  allOk [
    headerCheck b b.length,
    need (storeSet s) St.WEFT_STORE_UNSET,
    need (cdiv b.length 16384 ≤ storeFree s) St.WEFT_STORE_FULL,
    need (sha256 (b.take (b.length - 424)) == slice b (b.length - 424) 32) St.WEFT_DIGEST,
    need (!(bitOf (leAt b 6 2) 0 || rbit s Off.WEFT_CTRL 1) || signatureOk s b) St.WEFT_SIGNATURE,
    directoryCheck b,
    recordsCheck b (parseImage b)]

/-- A load is refused: code, place of the failing check, event (R136, R148). -/
def loadRefused (s : State) (d : Desc) (e : LoadBad) : State :=
  let s := { s with weft := { s.weft with errSection := e.secType % 256, errRecord := e.record % 2 ^ 24 } }
  refuse (weftEvent s 0 d.handle) d e.code

/-- Another load runs, or an IMAGE_LOAD of the same ring stands before this one. -/
def loadWaits (s : State) (d : Desc) : Bool :=
  (s.weft.handles.any fun h => h.2.loading.isSome) ||
    s.hostq.fetched.any fun e => e.kind == 0x42 && e.ring == d.ring && decide (e.id < d.id)

def imageLoad (id : Nat) (hv : AddrView) (s : State) : State :=
  match findDesc s id with
  | none => s
  | some d =>
    if d.kind ≠ 0x42 || !descReady s d || loadWaits s d then s
    else if (handleOf s d.handle).st ≠ .free then loadRefused s d { code := St.HANDLE_BUSY }
    else if d.recLen < 64 || d.recLen > 2 ^ 31 then loadRefused s d { code := St.WEFT_BAD_HEADER }
    else match hostRead hv d.recAddr d.recLen with
      | none => loadRefused s d { code := St.HOST_READ_ERROR }
      | some b =>
        let h : Handle := match loadChecks s b with
          | .ok () => { st := .loading, img := parseImage b, frames := cdiv b.length 16384, digest := slice b (b.length - 424) 32,
                        loading := some (id, 0, 0, 0) }
          | .error e => { st := .loading, loading := some (id, e.code, e.secType, e.record) }
        setHandle s d.handle h

/-- IMAGE_LOAD (R122 to R136). The outcome is posted when the load ends. -/
def execImageLoad (id : Nat) (hv : HostView) (s : State) : Host.Outcome State Fault Refusal := whileAlive s (imageLoad id (descView s id hv) s)

/-! ### Binding (R134; 06 R162, R163) -/

/-- The slot a table shares or takes; none where no slot is free. -/
def bindTable (s : State) (bytes : Bytes) : Option (Nat × State) :=
  match lowest 64 fun k => (tslotOf s k).st != .free && (tslotOf s k).bytes == bytes with
  | some k =>
    let t := tslotOf s k
    some (k, setTslot s k { t with st := .bound, images := t.images + 1 })
  | none => match lowest 64 fun k => (tslotOf s k).st == .free with
    | some k => some (k, setTslot s k { st := .bound, bytes := bytes, gen := ((tslotOf s k).gen + 1) % 1024, images := 1 })
    | none => none

/-- Bind the tables of an image in order; equal tables of one image take one reference. The index of a table that finds no slot. -/
def bindTables (s : State) (done : List ImgTable) : List ImgTable → Except Nat (List ImgTable × State)
  | [] => .ok (done, s)
  | t :: ts => match done.find? fun u => u.bytes == t.bytes with
    | some u => bindTables s (done ++ [{ t with slot := u.slot, gen := u.gen }]) ts
    | none => match bindTable s t.bytes with
      | none => .error done.length
      | some (k, s) => bindTables s (done ++ [{ t with slot := k, gen := (tslotOf s k).gen }]) ts

def imageLoadComplete (h : Nat) (s : State) : State :=
  let x := handleOf s h
  match x.loading with
  | none => s
  | some (id, code, sec, r) =>
    match findDesc s id with
    | none => setHandle s h {}
    | some d =>
      if code ≠ 0 then loadRefused (setHandle s h {}) d { code := code, secType := sec, record := r }
      else match bindTables s [] x.img.tables with
        | .error i => loadRefused (setHandle s h {}) d { code := St.WEFT_NO_TABLE_SLOT, secType := 9, record := i }
        | .ok (ts, s) =>
          let s := setHandle s h { x with st := .loaded, img := { x.img with tables := ts }, loading := none }
          let s := { s with weft := { s.weft with loads := (s.weft.loads + 1) % 2 ^ 64 } }
          refuse s d St.OK 0 (putLe 1 h ++ zeros 15 ++ x.digest.take 16)

/-- IMAGE_LOAD_COMPLETE (R136 steps 8 and 9). -/
def execImageLoadComplete (handle : Nat) (s : State) : Host.Outcome State Fault Refusal := whileAlive s (imageLoadComplete handle s)

/-! ### Unloading (R121; 06 R162) -/

/-- Kinds whose descriptors name a handle (R121). -/
def namesHandle (d : Desc) : Bool :=
  (1 ≤ d.kind && d.kind ≤ 4) || d.kind == 7 || (d.kind == 5 && d.op == 0 && d.recode)

/-- WEFT_HANDLE_INFLIGHT: admitted steps stamped with the handle. -/
def handleSteps (s : State) (h : Nat) : Nat := s.weft.steps.countP fun t => namesHandle t.desc && t.handle == h

def imageUnload (id : Nat) (s : State) : State :=
  match findDesc s id with
  | none => s
  | some d =>
    if d.kind ≠ 0x43 || !descReady s d then s
    else match handleRefusal s d.handle with
      | some e => refuse s d e
      | none =>
        let s := setHandle s d.handle { handleOf s d.handle with st := .retiring }
        let s := refuse s d St.OK
        (s.hostq.fetched.filter fun e => namesHandle e && e.ring != adminRing && e.handle == d.handle && !behindFence s e).foldl
          (fun s e => refuse s e St.IMAGE_RETIRING) s

/-- IMAGE_UNLOAD (R121). -/
def execImageUnload (id : Nat) (s : State) : Host.Outcome State Fault Refusal := whileAlive s (imageUnload id s)

/-- Images no longer bound to a slot: one reference drops, and the last leaves the slot DRAINING. -/
def unbind (s : State) (k : Nat) : State :=
  let t := tslotOf s k
  setTslot s k { t with images := t.images - 1, st := if t.images ≤ 1 then .draining else t.st }

/-- A handle gives up its store frames, its table references and its measurement. -/
def dropImage (s : State) (h : Nat) : State :=
  let s := { s with osier := { s.osier with units := s.osier.units.map fun (e : Nat × OUnit) =>
                                            (e.1, if e.2.progHandle = h then { e.2 with progOff := none } else e.2) } }
  (((handleOf s h).img.tables.map (·.slot)).eraseDups).foldl unbind (setHandle s h {})

def retireDrained (h : Nat) (s : State) : State :=
  if (handleOf s h).st ≠ .retiring || handleSteps s h ≠ 0 then s else weftEvent (dropImage s h) 4 h

/-- RETIRE_DRAINED (R121). -/
def execRetireDrained (handle : Nat) (s : State) : Host.Outcome State Fault Refusal := whileAlive s (retireDrained handle s)

/-- Coded blocks of a page that name a table, none where the page is not there. -/
def namedIn (ref : Nat) (b : Bytes) : Nat := if b.isEmpty then 0 else blocksNaming ref b

/-- Frames whose blocks a step has queued for its cores and no core has read yet, one entry for each core's use of a block. -/
def queuedFrames (t : Step) : List Nat :=
  if t.kind ≠ 1 || !t.filled then []
  else (t.slots.filter fun p => !t.coresDone.contains p.core).flatMap fun p => match p.block with
    | none => []
    | some b => entryFrames (tget {} (t.streams.getD p.si {}).entries (blockKey (t.desc.n 16 2) p.kvHead b))

/-- Frames that a step has written and its commit will name: encoders in progress. -/
def encoding (t : Step) : List Nat := if t.kind = 2 || t.kind = 5 then t.newEntries.flatMap fun e => entryFrames e.2 else []

/-- Blocks in flight that name a slot's current generation (06 R162): those of remote pages in operand buffers, of blocks queued for
the cores, of pages that encoders have written and no commit has named, and of pages that another node pushed and that have landed. -/
def slotInflight (s : State) (k : Nat) : Nat :=
  let ref := tableRef k (tslotOf s k).gen
  let inFrame (ctx pfn : Nat) : Nat := namedIn ref (getFrame s ctx pfn 0 frameBytes)
  (s.weft.steps.map fun (t : Step) =>
    (t.pages.map fun p => namedIn ref p.2.2.1 + namedIn ref p.2.2.2).sum + ((queuedFrames t ++ encoding t).map (inFrame t.ctx)).sum).sum +
    ((s.tier.frames.filter fun e => e.2.use == .reserved && e.2.tabs.contains ref).map fun e => inFrame e.2.ctx e.1).sum

/-- A FREE slot's decode tables leave the cores' port caches (06 R159). -/
def dropCached (s : State) (k : Nat) : State :=
  { s with attn := { s.attn with portCache := (s.attn.portCache.map fun e => (e.1, e.2.filter fun x => x.1 != k)).filter fun e => !e.2.isEmpty } }

def tableSlotFree (k : Nat) (s : State) : State :=
  let t := tslotOf s k
  if t.st ≠ .draining || slotPages s k + slotInflight s k ≠ 0 then s
  else dropCached (setTslot s k { gen := t.gen }) k

/-- TABLE_SLOT_FREE (06 R162). -/
def execTableSlotFree (slot : Nat) (s : State) : Host.Outcome State Fault Refusal := whileAlive s (tableSlotFree slot s)

end Sys2Proof.Machine
end

