-- ==== Sys2Proof/Machine/Link.lean ====
section
/-! DEFINITION. Ports: training, flits, replay and link keys (11 R267 to R273, R278, R279; 15 R369 to R373). -/
namespace Sys2Proof.Machine
open Sys2Proof

/-! ### Leaving UP (R272, R273) -/

def portEvent (s : State) (p flags : Nat) : State := raise s (Off.PORT_STATUS p) flags

/-- The port leaves UP, for another state: the frames of its replay buffer are held, its sessions stay known until it trains
again. -/
def leaveUp (s : State) (p : Nat) (st : PortState) (flags : Nat) : State :=
  let port := portOf s p
  let s := setPort s p { port with st := st, held := port.held ++ port.replay.filterMap (fun f => f.frame), replay := [], rxBuf := [],
                                   rxNak := false, ackDue := 0, owed := [0, 0, 0, 0, 0, 0, 0, 0], lanes := 0, peerHello := [],
                                   helloSent := false }
  portEvent s p (1 + flags)

/-- Service record entry of a retrain that ends (16 R415): outcome 0 UP, 1 DEGRADED, 2 DOWN. -/
def retrainEntry (s : State) (p outcome : Nat) : State :=
  let port := portOf s p
  match port.retrain with
  | none => s
  | some c =>
    svcWrite (setPort s p { port with retrain := none }) 0x0004 (putLe 1 p ++ putLe 1 c ++ putLe 1 port.lanes.toNat ++ putLe 1 outcome)

/-- A retrain starts: counted, reported as CORRECTED (16 R387). Cause 0 replay, 1 FEC, 2 command. -/
def startRetrain (s : State) (p cause : Nat) : State :=
  if !portUp (portOf s p) then s
  else
    let s := faultReport (countSat s (Off.PORT_RETRAIN_CNT p) 1) { source := 0x03, unitKind := 6, unitIndex := p }
    let s := total s fun t => { t with retrains := t.retrains + 1 }
    let s := leaveUp s p .detect 2
    setPort s p { portOf s p with retrain := some cause }

/-- The rejoin of a port ends with its training: OK when it came UP, else REJOIN_FAILED with the port FENCED (16 R410). -/
def rejoinPort (s : State) (p : Nat) (ok : Bool) : State :=
  if s.fault.rejoin ≠ some (6, p) then s
  else
    let s := { s with fault := { s.fault with rejoin := none, busy := false, status := if ok then St.OK else St.REJOIN_FAILED } }
    if ok then s else unitFault s 0x21 6 p

/-- Training fails: the port is DOWN; the eighth failure in a row fences it (16 R387). -/
def trainFail (s : State) (p : Nat) : State :=
  let s := retrainEntry s p 2
  let port := portOf s p
  let s := setPort s p { port with st := .down, fails := port.fails + 1, lanes := 0, ackDue := 0, peerHello := [], helloSent := false,
                                   replay := [] }
  rejoinPort (if port.fails + 1 = 8 then unitFault s 0x23 6 p else s) p false

/-- A frame ahead of the first of a list to its target. -/
def aheadOf (x : QFrame) : List QFrame → List QFrame
  | [] => [x]
  | q :: qs => if q.frame.dst = x.frame.dst then x :: q :: qs else q :: aheadOf x qs

/-- Issue a frame again: on the port of its flow, ahead of the frames to its target that were issued after it. None where no port may
carry it. -/
def reissueOne (s : State) (q : QFrame) : Option State :=
  if q.frame.tc = 0 then none
  else match flowPort s q.ctx q.frame.dst q.frame.tc with
    | none => none
    | some p => (sessionOf (portOf s p) q.ctx).map fun n =>
      putClass (bindFlow s q.ctx q.frame.dst q.frame.tc p) p q.frame.tc
        (aheadOf { q with frame := { q.frame with session := n } } (classFrames (eport s p) q.frame.tc))

/-- Frames of a port that is not UP are routed again; those without a route stay (R273). The last goes first: each then stands ahead
of the ones after it, and all keep their order. -/
def reissueList (s : State) (l : List QFrame) : List QFrame × State :=
  l.foldr (fun q r => match reissueOne r.2 q with
    | some s' => (r.1, s')
    | none => (q :: r.1, r.2)) ([], s)

/-- The frames of a port that left UP are issued again on other ports: those of its replay buffer ahead of those that had not started.
Link control frames belong to the port and are dropped. -/
def reissue (s : State) (p : Nat) : State :=
  let s := (span 1 7).foldl (fun s c =>
    let r := reissueList (putClass s p c []) (classFrames (eport s p) c)
    putClass r.2 p c (r.1 ++ classFrames (eport r.2 p) c)) s
  let r := reissueList s (portOf s p).held
  setPort r.2 p { portOf r.2 p with held := r.1.filter fun q => q.frame.tc != 0 }

/-- Frames still in the replay buffer of a port that is DOWN are held. -/
def holdReplay (s : State) (p : Nat) : State :=
  let port := portOf s p
  if port.st = .down then setPort s p { port with held := port.held ++ port.replay.filterMap (fun f => f.frame), replay := [] } else s

def portDown (p : Nat) (s : State) : State :=
  if p ≥ 24 then s
  else
    let s := if portUp (portOf s p) then leaveUp s p .down 0 else s
    reissue (holdReplay s p) p

/-- PORT_DOWN (R273). -/
def execPortDown (port : Nat) (s : State) : Host.Outcome State Fault Refusal := whileAlive s (portDown port s)

/-! ### Link control by register (R288) -/

/-- A DOWN port may train: enabled, with a node number, not fenced. -/
def mayTrain (s : State) (p : Nat) : Bool :=
  (portOf s p).st == .down && rbit s (Off.PORT_CTRL p) 0 && numbered s && !(portOf s p).fenced && !inSafe s

def beginTraining (s : State) (p : Nat) : State := if mayTrain s p then setPort s p { portOf s p with st := .detect } else s

/-- The port follows PORT_CTRL.enable. -/
def followEnable (s : State) (p : Nat) : State :=
  if rbit s (Off.PORT_CTRL p) 0 then beginTraining s p
  else if portUp (portOf s p) then leaveUp s p .down 0
  else setPort s p { portOf s p with st := .down, lanes := 0, ackDue := 0, peerHello := [], helloSent := false, replay := [] }

def portEnable (m : Master) (p data : Nat) (s : State) : State :=
  if p ≥ 24 then s
  else regCmd s m (Off.PORT_CTRL p) [(0, 1, data), (1, 1, data / 2), (2, 1, 0), (8, 8, data / 256)] fun s => followEnable s p

/-- PORT_ENABLE (R288): `data` is the word written, its retrain bit apart. -/
def execPortEnable (m : Master) (port data : Nat) (s : State) : Host.Outcome State Fault Refusal := .next (portEnable m port data s)

def portRetrain (m : Master) (p : Nat) (s : State) : State :=
  if p ≥ 24 then s else regCmd s m (Off.PORT_CTRL p) [(2, 1, 1)] fun s => startRetrain s p 2

/-- PORT_RETRAIN (R272). -/
def execPortRetrain (m : Master) (port : Nat) (s : State) : Host.Outcome State Fault Refusal := .next (portRetrain m port s)

/-! ### Training (R272) -/

def detect (p : Nat) (s : State) : State :=
  if p < 24 && (portOf s p).st == .detect then setPort s p { portOf s p with st := .equalise } else s

/-- DETECT (R272). -/
def execDetect (port : Nat) (s : State) : Host.Outcome State Fault Refusal := whileAlive s (detect port s)

/-- Lanes a port goes on with: all, or a half where four lanes may do; lanes 0 to 3 first where both halves would. -/
def usableLanes (allow : Bool) (l : BitVec 8) : Option (BitVec 8) :=
  if l = 0xFF then some 0xFF
  else if allow && l &&& 0x0F == 0x0F then some 0x0F
  else if allow && l &&& 0xF0 == 0xF0 then some 0xF0
  else none

def equalise (p : Nat) (lanes : BitVec 8) (s : State) : State :=
  if p < 24 && (portOf s p).st == .equalise then
    match usableLanes (rbit s (Off.PORT_CTRL p) 1) lanes with
    | some l => setPort s p { portOf s p with st := .lock, lanes := l }
    | none => trainFail (setPort s p { portOf s p with lanes := 0 }) p
  else s

/-- EQUALISE (R272). -/
def execEqualise (port : Nat) (lanes : BitVec 8) (s : State) : Host.Outcome State Fault Refusal := whileAlive s (equalise port lanes s)

/-- The training flit that tells the peer this node's number, kind and credit grant; the spec gives its payload no layout. -/
def sendPeer (s : State) (p : Nat) : State :=
  let r := freeBytes s 240
  emit r.2 (.flit p (flitBytes (flitHdr 0 0 0 0 0 2) r.1))

def lock (p : Nat) (s : State) : State :=
  if p < 24 && (portOf s p).st == .lock then sendPeer (setPort s p { portOf s p with st := .peer }) p else s

/-- LOCK (R272). -/
def execLock (port : Nat) (s : State) : Host.Outcome State Fault Refusal := whileAlive s (lock port s)

/-- The body of this node's AUTH_HELLO (15 R369). -/
def helloBody (s : State) (d : Nat) : Bytes :=
  putLe 4 1 ++ putLe 2 (nodeNum s) ++ putLe 1 0 ++ zeros 1 ++ putLe 32 (Config.random (d + 1)) ++ (List.range 97).map (Config.ecdhPoint d) ++
    zeros 3 ++ (List.range 384).map Config.identityModulus ++ fit 424 s.sec.cred

/-- Draw a key pair and a nonce and send AUTH_HELLO. -/
def sendHello (s : State) (p : Nat) : State :=
  let d := s.rngCtr
  let s := { s with rngCtr := d + 2 }
  sendControl (setPort s p { portOf s p with draw := d, helloSent := true, peerHello := [] }) p 0xF2 (helloBody s d)

/-- The peer's number, kind and credit grant arrive; TC0 has 4 credits whatever it grants (R271). -/
def peerExchange (p node kind : Nat) (credits : List Nat) (s : State) : State :=
  if p < 24 && (portOf s p).st == .peer then
    let port := portOf s p
    let s := setPort s p { port with st := .auth, peerNode := node % 2 ^ 14, peerSwitch := kind == 1,
                                     txCredits := (List.range 8).map fun c => max (credits.getD c 0) (if c = 0 then 4 else 0),
                                     txSeq := 0, rxSeq := 0, rxNak := false, ackDue := 0, rxBuf := [], replay := [] }
    if s.sec.rng = .ok then sendHello s p else trainFail s p
  else s

/-- PEER_EXCHANGE (R271, R272; 15 R363, R369 step 1). -/
def execPeerExchange (port node kind : Nat) (credits : List Nat) (s : State) : Host.Outcome State Fault Refusal :=
  whileAlive s (peerExchange port node kind credits s)

def inTraining (p : Port) : Bool := p.st != .down && !portUp p

def trainingTimeout (p : Nat) (s : State) : State := if p < 24 && inTraining (portOf s p) then trainFail s p else s

/-- TRAINING_TIMEOUT (R272). -/
def execTrainingTimeout (port : Nat) (s : State) : Host.Outcome State Fault Refusal := whileAlive s (trainingTimeout port s)

def portRetry (p : Nat) (s : State) : State := if p < 24 then beginTraining s p else s

/-- PORT_RETRY (R272). -/
def execPortRetry (port : Nat) (s : State) : Host.Outcome State Fault Refusal := whileAlive s (portRetry port s)

def fecLimitExceeded (p codewords : Nat) (s : State) : State :=
  let limit := rf s (Off.PORT_FEC_LIMIT p) 0 16
  if p ≥ 24 || !portUp (portOf s p) then s
  else
    let s := countSat s (Off.PORT_FEC_UNCORR_CNT p) codewords
    if limit = 0 || codewords ≤ limit then s else startRetrain s p 1

/-- FEC_LIMIT_EXCEEDED (R272): uncorrectable codewords of one millisecond. -/
def execFecLimitExceeded (port codewords : Nat) (s : State) : Host.Outcome State Fault Refusal :=
  whileAlive s (fecLimitExceeded port codewords s)

/-! ### Link keys (15 R369 to R373) -/

/-- This node is the lower-numbered end of the link. -/
def lowerEnd (s : State) (p : Nat) : Bool := nodeNum s < (portOf s p).peerNode

/-- The two keys of a session of an info string: sent frames, received frames (R371). -/
def directionKeys (s : State) (p root : Nat) (info : Nat → Bytes) : Nat × Nat :=
  let own := if lowerEnd s p then 0 else 1
  (Config.sessionKey root (info own), Config.sessionKey root (info (1 - own)))

def asciiBytes (ns : List Nat) : Bytes := ns.map (BitVec.ofNat 8)

/-- "BL0" || dir || epoch. -/
def infoZero (epoch dir : Nat) : Bytes := asciiBytes [0x42, 0x4C, 0x30] ++ putLe 1 dir ++ putLe 2 epoch

/-- "BLC" || session || tenant || slot generation || dir. -/
def infoCtx (session tenant gen dir : Nat) : Bytes :=
  asciiBytes [0x42, 0x4C, 0x43] ++ putLe 2 session ++ putLe 4 tenant ++ putLe 2 gen ++ putLe 1 dir

/-- Session entries of a port, and the share kept for rekeys (R372). -/
def sessionLimit : Nat := 4096
def rekeyReserve : Nat := 16

def secPortEvent (s : State) (bit p : Nat) : State := raise s Off.SEC_STATUS (2 ^ bit) [(24, 5, p)]

/-- The port's number of sessions, and a free number of this end's parity. -/
def freeSession (s : State) (p : Nat) : Nat :=
  let first := if lowerEnd s p then 1 else 2
  (((List.range 4097).map fun i => first + 2 * i).find? fun n => (tfind (portOf s p).sessions n).isNone).getD first

/-- Open a session for a context (R372); `replaces` is the session a rekey replaces (R373). -/
def openSession (s : State) (p c : Nat) (replaces : Option Nat) : State :=
  let port := portOf s p
  if port.sessions.length + (if replaces.isSome then 0 else rekeyReserve) ≥ sessionLimit then secPortEvent s 6 p
  else
    let n := freeSession s p
    let x := ctxOf s c
    let gen := (keySlot s c).gen
    let k := directionKeys s p port.root (infoCtx n x.tenant gen)
    let s := setPort s p { port with sessions := tput port.sessions n { ctx := c, tenant := x.tenant, txKey := k.1, rxKey := k.2,
                                                                        replaces := replaces } }
    sendControl s p 0xF4 (putLe 2 n ++ putLe 4 x.tenant ++ putLe 2 gen ++ zeros 8)

/-- Contexts that have sessions on a port: ACTIVE, with a tenant tag, on a slice that owns the port. -/
def portContexts (s : State) (p : Nat) : List Nat :=
  (s.sec.ctxs.filter fun e => e.2.st == .active && e.2.tenant != 0 && (sliceOf s e.2.slice).enabled &&
    (sliceOf s e.2.slice).ports.getLsbD p).map (·.1)

/-- Open the session of a context on a port that is UP and has none for it. -/
def openFor (s : State) (p c : Nat) : State :=
  if portUp (portOf s p) && (portContexts s p).contains c && !((portOf s p).sessions.any fun e => e.1 != 0 && e.2.ctx == c) then
    openSession s p c none
  else s

/-- The port comes UP: session 0 at epoch 0, frames it held leave on it, and its contexts' sessions are opened. -/
def comeUp (s : State) (p root : Nat) : State :=
  let port := portOf s p
  let deg := port.lanes != 0xFF
  let k := directionKeys s p root (infoZero 0)
  let s := setPort s p { port with st := if deg then .degraded else .up, root := root, epoch := 0, fails := 0, draw := 0, helloSent := false,
                                   peerHello := [], held := [],
                                   sessions := [(0, { ctx := nodeSlot, opened := true, txKey := k.1, rxKey := k.2 })] }
  let s := port.held.foldr (fun x s => putClass s p x.frame.tc (aheadOf x (classFrames (eport s p) x.frame.tc))) s
  let s := if deg then portEvent s p 16 else s
  let s := retrainEntry s p (b2n deg)
  rejoinPort ((portContexts s p).foldl (fun s c => openFor s p c) s) p true

/-- A fresh exchange on a port that stays UP: new keys for session 0, the epoch one higher; the old receive key stays until a
frame authenticates under the new (R373). -/
def rekeyZero (s : State) (p root : Nat) : State :=
  let port := portOf s p
  let epoch := (port.epoch + 1) % 2 ^ 16
  let k := directionKeys s p root (infoZero epoch)
  let old := tget {} port.sessions 0
  setPort s p { port with root := root, epoch := epoch, draw := 0, helloSent := false, peerHello := [],
                          sessions := tput port.sessions 0 { ctx := nodeSlot, opened := true, txKey := k.1, rxKey := k.2,
                                                             oldKey := some old.rxKey, oldCtr := old.rxCtr } }

/-- A failed check ends AUTH (R370). In a rekey the port stays UP and keeps its keys (R373). -/
def authFail (s : State) (p : Nat) : State :=
  let s := secPortEvent s 1 p
  if (portOf s p).st = .auth then trainFail s p else setPort s p { portOf s p with helloSent := false, peerHello := [], draw := 0 }

def helloModulus (b : Bytes) : Bytes := slice b 140 384

/-- The credential of an AUTH_HELLO stands under R370. -/
def credentialOk (s : State) (peer : Nat) (b : Bytes) : Bool :=
  let c := slice b 524 424
  leAt c 0 2 % 2 ^ 14 == peer && slice c 8 32 == sha256 (helloModulus b) &&
    enrolledVerify s 1 (leAt c 4 4) (c.take 40) (slice c 40 384)

def helloOk (s : State) (p : Nat) (b : Bytes) : Bool :=
  b.length ≥ 948 && leAt b 0 4 == 1 && leAt b 4 2 % 2 ^ 14 != nodeNum s &&
    (!rbit s Off.SEC_CTRL 0 || credentialOk s (portOf s p).peerNode b)

/-- What an end signs: both HELLO bodies, the lower end's first, and who signs. -/
def proofMessage (s : State) (p : Nat) (own peer : Bytes) (peerSigns : Bool) : Bytes :=
  let low := lowerEnd s p
  (if low then own ++ peer else peer ++ own) ++ putLe 1 (b2n (low == peerSigns))

def authHello (p : Nat) (body : Bytes) (s : State) : State :=
  let port := portOf s p
  if p ≥ 24 || !numbered s || !(port.st == .auth || portUp port) || (portUp port && s.sec.rng != .ok) then s
  else if !helloOk s p body then authFail s p
  else
    let s := if port.helloSent then s else sendHello s p
    let b := fit 948 body
    let s := setPort s p { portOf s p with peerHello := b }
    let m := proofMessage s p (helloBody s (portOf s p).draw) b false
    sendControl { s with rngCtr := s.rngCtr + 1 } p 0xF3 ((List.range 384).map (Config.identitySign m s.rngCtr))

/-- AUTH_HELLO (15 R369, R370). -/
def execAuthHello (port : Nat) (body : Bytes) (s : State) : Host.Outcome State Fault Refusal := whileAlive s (authHello port body s)

def authProof (p : Nat) (body : Bytes) (s : State) : State :=
  let port := portOf s p
  if p ≥ 24 || !numbered s || !(port.st == .auth || portUp port) || port.peerHello.isEmpty then s
  else
    let own := helloBody s port.draw
    if !pssVerify (helloModulus port.peerHello) (proofMessage s p own port.peerHello true) (body.take 384) then authFail s p
    else
      let n0 := slice own 8 32
      let n1 := slice port.peerHello 8 32
      let root := if lowerEnd s p then Config.portRoot port.draw (slice port.peerHello 40 97) n0 n1
        else Config.portRoot port.draw (slice port.peerHello 40 97) n1 n0
      if port.st = .auth then comeUp s p root else rekeyZero s p root

/-- AUTH_PROOF (15 R369 to R371). -/
def execAuthProof (port : Nat) (body : Bytes) (s : State) : Host.Outcome State Fault Refusal := whileAlive s (authProof port body s)

/-! ### Context sessions (15 R372, R373) -/

def refuseOpen (s : State) (p session cause : Nat) : State :=
  sendControl (secPortEvent s 6 p) p 0xF6 (putLe 2 session ++ putLe 2 cause ++ zeros 4)

def acceptOpen (s : State) (p session c tenant gen : Nat) (replaces : Option Nat) : State :=
  let port := portOf s p
  let k := directionKeys s p port.root (infoCtx session tenant gen)
  let s := setPort s p { port with sessions := tput port.sessions session { ctx := c, tenant := tenant, opened := true, txKey := k.1,
                                                                            rxKey := k.2, replaces := replaces } }
  sendControl s p 0xF5 (putLe 2 session ++ zeros 6)

/-- The context a peer's open is for. -/
def tenantContext (s : State) (p tenant : Nat) : Option Nat :=
  (portContexts s p).find? fun c => tenant != 0 && (ctxOf s c).tenant == tenant

/-- A session whose end's send counter has reached 2^46 may be replaced (R373). -/
def rekeyDue (k : Session) : Bool := k.txCtr ≥ 2 ^ 46 || k.rxCtr + 1 ≥ 2 ^ 46

def sessionOpen (p n tenant gen : Nat) (s : State) : State :=
  let port := portOf s p
  if p ≥ 24 || !numbered s || !portUp port || n = 0 || (tfind port.sessions n).isSome then s
  else match tenantContext s p tenant with
    | none => refuseOpen s p n St.NO_TENANT
    | some c =>
      let mine := port.sessions.filter fun e => e.1 != 0 && e.2.ctx == c
      match mine.find? fun e => e.2.opened with
      | some e =>
        if !rekeyDue e.2 || mine.any (fun x => x.2.opened && x.2.replaces.isSome && x.1 != e.1) then refuseOpen s p n St.SESSION_EXISTS
        else if port.sessions.length ≥ sessionLimit then refuseOpen s p n St.SESSION_FULL
        else acceptOpen s p n c tenant gen (some e.1)
      | none => match mine.head? with
        | some e =>
          if lowerEnd s p then refuseOpen s p n St.SESSION_EXISTS
          else
            let s := setPort s p { port with sessions := tdel port.sessions e.1 }
            acceptOpen (sendControl s p 0xF7 (putLe 2 e.1 ++ zeros 6)) p n c tenant gen none
        | none =>
          if port.sessions.length + rekeyReserve ≥ sessionLimit then refuseOpen s p n St.SESSION_FULL
          else acceptOpen s p n c tenant gen none

/-- SESSION_OPEN (15 R372, R373). -/
def execSessionOpen (port session tenant gen : Nat) (s : State) : Host.Outcome State Fault Refusal :=
  whileAlive s (sessionOpen port session tenant gen s)

/-- A session this end opened. -/
def ownSession (s : State) (p n : Nat) : Bool := n % 2 == (if lowerEnd s p then 1 else 0)

/-- Once no flit of a replaced session waits for its acknowledgement, the end that opened the new one closes the old (R373). -/
def closeReplaced (s : State) (p : Nat) : State :=
  (portOf s p).sessions.foldl (fun s e =>
    let port := portOf s p
    match tfind port.sessions e.1 with
    | none => s
    | some k => match k.replaces with
      | none => s
      | some old =>
        if !k.opened || !ownSession s p e.1 ||
            port.replay.any (fun f => match f.frame with
              | some q => q.frame.session == old
              | none => false) then s
        else
          let s := setPort s p { port with sessions := tput (tdel port.sessions old) e.1 { k with replaces := none } }
          sendControl s p 0xF7 (putLe 2 old ++ zeros 6)) s

def sessionAccept (p n : Nat) (s : State) : State :=
  let port := portOf s p
  match tfind port.sessions n with
  | none => s
  | some k =>
    if k.opened || !portUp port then s
    else closeReplaced (setPort s p { port with sessions := tput port.sessions n { k with opened := true } }) p

/-- SESSION_ACCEPT (15 R372, R373). -/
def execSessionAccept (port session : Nat) (s : State) : Host.Outcome State Fault Refusal := whileAlive s (sessionAccept port session s)

def sessionRefuse (p n : Nat) (s : State) : State :=
  let port := portOf s p
  match tfind port.sessions n with
  | none => s
  | some k => if k.opened then s else secPortEvent (setPort s p { port with sessions := tdel port.sessions n }) 6 p

/-- SESSION_REFUSE (15 R372): the cause is for the peer's record only. -/
def execSessionRefuse (port session cause : Nat) (s : State) : Host.Outcome State Fault Refusal :=
  whileAlive s (if cause < 2 ^ 16 then sessionRefuse port session s else s)

/-- The receiver zeroes both keys. -/
def sessionClose (p n : Nat) (s : State) : State :=
  let port := portOf s p
  if n = 0 then s
  else setPort s p { port with sessions := (tdel port.sessions n).map fun (e : Nat × Session) =>
                               (e.1, if e.2.replaces = some n then { e.2 with replaces := none } else e.2) }

/-- SESSION_CLOSE (15 R373). -/
def execSessionClose (port session : Nat) (s : State) : Host.Outcome State Fault Refusal := whileAlive s (sessionClose port session s)

def sessionRekey (p n : Nat) (s : State) : State :=
  let port := portOf s p
  match tfind port.sessions n with
  | none => s
  | some k =>
    if !portUp port || k.txCtr < 2 ^ 46 || !k.opened then s
    else if n = 0 then (if port.helloSent || s.sec.rng != .ok then s else sendHello s p)
    else if port.sessions.any fun e => e.2.replaces == some n then s
    else openSession s p k.ctx (some n)

/-- SESSION_REKEY (15 R373). -/
def execSessionRekey (port session : Nat) (s : State) : Host.Outcome State Fault Refusal := whileAlive s (sessionRekey port session s)

/-! ### Flits (R269 to R271, R276, R279) -/

/-- Flits up to the named one are acknowledged. -/
def ackFlits (s : State) (p ack : Nat) : State :=
  let port := portOf s p
  match port.replay.findIdx? fun f => f.seq == ack with
  | none => s
  | some i => closeReplaced (setPort s p { port with replay := port.replay.drop (i + 1) }) p

/-- Every flit after the named one is sent again, in order, with the result and credits due (R269, R270); flits of a class whose gate is closed are counted (13 R326). -/
def replayFlits (s : State) (p : Nat) : State :=
  let port := portOf s p
  let n := port.replay.length
  if n = 0 then s
  else
    let s := faultReport (countSat s (Off.PORT_REPLAY_CNT p) n) { source := 0x02, unitKind := 6, unitIndex := p }
    let s := total s fun t => { t with replays := t.replays + n }
    let s := setPort s p { port with replay := port.replay.map fun f => { f with resent := f.resent + 1 } }
    port.replay.foldl (fun s f =>
      let s := flitOut s p f.seq 0 f.payload
      if gateClosed s p f.cls then egressEvent (count s (ckey (Off.EGR_CNT_LO p) 5 f.cls) 1) p 1 f.cls else s) s

/-- Header of a frame on the wire; the body stays as it came. -/
def parseFrame (b : Bytes) : Frame :=
  { op := leAt b 0 1, flags := leAt b 1 1, tc := leAt b 2 1 % 8, hops := leAt b 3 1, combine := leAt b 6 2, dst := leAt b 8 2 % 2 ^ 14,
    src := leAt b 10 2 % 2 ^ 14, session := leAt b 12 2, rtag := leAt b 14 2, key := leAt b 16 4, size := leAt b 20 2, addr := leAt b 24 8,
    counter := leAt b 32 8 % 2 ^ 48, body := slice b 40 (b.length - 56), tag := b.drop (b.length - 16) }

/-- Operation codes that R276 assigns. -/
def opAssigned (op : Nat) : Bool :=
  [0x01, 0x02, 0x10, 0x11, 0x12, 0x13, 0x14, 0x20, 0x81, 0x82, 0x90].contains op || (0xA0 ≤ op && op ≤ 0xCF) || (0xF0 ≤ op && op ≤ 0xF7)

/-- hops of a dropped frame is shown in PORT_STATUS. Only a drop that has a flag there is an event of it (18 R450). -/
def dropFrame (s : State) (p off flags hops : Nat) : State :=
  let s := countSat s off 1
  if flags = 0 then
    let st := statusOf s (Off.PORT_STATUS p)
    statusPut s (Off.PORT_STATUS p) { st with hi := BitVec.ofNat 16 (putFld st.hi.toNat 5 5 hops) }
  else raise s (Off.PORT_STATUS p) flags [(21, 5, hops)]

/-- The frame's tag is right under a key. -/
def tagOk (key : Nat) (raw : Bytes) (f : Frame) : Bool := gcmTagOf key (gcmIv f.session f.counter) (raw.take 40) f.body == f.tag

/-- An arrived frame: its node (a node without a number takes none, R272), its session, counter and tag, and its operation are checked (R267, R276, R279); the work of a
frame that passes is a command of its own. -/
def judgeFrame (s : State) (p : Nat) (raw : Bytes) : State :=
  let f := parseFrame raw
  let port := portOf s p
  if !numbered s || f.dst ≠ nodeNum s then dropFrame s p (Off.PORT_MISROUTE_CNT p) 0 f.hops
  else if !portUp port && f.session = 0 && authOp f.op then s
  else match tfind port.sessions f.session with
    | none => dropFrame s p (Off.PORT_AUTH_FAIL p) 4 f.hops
    | some k =>
      let fresh := tagOk k.rxKey raw f
      let stale := match k.oldKey with
        | some o => tagOk o raw f
        | none => false
      if !((fresh && k.rxCtr < f.counter) || (stale && k.oldCtr < f.counter)) then dropFrame s p (Off.PORT_AUTH_FAIL p) 4 f.hops
      else
        let k := if fresh && k.rxCtr < f.counter then { k with rxCtr := f.counter, oldKey := none } else { k with oldCtr := f.counter }
        let s := setPort s p { port with sessions := tput port.sessions f.session k }
        if opAssigned f.op then s else dropFrame s p (Off.PORT_BAD_FRAME_CNT p) 0 f.hops

/-- Frames in the received bytes, in order. A unit of zeros between frames is filler (PRESUMED). -/
def takeFrames' : Nat → State → Nat → State
  | 0, s, _ => s
  | k + 1, s, p =>
    let port := portOf s p
    let b := port.rxBuf
    if b.length < 8 then s
    else if (b.take 8).all (· == 0#8) then takeFrames' k (setPort s p { port with rxBuf := b.drop 8 }) p
    else
      let n := 8 * leAt b 4 2
      if n < 56 then takeFrames' k (dropFrame (setPort s p { port with rxBuf := b.drop 8 }) p (Off.PORT_BAD_FRAME_CNT p) 0 (leAt b 3 1)) p
      else if b.length < n then s
      else
        let cls := leAt b 2 1 % 8
        let s := setPort s p { port with rxBuf := b.drop n,
                                         owed := port.owed.zipIdx.map fun x => if x.2 = cls then x.1 + cdiv n 256 else x.1 }
        takeFrames' k (judgeFrame s p (b.take n)) p

/-- What the header of a good flit carries: acknowledgement and credits. Heads that waited for credits are counted up to now. -/
def flitAcks (s : State) (p h : Nat) : State :=
  let s := if fld h 29 8 = 0 then s else accrue s p
  let port := portOf s p
  let s := setPort s p { port with txCredits := port.txCredits.zipIdx.map fun x => if x.2 = fld h 26 3 then x.1 + fld h 29 8 else x.1 }
  if fld h 24 2 = 1 then ackFlits s p (fld h 12 12)
  else if fld h 24 2 = 2 then replayFlits (ackFlits s p (fld h 12 12)) p
  else s

/-- A data flit: taken in sequence, else refused once. The result is due. -/
def dataFlit (s : State) (p seq : Nat) (payload : Bytes) : State :=
  let port := portOf s p
  if seq = port.rxSeq then
    setPort s p { port with rxSeq := (port.rxSeq + 1) % 4096, rxNak := false, ackDue := 1, rxBuf := port.rxBuf ++ payload }
  else if port.rxNak then s
  else if (port.rxSeq + 4096 - seq) % 4096 ≤ 2048 then setPort s p { port with ackDue := 1 }
  else setPort s p { port with rxNak := true, ackDue := 2 }

/-- A result that is due leaves in the header of the next data flit, or at once in an idle flit where the port has no frame to start
(R269). -/
def answerFlit (s : State) (p : Nat) : State :=
  if (List.range 8).any fun c => (headReady s p c).isSome then s else sendDue s p

/-- Codewords that FEC corrected are counted, and no record is made (16 R387). -/
def fecCorrected (s : State) (p n : Nat) : State :=
  if n = 0 then s else faultReport (countSat s (Off.PORT_FEC_CORR_CNT p) n) { source := 0x02, unitKind := 6, unitIndex := p }

def flitReceive (p : Nat) (flit : Bytes) (corrected : Nat) (s : State) : State :=
  let port := portOf s p
  if p ≥ 24 || flit.length ≠ 256 || inSafe s || !linked port then s
  else
    let s := fecCorrected s p corrected
    if leAt flit 248 8 ≠ crc64 (flit.take 248) then answerFlit (setPort s p { portOf s p with rxNak := true, ackDue := 2 }) p
    else
      let h := leAt flit 0 8
      let s := if fld h 37 3 = 0 then dataFlit s p (fld h 0 12) (slice flit 8 240) else s
      let s := takeFrames' (portOf s p).rxBuf.length (flitAcks s p h) p
      answerFlit s p

/-- FLIT_RECEIVE (R269 to R271, R276, R279). -/
def execFlitReceive (port : Nat) (flit : Bytes) (corrected : Nat) (s : State) : Host.Outcome State Fault Refusal :=
  whileAlive s (flitReceive port flit corrected s)

def replayTimeout (p : Nat) (s : State) : State :=
  let port := portOf s p
  if p < 24 && (port.replay.any (fun f => 8 ≤ f.resent) || replayFull s p) then startRetrain s p 0 else s

/-- REPLAY_TIMEOUT (R270, R272). -/
def execReplayTimeout (port : Nat) (s : State) : Host.Outcome State Fault Refusal := whileAlive s (replayTimeout port s)

end Sys2Proof.Machine
end

