-- ==== Sys2Proof/Machine/Fabric.lean ====
section
/-! DEFINITION. Loads, stores and atomics: the checks and effects at the target, responses at the requester, timeouts, quiesce,
and the fabric command registers (11 R274 to R289; 13 R330, R331; 16 R392). -/
namespace Sys2Proof.Machine
open Sys2Proof

/-! ### Regions (R280; 12 R301) -/

/-- Entries of the region table: none before its base is set. -/
def regionCount (s : State) : Nat :=
  if rf s Off.QPE_REGION_BASE 0 32 = 0xFFFFFFFF then 0 else min (2 ^ 20) (rf s Off.QPE_REGION_COUNT 0 21)

def keyIndex (key : Nat) : Nat := key % 2 ^ 20
def keyGen (key : Nat) : Nat := key / 2 ^ 20 % 4096

/-! ### Checks at the target (R281) -/

/-- The context a frame's session is bound to on an UP port of a node with a number (R272). -/
def frameCtx (s : State) (p : Nat) (f : Frame) : Option Nat :=
  let port := portOf s p
  if !numbered s || !portUp port || f.session = 0 then none else (tfind port.sessions f.session).map (·.ctx)

def isAtomic (op : Nat) : Bool := 0x10 ≤ op && op ≤ 0x14

/-- Bytes an access touches; an atomic acts on one word. -/
def accessSize (f : Frame) : Nat := if isAtomic f.op then 8 else f.size

/-- Bit of the right an operation needs: READ, WRITE, ATOMIC. -/
def needRight (op : Nat) : Nat := if op = 1 then 0 else if op = 2 then 1 else 2

/-- Byte offset in frame space that a global address names under an entry (R274). -/
def frameOffset (e : RegEnt) (addr : Nat) : Nat := if fld addr 62 2 = 1 then e.base + addr % 2 ^ 48 else addr % 2 ^ 48

/-- MEMORY or REGION space; in MEMORY space offset bits 47 and 46 are zero and the frame exists (R274). -/
def addrSpaceOk (s : State) (addr : Nat) : Bool :=
  if fld addr 62 2 = 0 then fld addr 46 2 == 0 && pfnOk s (addr % 2 ^ 46 / 16384) else fld addr 62 2 == 1

/-- Operations that may be combined (R283). -/
def combines (op : Nat) : Bool := [0x01, 0x10, 0x13, 0x14].contains op

/-- Size and alignment (R277). -/
def alignOk (f : Frame) (off : Nat) : Bool :=
  off % 8 == 0 && (isAtomic f.op || (8 ≤ f.size && f.size ≤ 4096 && f.size % 8 == 0 && off % 4096 + f.size ≤ 4096))

/-- Checks 2 to 6 under an entry, for an operation's right (R281; 12 R298, R299). -/
def regionCheck (e : RegEnt) (gen ctx right size addr : Nat) (listed aligned : Bool) : Option Nat :=
  if !listed || e.st = .free || e.gen ≠ gen || e.ctx ≠ ctx then some St.KEY_INVALID
  else if e.st = .revoking then some St.REVOKED
  else if !bitOf e.rights right then some St.KEY_RIGHTS
  else if frameOffset e addr < e.base || e.base + e.len < frameOffset e addr + size then some St.KEY_BOUNDS
  else if !aligned then some St.ACCESS_ALIGN
  else none

/-- The first check that fails, in order. -/
def targetCheck (s : State) (c : Nat) (f : Frame) : Option Nat :=
  let e := regionEnt s (keyIndex f.key)
  if !addrSpaceOk s f.addr then some St.ADDR_SPACE
  else match regionCheck e (keyGen f.key) c (needRight f.op) (accessSize f) f.addr (keyIndex f.key < regionCount s)
      (alignOk f (frameOffset e f.addr)) with
    | some st => some st
    | none => if f.combine > 1 && !combines f.op then some St.COMBINE_INVALID else none

/-! ### Effects at the target (R281, R282) -/

/-- The word an atomic leaves (R282): operand, and the new value of CMP_SWAP. -/
def atomicNew (op : Nat) (signed : Bool) (old a b : BitVec 64) : BitVec 64 :=
  let less := if signed then a.slt old else a.ult old
  let more := if signed then old.slt a else old.ult a
  if op = 0x10 then old + a
  else if op = 0x11 then a
  else if op = 0x12 then (if old = a then b else old)
  else if op = 0x13 then (if less then a else old)
  else if more then a else old

/-- A response of an operation (R276, R283): a combined request is answered once, with its count. `region` is the entry whose in-flight
count a request that passed has raised: it falls when the response has left (R281), at once where the response has no route. -/
def respond (s : State) (c : Nat) (f : Frame) (op status : Nat) (body : Bytes) (region : Option Nat := none) : State :=
  match sendFrame s c { op := op, tc := 2, flags := if f.combine > 1 then 2 else 0, combine := f.combine, dst := f.src, rtag := f.rtag,
                        key := status, size := f.size, body := body } region with
  | some s' => s'
  | none => leaveRegion (raise s Off.FAB_STATUS 4) region

/-- A request that passed is under way in its region (R281). -/
def enterRegion (s : State) (i : Nat) : State := setRegionEnt s i { regionEnt s i with inflight := (regionEnt s i).inflight + 1 }

/-- The access of a request that passed, under entry `i` for its context: a read that meets an uncorrectable error is answered
DATA_POISON, with no data and no effect; any other is done and answered. -/
def targetAccess (f : Frame) (resp i c : Nat) (ecc : MemObs) (run : State → Nat → Nat → Bytes × State) (s : State) : State :=
  let off := frameOffset (regionEnt s i) f.addr
  let t := memEvents s [off / 16384] ecc
  if (lostFrame s [off / 16384] ecc).isSome then respond t c f resp St.DATA_POISON [] (some i)
  else
    let r := run t c off
    respond r.2 c f resp St.OK r.1 (some i)

/-- A request of a context's session arrives: a fenced node answers TARGET_FENCED (16 R392), the policer may refuse it (13
R331), the checks may; what passes is in flight in its region, and done unless the controller holds it (07 R168, R175), `c` being
the command that carries it out later. -/
def target (cmd : Instr) (p : Nat) (f : Frame) (op resp : Nat) (ecc : MemObs) (run : State → Nat → Nat → Bytes × State) (s : State) : State :=
  let f := { f with op := op }
  let i := keyIndex f.key
  if s.osier.resuming then targetAccess f resp i (regionEnt s i).ctx ecc run s
  else match frameCtx s p f with
  | none => s
  | some c =>
    if s.fault.st = .fenced then respond s c f resp St.TARGET_FENCED []
    else
      let q := police s c f
      if !q.1 then respond q.2 c f resp St.POLICED []
      else match targetCheck q.2 c f with
        | some st => respond (if st = St.KEY_INVALID then raise q.2 Off.FAB_STATUS 8 else q.2) c f resp st []
        | none => heldOr (enterRegion q.2 i) [frameOffset (regionEnt q.2 i) f.addr / 16384] cmd (targetAccess f resp i c ecc run)

def load (p : Nat) (f : Frame) (ecc : MemObs) (s : State) : State := target (.load p f ecc) p f 0x01 0x81 ecc (fun s c off => (spaceRead s c off f.size, s)) s

/-- LOAD (R277, R281, R283; 13 R330). -/
def execLoad (port : Nat) (f : Frame) (ecc : MemObs) (s : State) : Host.Outcome State Fault Refusal :=
  whileAlive s (load port f ecc s)

def store (p : Nat) (f : Frame) (s : State) : State :=
  target (.store p f) p f 0x02 0x82 [] (fun s c off => ([], spaceWrite s c off (fit f.size f.body))) s

/-- STORE (R277, R281; 13 R330). -/
def execStore (port : Nat) (f : Frame) (s : State) : Host.Outcome State Fault Refusal := whileAlive s (store port f s)

/-- An atomic on one word: the old word is answered. -/
def atomic (cmd : Instr) (p : Nat) (f : Frame) (op : Nat) (ecc : MemObs) (s : State) : State :=
  target cmd p f op 0x90 ecc (fun s c off =>
    let old := BitVec.ofNat 64 (le (spaceRead s c off 8))
    let w := atomicNew op (frameFlag f 2) old (BitVec.ofNat 64 (leAt f.body 0 8)) (BitVec.ofNat 64 (leAt f.body 8 8))
    (putLe 8 old.toNat, spaceWrite s c off (putLe 8 w.toNat))) s

def fetchAdd (p : Nat) (f : Frame) (ecc : MemObs) (s : State) : State := atomic (.fetchAdd p f ecc) p f 0x10 ecc s

/-- FETCH_ADD (R281 to R283). -/
def execFetchAdd (port : Nat) (f : Frame) (ecc : MemObs) (s : State) : Host.Outcome State Fault Refusal :=
  whileAlive s (fetchAdd port f ecc s)

def swap (p : Nat) (f : Frame) (ecc : MemObs) (s : State) : State := atomic (.swap p f ecc) p f 0x11 ecc s

/-- SWAP (R281, R282). -/
def execSwap (port : Nat) (f : Frame) (ecc : MemObs) (s : State) : Host.Outcome State Fault Refusal :=
  whileAlive s (swap port f ecc s)

def cmpSwap (p : Nat) (f : Frame) (ecc : MemObs) (s : State) : State := atomic (.cmpSwap p f ecc) p f 0x12 ecc s

/-- CMP_SWAP (R281, R282). -/
def execCmpSwap (port : Nat) (f : Frame) (ecc : MemObs) (s : State) : Host.Outcome State Fault Refusal :=
  whileAlive s (cmpSwap port f ecc s)

def fetchMin (p : Nat) (f : Frame) (ecc : MemObs) (s : State) : State := atomic (.fetchMin p f ecc) p f 0x13 ecc s

/-- FETCH_MIN (R281 to R283). -/
def execFetchMin (port : Nat) (f : Frame) (ecc : MemObs) (s : State) : Host.Outcome State Fault Refusal :=
  whileAlive s (fetchMin port f ecc s)

def fetchMax (p : Nat) (f : Frame) (ecc : MemObs) (s : State) : State := atomic (.fetchMax p f ecc) p f 0x14 ecc s

/-- FETCH_MAX (R281 to R283). -/
def execFetchMax (port : Nat) (f : Frame) (ecc : MemObs) (s : State) : Host.Outcome State Fault Refusal :=
  whileAlive s (fetchMax port f ecc s)

/-! ### FAB_CMD (R286 to R289) -/

/-- Fabric operation of a FAB_CMD op. -/
def fabOpcode (op : Nat) : Nat := [0x01, 0x02, 0x10, 0x11, 0x12, 0x13, 0x14].getD op 0

/-- FAB_CMD ends. -/
def fabEnd (s : State) (status : Nat) : State := { s with fab := { s.fab with status := status, busy := false } }

/-- The request FAB_CMD's registers spell. -/
def fabFrame (s : State) : Frame :=
  let w := regWord s Off.FAB_CMD
  let a := rpair s Off.FAB_CMD_ADDR_LO
  let data := putLe 8 (rpair s Off.FAB_CMD_DATA_LO)
  let op := fabOpcode (fld w 1 3)
  { op := op, flags := b2n (bitOf w 5) + 4 * b2n (bitOf w 4 && 0x13 ≤ op), tc := 2, dst := fld a 48 14, key := regWord s Off.FAB_CMD_KEY,
    size := 8, addr := a, body := if op = 0x01 then [] else if op = 0x12 then putLe 8 (rpair s Off.FAB_CMD_CMP_LO) ++ data else data }

/-- Issue the command of the registers; it waits while no tag is free. -/
def fabIssue (s : State) : State :=
  let w := regWord s Off.FAB_CMD
  let c := fld w 16 12
  let f := fabFrame s
  if bitOf w 5 && !combines f.op then fabEnd s St.COMBINE_INVALID
  else if (ctxOf s c).quiesced then fabEnd s St.CONTEXT_QUIESCED
  else match issueReq s c .fabCmd f with
    | some s' => s'
    | none => raise (fabEnd s St.NO_ROUTE) Off.FAB_STATUS 4

/-- Writing FAB_CMD with go: ignored while busy. -/
def fabCmd (m : Master) (op ctx : Nat) (signed : Option Bool) (combinable : Bool) (s : State) : State :=
  let puts := [(0, 1, 1), (1, 3, op), (5, 1, b2n combinable), (16, 12, ctx)] ++ (match signed with
    | some b => [(4, 1, b2n b)]
    | none => [])
  regCmd s m Off.FAB_CMD puts fun s =>
    if s.fab.busy then s
    else fabIssue { s with fab := { s.fab with busy := true, poison := false, combined := false } }

/-- FAB_CMD_LOAD (R286, R288). -/
def execFabCmdLoad (m : Master) (ctx : Nat) (combinable : Bool) (s : State) : Host.Outcome State Fault Refusal :=
  .next (fabCmd m 0 ctx none combinable s)

/-- FAB_CMD_STORE (R286, R288). -/
def execFabCmdStore (m : Master) (ctx : Nat) (combinable : Bool) (s : State) : Host.Outcome State Fault Refusal :=
  .next (fabCmd m 1 ctx none combinable s)

/-- FAB_CMD_FETCH_ADD (R282, R288). -/
def execFabCmdFetchAdd (m : Master) (ctx : Nat) (combinable : Bool) (s : State) : Host.Outcome State Fault Refusal :=
  .next (fabCmd m 2 ctx none combinable s)

/-- FAB_CMD_SWAP (R282, R288). -/
def execFabCmdSwap (m : Master) (ctx : Nat) (combinable : Bool) (s : State) : Host.Outcome State Fault Refusal :=
  .next (fabCmd m 3 ctx none combinable s)

/-- FAB_CMD_CMP_SWAP (R282, R288). -/
def execFabCmdCmpSwap (m : Master) (ctx : Nat) (combinable : Bool) (s : State) : Host.Outcome State Fault Refusal :=
  .next (fabCmd m 4 ctx none combinable s)

/-- FAB_CMD_FETCH_MIN (R282, R288). -/
def execFabCmdFetchMin (m : Master) (ctx : Nat) (signed combinable : Bool) (s : State) : Host.Outcome State Fault Refusal :=
  .next (fabCmd m 5 ctx (some signed) combinable s)

/-- FAB_CMD_FETCH_MAX (R282, R288). -/
def execFabCmdFetchMax (m : Master) (ctx : Nat) (signed combinable : Bool) (s : State) : Host.Outcome State Fault Refusal :=
  .next (fabCmd m 6 ctx (some signed) combinable s)

/-! ### Responses and timeouts at the requester (R284 to R287) -/

def dropTag (s : State) (tag : Nat) : State := { s with fab := { s.fab with reqs := tdel s.fab.reqs tag } }

/-- Sources that waited for a free tag or for the end of a quiesce go on. -/
def fabResume (s : State) : State :=
  let s := if s.fab.busy && !(s.fab.reqs.any fun e => e.2.src == .fabCmd && !e.2.held) then fabIssue s else s
  resumeMerges s

/-- A tag becomes free: only a full table can have made a source wait. -/
def freedTag (s : State) (full : Bool) : State := if full then fabResume s else s

/-- A request ends with a target that is dead: no answer, or TARGET_FENCED (R286). -/
def deadTarget (s : State) (r : Req) (status : Nat) : State :=
  let was := (ctxOf s r.ctx).quiesced
  let orphan := match r.src with
    | .fabCmd => false
    | .rim id => (findStep s id).isNone
  if was && orphan then s
  else
    let s := setCtx s r.ctx { ctxOf s r.ctx with quiesced := true }
    let s := raise { s with fab := { s.fab with deadNode := r.target, deadCtx := r.ctx } } Off.FAB_STATUS 1
    match r.src with
    | .fabCmd =>
      let s := if r.op = 2 then fabEnd s status
        else { s with fab := { s.fab with status := status, busy := false, poison := true, rdata := BitVec.allOnes 64 } }
      faultReport s { source := 0x14, ctx := r.ctx, status := status, detail := r.addr, peer := r.target }
    | .rim id => match findStep s id with
      | some t => stepFault s t 0x14 status r.addr r.target
      | none => faultReport s { source := 0x14, ctx := r.ctx, status := status, detail := r.addr, peer := r.target }

/-- A request ends with its response. -/
def endRequest (s : State) (r : Req) (f : Frame) : State :=
  let st := f.key % 2 ^ 16
  match r.src with
  | .fabCmd =>
    let s := { s with fab := { s.fab with combined := frameFlag f 1,
                                          rdata := if st = 0 && r.op != 2 then BitVec.ofNat 64 (leAt f.body 0 8) else s.fab.rdata } }
    fabEnd s st
  | .rim id => match findStep s id with
    | some t => if st = 0 || t.status ≠ 0 then s else putStep s { t with status := st }
    | none => s

/-- A response that finds no request (R286). -/
def lateResponse (s : State) : State := raise { s with fab := { s.fab with late := sat32 (s.fab.late + 1) } } Off.FAB_STATUS 2

/-- A response of an operation reaches the requester, which matches it by its tag. One stamped with another epoch than its unit has now
is dropped and counted (16 R409). -/
def response (fits : Nat → Bool) (f : Frame) (s : State) : State :=
  match tfind s.fab.reqs f.rtag with
  | none => lateResponse s
  | some r =>
    if r.held || !fits r.op then lateResponse s
    else
      let full := (freeTag s).isNone
      let s := dropTag s f.rtag
      if r.unit.any fun u => epochOf s u.1 u.2 != r.epoch then freedTag (count s (ckey Off.FAULT_CNT_LO 5 0) 1) full
      else freedTag (if f.key % 2 ^ 16 = St.TARGET_FENCED then deadTarget s r St.TARGET_FENCED else endRequest s r f) full

/-- LOAD_RESP (R284, R286). -/
def execLoadResp (f : Frame) (s : State) : Host.Outcome State Fault Refusal := whileAlive s (response (· == 0x01) f s)

/-- STORE_RESP (R285, R286). -/
def execStoreResp (f : Frame) (s : State) : Host.Outcome State Fault Refusal := whileAlive s (response (· == 0x02) f s)

/-- ATOMIC_RESP (R284, R286). -/
def execAtomicResp (f : Frame) (s : State) : Host.Outcome State Fault Refusal := whileAlive s (response isAtomic f s)

def requestTimeout (tag : Nat) (s : State) : State :=
  match tfind s.fab.reqs tag with
  | none => s
  | some r =>
    if r.held then s
    else deadTarget { s with fab := { s.fab with reqs := tput s.fab.reqs tag { r with held := true } } } r St.TARGET_TIMEOUT

/-- REQUEST_TIMEOUT (R286): the tag stays held. -/
def execRequestTimeout (rtag : Nat) (s : State) : Host.Outcome State Fault Refusal := whileAlive s (requestTimeout rtag s)

def rtagHoldExpiry (tag : Nat) (s : State) : State :=
  match tfind s.fab.reqs tag with
  | none => s
  | some r => if r.held then freedTag (dropTag s tag) (freeTag s).isNone else s

/-- RTAG_HOLD_EXPIRY (R286). -/
def execRtagHoldExpiry (rtag : Nat) (s : State) : Host.Outcome State Fault Refusal := whileAlive s (rtagHoldExpiry rtag s)

/-- FAB_QUIESCE.release for a context: ignored while it has a request outstanding (R287). -/
def releaseQuiesce (s : State) (c : Nat) : State :=
  let x := ctxOf s c
  if !x.quiesced || outstanding s (fun r => r.ctx == c) > 0 then s else fabResume (setCtx s c { x with quiesced := false })

def quiesceRelease (m : Master) (s : State) : State :=
  regCmd s m Off.FAB_QUIESCE [(1, 1, 1)] fun s =>
    let k := keyOf s m Off.FAB_QUIESCE
    releaseQuiesce (regPut s k (putFld (regWord s k) 1 1 0)) (selNum s m Off.FAB_QUIESCE_SEL)

/-- QUIESCE_RELEASE (R287). -/
def execQuiesceRelease (m : Master) (s : State) : Host.Outcome State Fault Refusal := .next (quiesceRelease m s)

end Sys2Proof.Machine
end

