-- ==== Sys2Proof/Machine/Qpe.lean ====
section
/-! DEFINITION. Page transfer queues: queue pairs, regions, work requests, packets, acknowledgement, congestion control, arrivals for
contexts that are not cached (12 R290 to R313; 06 R165; 13 R330, R331; 16 R392). -/
namespace Sys2Proof.Machine
open Sys2Proof

/-! ### Sequence numbers and the context cache (R292, R293) -/

def psnAdd (a n : Nat) : Nat := (a + n) % 2 ^ 24

/-- PSN `a` is later than `b` (R292). -/
def psnLater (a b : Nat) : Bool :=
  let d := (a + 2 ^ 24 - b % 2 ^ 24) % 2 ^ 24
  1 ≤ d && d < 2 ^ 23

def qpEvent (s : State) (bit : Nat) : State := raise s Off.QPE_STATUS (2 ^ bit)
/-- An event that names a port. -/
def qpPortEvent (s : State) (bit p : Nat) : State := raise s Off.QPE_STATUS (2 ^ bit) [(24, 5, p)]

def qpeCount (s : State) (ev n : Nat) : State := count s (ckey Off.QPE_CNT_LO ev 0) n

def qpeOn (s : State) : Bool := rbit s Off.QPE_CTRL 0 && !inSafe s

/-- The QPN exists (R290). -/
def qpnOk (s : State) (n : Nat) : Bool := n != 0 && n < rf s Off.QPE_CTX_LIMIT 0 24

def cacheSize : Nat := 65536

def isCached (s : State) (n : Nat) : Bool := s.qpe.cache.contains n

/-- The destination QPN of a packet. -/
def pktQpn (f : Frame) : Nat := leAt f.body 0 4 % 2 ^ 24

/-- Packets of a QP held on any port. -/
def heldFor (s : State) (n : Nat) : Bool := s.qpe.hold.any fun x => pktQpn x.frame == n

/-- Packets held on a port. -/
def heldOn (s : State) (p : Nat) : List HeldPkt := s.qpe.hold.filter fun x => x.port == p

/-- Bytes held on a port. -/
def holdBytes (s : State) (p : Nat) : Nat := ((heldOn s p).map fun x => frameLen x.frame).sum

/-- The state codes of R292. -/
def qpCode : QpState → Nat
  | .free => 0 | .ready => 1 | .error => 2 | .draining => 3

/-- Cycle at which the oldest unacknowledged packet times out: the timeout doubles for each retry used (R306); 0 where nothing is
unacknowledged (DESIGN CHOICE). -/
def tRetx (q : Qp) : Nat := match q.unacked with
  | p :: _ => p.sentAt + q.timeout * 800 * 2 ^ q.retries
  | [] => 0

/-- The 256-byte context of a QP (R292). -/
def Qp.bytes (q : Qp) (n : Nat) : Bytes :=
  putLe 4 (n + qpCode q.st * 2 ^ 24 + b2n q.domain * 2 ^ 27 + q.tc * 2 ^ 28) ++ putLe 2 q.ctx ++ putLe 2 q.pd ++ putLe 2 q.peer ++ zeros 2 ++
    putLe 4 q.peerQpn ++ putLe 4 q.sqPfn ++ putLe 4 (q.sqHead + 256 * q.sqTail) ++ putLe 4 q.sendPsn ++ putLe 4 q.unaPsn ++
    putLe 4 q.recvPsn ++ putLe 4 q.recvMsg ++ putLe 4 q.window ++ putLe 4 q.incAcc ++ putLe 4 q.srtt ++ putLe 4 q.target ++
    putLe 8 q.lastDec ++ putLe 4 q.inflight ++ putLe 2 q.timeout ++ putLe 1 (q.retryMax + 16 * q.retries) ++
    putLe 1 (q.busyMax + 16 * q.busyUsed) ++ putLe 2 (q.gain + 256 * q.maxMd) ++ putLe 2 (q.ai / 64) ++ putLe 4 q.winMax ++
    putLe 8 (tRetx q) ++ putLe 4 (q.recvRegion.getD 0xFFFFFFFF) ++ putLe 4 q.baseRtt ++ putLe 4 q.baseRun ++ putLe 4 q.basePeriod ++
    putLe 8 q.baseStart ++ zeros 144

/-- QPE_CTX_BASE as a host address (R312). -/
def ctxHostBase (s : State) : Nat := rpair s Off.QPE_CTX_BASE_LO / 4096 * 4096

/-- Bytes written to the backing store: board frames, or host memory with PF0's requester ID (R293). -/
def backWrite (s : State) (off : Nat) (bs : Bytes) : State :=
  if rbit s Off.QPE_CTRL 1 then emitAs s 0 (.hostWrite 0 (ctxHostBase s + off) bs false)
  else nodeWrite s (rf s Off.QPE_CTX_BASE_LO 0 32) off bs

/-- A context that changed is written back (R293). Nothing but the node writes the backing store, so what a fetch brings is what the
node wrote. -/
def writeBack (s : State) (n : Nat) : State :=
  let q := qpOf s n
  let b := q.bytes n
  if b = q.saved then s else setQp (backWrite s (256 * n) b) n { q with saved := b }

/-- R293's grounds for keeping a context on chip. -/
def pinned' (s : State) (n : Nat) : Bool :=
  let q := qpOf s n
  !q.sq.isEmpty || !q.sqWait.isEmpty || !q.unacked.isEmpty || q.recvMsg != 0 || heldFor s n

/-- Bring a context on chip: it becomes the most recent; the least recent one that is not pinned makes room. None where every
cached context is pinned. -/
def cacheIn (s : State) (n : Nat) : Option State :=
  let c := s.qpe.cache.filter (· != n)
  if c.length < cacheSize then some { s with qpe := { s.qpe with cache := n :: c } }
  else match c.reverse.find? fun k => !pinned' s k with
    | none => none
    | some k =>
      let s := writeBack (qpeCount s 6 1) k
      some { s with qpe := { s.qpe with cache := n :: c.filter (· != k) } }

def useContext (s : State) (n : Nat) : State := (cacheIn s n).getD s

/-- Start a fetch of a context. -/
def startFetch (s : State) (n : Nat) : State :=
  let q := qpOf s n
  if q.fetching then s else qpeCount (setQp s n { q with fetching := true }) 5 1

/-! ### Commands on queue pairs (R290, R307, R311, R312) -/

def clampKib (lo hi v : Nat) : Nat := min hi (max lo v)

/-- A QP as CREATE sets it up from the registers. -/
def createQp (s : State) : Qp :=
  let o := regWord s Off.QPE_QP_OWNER
  let tc := fld o 29 3
  let f := regWord s Off.QPE_CC_FACTORS
  let w := regWord s Off.QPE_CC_WINDOW
  let r := regWord s Off.QPE_RETRY
  let winMax := 1024 * clampKib 4 65536 (fld w 16 16)
  { st := .ready, domain := bitOf o 28, tc := if tc < 3 then 3 else tc, ctx := fld o 0 12, pd := fld o 16 12,
    peer := rf s Off.QPE_QP_PEER 0 14, peerQpn := rf s Off.QPE_QP_PEER_QPN 0 24, sqPfn := regWord s Off.QPE_QP_SQ,
    window := min winMax (1024 * max 4 (fld w 0 16)), target := 1024 * clampKib 4 16384 (rf s Off.QPE_CC_TARGET 0 16),
    timeout := max 1 (fld r 0 16), retryMax := fld r 16 3, busyMax := fld r 20 4, gain := fld f 0 8, maxMd := fld f 8 8,
    ai := 64 * max 1 (fld f 16 16), winMax := winMax, basePeriod := 800000 * clampKib 1 1000 (rf s Off.QPE_CC_BASE 0 10),
    baseStart := s.clk.counter }

def qpStatus (s : State) (st : Nat) : State := { s with qpe := { s.qpe with cmdStatus := st } }

/-- A command on the selected QP. -/
def qpCmd (m : Master) (op : Nat) (run : State → Nat → State) (s : State) : State :=
  regCmd s m Off.QPE_QP_CMD [(0, 1, 1), (1, 2, op)] fun s =>
    let n := selNum s m Off.QPE_QP_SEL
    if !qpnOk s n then qpStatus s St.QP_INVALID else run s n

def qpCreate (m : Master) (s : State) : State :=
  qpCmd m 0 (fun s n =>
    if (qpOf s n).st ≠ .free then qpStatus s St.QP_STATE
    else qpStatus (useContext (setQp s n (createQp s)) n) St.OK) s

/-- QP_CREATE (R290, R311, R312). -/
def execQpCreate (m : Master) (s : State) : Host.Outcome State Fault Refusal := .next (qpCreate m s)

/-- RESET keeps what CREATE set and the congestion state, and restarts the PSNs at 0 (R307). -/
def resetQp (q : Qp) : Qp :=
  { q with st := .ready, sq := [], sqWait := [], sqHead := 0, sqTail := 0, sendPsn := 0, unaPsn := 0, recvPsn := 0, recvMsg := 0, recvBuf := [],
           recvRegion := none, msgSeq := 0, inflight := 0, retries := 0, busyUsed := 0, unacked := [], waiting := none, nakSent := false,
           dropTo := none, sinceAck := 0, echo := 0 }

def qpReset (m : Master) (s : State) : State :=
  qpCmd m 1 (fun s n =>
    let q := qpOf s n
    if q.st ≠ .error then qpStatus s St.QP_STATE else qpStatus (setQp s n (resetQp q)) St.OK) s

/-- QP_RESET (R307). -/
def execQpReset (m : Master) (s : State) : Host.Outcome State Fault Refusal := .next (qpReset m s)

/-- The region count a message holds falls (R300). -/
def dropRegionUse (s : State) (q : Qp) : State := leaveRegion s q.recvRegion

/-! ### The end of a work request (R291, R294) -/

/-- The wr_id of the end marker of a rebuild send of a group (16 R399). -/
def rebuildId (g : Nat) : Nat := 2 ^ 49 + g

/-- The shards of a query that went out on a QP for an index count as missing. -/
def missShard (s : State) (id qpn : Nat) (w : Wr) : State :=
  match s.coma.queries.find? fun q => q.id == some id && !q.shards.isEmpty with
  | none => s
  | some q =>
    (q.shards.zipIdx.filter fun e => e.1.2.2.1 == qpn && e.1.2.1 == leAt w.body 8 2).foldl (fun s e => missAt s q.q e.2) s

/-- A handoff's page or offer fails: before the offer is sent the stream returns to OWNED at its old counter, and the PAGE_MOVE
completes HANDOFF_REFUSED with the cause (R291). -/
def pushFailed (s : State) (id status : Nat) : State :=
  match findStep s id with
  | none => s
  | some t => match streamAt s t.desc.stream with
    | none => s
    | some x =>
      if x.st = .draining && x.handoffId == some id then undrain s t status else s

/-- What the engine that posted a work request does at its end. `page` is what a PAGE_READ brought. -/
def wrEnded (s : State) (qpn : Nat) (w : Wr) (status : Nat) : State :=
  let q := qpOf s qpn
  if w.posted then { s with qpe := { s.qpe with postStatus := status, postBusy := false } }
  else if rebuildId 0 ≤ w.wrId then
    let g := w.wrId - rebuildId 0
    if (grpOf s g).st = .sending then setGrp s g { grpOf s g with st := .active } else s
  else match findStep s w.wrId with
    | none => s
    | some t =>
      if w.op = 2 && w.msgType = 0x20 then
        (if status = 0 then putStep s { t with deltas := t.deltas - 1 } else stepFault s t 0x15 status 0 q.peer)
      else if status = 0 then s
      else if w.op = 3 || (w.op = 2 && w.msgType = 1) then pushFailed s w.wrId status
      else if w.op = 4 || (w.op = 2 && w.msgType = 0x30) then freeStepFault s t status w.remote q.peer
      else if w.op = 2 && w.msgType = 0x10 then missShard s w.wrId qpn w
      else s

/-- The work request at the head of a send queue completes. -/
def completeHead (s : State) (qpn status : Nat) : State :=
  let q := qpOf s qpn
  match q.sq with
  | [] => s
  | w :: rest => nextWr (wrEnded (setQp s qpn { q with sq := rest, sqHead := (q.sqHead + 1) % sqSize }) qpn w status) qpn

/-- Every work request left completes QP_FLUSHED. -/
def flushQueue : Nat → State → Nat → State
  | 0, s, _ => s
  | k + 1, s, qpn => if (qpOf s qpn).sq.isEmpty then s else flushQueue k (completeHead s qpn St.QP_FLUSHED) qpn

/-- The QP enters ERROR: nothing of it is in flight any more, its region use ends, its queue is flushed (R290, R300, R307). -/
def enterError (s : State) (qpn : Nat) : State :=
  let q := qpOf s qpn
  let s := dropRegionUse s q
  let s := setQp s qpn { q with st := .error, unacked := [], inflight := 0, waiting := none, recvRegion := none, recvMsg := 0, recvBuf := [],
                                sinceAck := 0, dropTo := none, nakSent := false }
  flushQueue (q.sq.length + q.sqWait.length) s qpn

/-- The QP becomes FREE: its queue is flushed, packets held for it are dropped, and the backing store no longer shows it in another
state. -/
def freeQp (s : State) (qpn : Nat) : State :=
  let q := qpOf s qpn
  let s := dropRegionUse s q
  let s := flushQueue (q.sq.length + q.sqWait.length) s qpn
  let s := if q.saved.isEmpty then s else backWrite s (256 * qpn) (zeros 256)
  let s := setQp s qpn {}
  { s with qpe := { s.qpe with cache := s.qpe.cache.filter (· != qpn), hold := s.qpe.hold.filter fun x => pktQpn x.frame != qpn } }

def qpDestroy (m : Master) (s : State) : State :=
  qpCmd m 2 (fun s n =>
    let q := qpOf s n
    if q.st = .ready then qpStatus (setQp s n { q with st := .draining }) St.OK
    else if q.st = .error then qpStatus (freeQp s n) St.OK
    else qpStatus s St.QP_STATE) s

/-- QP_DESTROY (R290). -/
def execQpDestroy (m : Master) (s : State) : Host.Outcome State Fault Refusal := .next (qpDestroy m s)

def qpDrained (n : Nat) (s : State) : State :=
  let q := qpOf s n
  if q.st = .draining && q.unacked.isEmpty && q.recvMsg = 0 then freeQp s n else s

/-- QP_DRAINED (R290). -/
def execQpDrained (qpn : Nat) (s : State) : Host.Outcome State Fault Refusal := whileAlive s (qpDrained qpn s)

/-! ### Regions (R301 to R303) -/

/-- First frame after the run of existing frames that a frame lies in (03 R50). -/
def runEnd (s : State) (pfn : Nat) : Nat :=
  if isHbm pfn then stackOf pfn * 2 ^ 22 + stackFrames (stackOf pfn)
  else 0x10000000 + channelOf pfn * 2 ^ 25 + channelFrames s (channelOf pfn)

/-- Every frame of [lo, hi] exists. -/
def rangeOk (s : State) (hi : Nat) : Nat → Nat → Bool
  | 0, _ => false
  | k + 1, lo => pfnOk s lo && (hi < runEnd s lo || rangeOk s hi k (runEnd s lo))

/-- QPE_REG_BASE or QPE_REG_LEN: 48 bits, a multiple of 4 KiB. -/
def regPair48 (s : State) (lo : Nat) : Nat := rpair s lo % 2 ^ 48 / 4096 * 4096

/-- A region entry (R301). -/
def RegEnt.bytes (e : RegEnt) : Bytes :=
  putLe 8 e.base ++ putLe 8 e.len ++ putLe 2 e.ctx ++ putLe 2 e.pd ++ putLe 2 e.gen ++
    putLe 1 ((match e.st with
      | .free => 0 | .valid => 1 | .revoking => 2) + e.rights % 8 * 4) ++ zeros 1 ++ putLe 4 e.inflight ++ zeros 4

/-- A registration command writes an entry, into the region table as well (R301). The node's own entries count where the two differ:
the spec does not say what a base moved under entries in use does (DESIGN CHOICE). -/
def commitRegion (s : State) (i : Nat) (e : RegEnt) : State :=
  setRegionEnt (nodeWrite s (rf s Off.QPE_REGION_BASE 0 32) (32 * i) e.bytes) i e

def regStatus (s : State) (st : Nat) : State := { s with qpe := { s.qpe with regStatus := st } }

def register (m : Master) (s : State) : State :=
  regCmd s m Off.QPE_REG_CMD [(0, 1, 1), (1, 1, 0)] fun s =>
    let base := regPair48 s Off.QPE_REG_BASE_LO
    let len := regPair48 s Off.QPE_REG_LEN_LO
    match lowest (regionCount s) fun i => (regionEnt s i).st == .free with
    | none => regStatus s St.REGION_FULL
    | some i =>
      if len = 0 || !rangeOk s ((base + len - 1) / 16384) 64 (base / 16384) then regStatus s St.PFN_INVALID
      else
        let o := regWord s Off.QPE_REG_OWNER
        let gen := ((regionEnt s i).gen + 1) % 4096
        let s := commitRegion s i { base := base, len := len, ctx := fld o 0 12, pd := fld o 16 12, gen := gen, st := .valid, rights := fld o 28 3 }
        regStatus { s with qpe := { s.qpe with newKey := gen * 2 ^ 20 + i } } St.OK

/-- REGISTER (R280, R302). -/
def execRegister (m : Master) (s : State) : Host.Outcome State Fault Refusal := .next (register m s)

/-- The entry a key names. -/
def keyEntry (s : State) (key : Nat) : Option RegEnt :=
  if keyIndex key < regionCount s && (regionEnt s (keyIndex key)).gen = keyGen key then some (regionEnt s (keyIndex key)) else none

def revoke (m : Master) (s : State) : State :=
  regCmd s m Off.QPE_REG_CMD [(0, 1, 1), (1, 1, 1)] fun s =>
    let key := regWord s Off.QPE_REG_KEY
    match keyEntry s key with
    | none => regStatus s St.REGION_NOT_VALID
    | some e =>
      if e.st ≠ .valid then regStatus s St.REGION_NOT_VALID
      else regStatus (commitRegion s (keyIndex key) { e with st := .revoking }) St.OK

/-- REVOKE (R303). -/
def execRevoke (m : Master) (s : State) : Host.Outcome State Fault Refusal := .next (revoke m s)

/-- The entry becomes FREE; it keeps its generation. -/
def freeRegion (s : State) (i : Nat) : State := commitRegion s i { gen := (regionEnt s i).gen }

def revokeDone (i : Nat) (s : State) : State :=
  let e := regionEnt s i
  if e.st = .revoking && e.inflight = 0 then qpEvent (freeRegion s i) 4 else s

/-- REVOKE_DONE (R303). -/
def execRevokeDone (index : Nat) (s : State) : Host.Outcome State Fault Refusal := whileAlive s (revokeDone index s)

/-! ### QPE_POST (R294, R312) -/

/-- A work request from its 64 bytes. -/
def parseWr (b : Bytes) : Wr :=
  { op := leAt b 0 1, flags := leAt b 1 1, msgType := leAt b 2 2, length := leAt b 4 4, loc := leAt b 8 8, remote := leAt b 16 8,
    key := leAt b 24 4, wrId := leAt b 32 8, page := leAt b 40 8, block := leAt b 48 4 % 2 ^ 26, posted := true }

def qpePost (m : Master) (qpn : Nat) (s : State) : State :=
  regCmd s m Off.QPE_POST [(0, 1, 1), (8, 24, qpn)] fun s =>
    if s.qpe.postBusy then s
    else
      let n := qpn % 2 ^ 24
      let off := rpair s Off.QPE_POST_LO % 2 ^ 48
      let done (st : Nat) : State := { s with qpe := { s.qpe with postStatus := st } }
      if !qpnOk s n || (qpOf s n).st = .free then done St.QP_INVALID
      else if (qpOf s n).st ≠ .ready then done St.QP_STATE
      else postWr { s with qpe := { s.qpe with postBusy := true } } n (parseWr (spaceRead s nodeSlot off 64))

/-- QPE_POST (R294, R312). -/
def execQpePost (m : Master) (qpn : Nat) (s : State) : Host.Outcome State Fault Refusal := .next (qpePost m qpn s)

/-! ### Packets (R295) -/

/-- The transport header. -/
structure Tp where
  dst : Nat := 0
  first : Bool := false
  last : Bool := false
  ackNow : Bool := false
  src : Nat := 0
  psn : Nat := 0
  msg : Nat := 0
  tSend : Nat := 0
  len : Nat := 0
  nak : Nat := 0
  hint : Nat := 0

def Tp.bytes (t : Tp) : Bytes :=
  putLe 4 (t.dst % 2 ^ 24 + b2n t.first * 2 ^ 24 + b2n t.last * 2 ^ 25 + b2n t.ackNow * 2 ^ 26) ++ putLe 4 (t.src % 2 ^ 24) ++
    putLe 4 (t.psn % 2 ^ 24) ++ putLe 4 (t.msg % 2 ^ 24) ++ putLe 8 (t.tSend % 2 ^ 48) ++ putLe 4 t.len ++ putLe 2 t.nak ++ putLe 2 t.hint

def tpOf (b : Bytes) : Tp :=
  let w := leAt b 0 4
  { dst := w % 2 ^ 24, first := bitOf w 24, last := bitOf w 25, ackNow := bitOf w 26, src := leAt b 4 4 % 2 ^ 24, psn := leAt b 8 4 % 2 ^ 24,
    msg := leAt b 12 4 % 2 ^ 24, tSend := leAt b 16 8 % 2 ^ 48, len := leAt b 24 4, nak := leAt b 28 2, hint := leAt b 30 2 }

/-- A packet of a QP. -/
def packet (q : Qp) (op key addr : Nat) (t : Tp) (payload : Bytes) : Frame :=
  { op := op, tc := q.tc, dst := q.peer, key := key, addr := addr, size := payload.length, body := t.bytes ++ payload }

/-- Bytes of the next packet from an offset of a message that ends at `len`, never across a 4 KiB boundary of the target. -/
def chunkAt (remote done len : Nat) : Nat := min (len - done) (4096 - (remote % 2 ^ 48 + done) % 4096)

/-- Responses that a READ of `len` bytes takes. -/
def readCount (remote len : Nat) : Nat := cdiv (remote % 4096 + len) 4096

/-- 8-byte tag of the table a page names (06 R165); zeros where the slot has moved on. -/
def tagBytes (s : State) (ref : Nat) : Bytes := match tableAt s ref with
  | some b => tableTag b
  | none => zeros 8

/-- A page as it travels: frame bytes, then its table tags. -/
def pageWire (s : State) (bs : Bytes) : Bytes := bs ++ tagBytes s (pageHdr bs).kTable ++ tagBytes s (pageHdr bs).vTable

/-- Bytes of a page on the wire. -/
def pageLen : Nat := 16400

/-- The message a SEND carries. -/
def sendBody (s : State) (q : Qp) (w : Wr) : Bytes :=
  if w.posted then putLe 2 w.msgType ++ zeros 6 ++ spaceRead s q.ctx w.loc (w.length - 8) else w.body

/-- A packet leaves: sent packets count (R312). Without a route it is not sent, and no_route is raised. -/
def sendPkt (s : State) (ctx : Nat) (f : Frame) : State :=
  match sendFrame s ctx f with
  | some s => qpeCount s 0 1
  | none => raise s Off.FAB_STATUS 4

/-- The next packet of a work request: op, key, address, payload, bytes sent after it, whether it is the last, PSNs it takes. -/
structure NextPkt where
  op : Nat
  key : Nat := 0
  addr : Nat := 0
  payload : Bytes := []
  len : Nat := 0
  sent : Nat
  last : Bool
  psns : Nat := 1

/-- A work request asks for a page pushed plain (R157, R294). -/
def Wr.plain (w : Wr) : Bool := w.op == 3 && bitOf w.flags 0

/-- The message of a PAGE_PUSH: the page and its table tags, or the decoded elements, without a trailer (R297). -/
def pushBytes (s : State) (q : Qp) (w : Wr) : Bytes := if w.plain then w.body else pageWire s (frameBytesOf s q.ctx (w.loc % 2 ^ 32))

/-- What a PAGE_READ asks for. -/
def Wr.ask (w : Wr) : PageAsk := { pfn := w.remote % 2 ^ 32, page := w.page, block := w.block }

def nextPkt (s : State) (q : Qp) (w : Wr) : NextPkt :=
  if w.op = 0 then
    let n := chunkAt w.remote w.sent w.length
    { op := 0xA0, key := w.key, addr := w.remote + w.sent, payload := spaceRead s q.ctx (w.loc + w.sent) n, len := w.length, sent := w.sent + n,
      last := w.sent + n = w.length }
  else if w.op = 1 then
    { op := 0xA1, key := w.key, addr := w.remote, len := w.length, sent := w.length, last := true, psns := readCount w.remote w.length }
  else if w.op = 2 then
    let n := min 4096 (w.length - w.sent)
    { op := 0xA3, payload := slice (sendBody s q w) w.sent n, len := w.length, sent := w.sent + n, last := w.sent + n = w.length }
  else if w.op = 3 then
    let bytes := pushBytes s q w
    let n := min 4096 (bytes.length - w.sent)
    { op := 0xA4, payload := slice bytes w.sent n, len := bytes.length, sent := w.sent + n, last := w.sent + n = bytes.length }
  else { op := 0xA5, sent := 1, last := true, psns := 10 }

/-- Frames that the payload of the next packet is read from. -/
def sourceFrames (w : Wr) (n : Nat) : List Nat :=
  if w.op = 0 then framesAt (w.loc + w.sent) n
  else if w.op = 2 && w.posted && w.sent + n > 8 then framesAt (w.loc + (max w.sent 8 - 8)) (w.sent + n - max w.sent 8)
  else if w.op = 3 && !(w.plain && w.sent != 0) then [w.loc % 2 ^ 32]
  else []

/-- The payload as it was read: where a read could not be corrected the spec does not say what leaves (free bytes). -/
def sourceRead (s : State) (w : Wr) (payload : Bytes) (ecc : MemObs) : Bytes × State :=
  let fs := sourceFrames w payload.length
  let lost := lostFrame s fs ecc
  let s := memEvents s fs ecc
  if lost.isSome then freeBytes s payload.length else (payload, s)

/-- A work request that no packet can carry out (R294). -/
def wrInvalid (w : Wr) : Option Nat :=
  if w.op > 4 then some St.OP_INVALID
  else if w.op ≤ 2 && (w.length < 8 || w.length > 2 ^ 24 || w.length % 8 != 0) then some St.LENGTH_INVALID
  else if w.op ≥ 3 && w.length ≠ 1 then some St.LENGTH_INVALID
  else none

/-- The first work request whose packets are not all sent, with its place. -/
def currentWr (q : Qp) : Option (Nat × Wr) := (q.sq.zipIdx.find? fun x => x.1.endPsn.isNone).map fun x => (x.2, x.1)

/-! ### A page pushed plain (R297; 06 R157, R160; 02 R33, R48) -/

/-- A decoded element with its scale as the DMA expander writes it: BF16 or FP32, which of them being the part's, rounded to nearest;
overflow gives infinity. -/
def pushElem (v : Num) : Bytes := if Config.plainWide then putLe 4 (elemBits 0 {} v) else putLe 2 (elemBits 1 {} v)

/-- Elements of each position in a page, from its first coded block: outside a step no geometry gives it (DEDUCED). -/
def pageDim (bs : Bytes) : Nat := match codedBlocks 64 (pageK bs) with
  | (_, rows, b) :: _ => leAt b 6 2 / rows
  | [] => 0

/-- The elements of one tensor, row by row. -/
def pushTensor (fmt : Nat) (scaling : Bool) (d : Nat) (rows : List KvRow) : Bytes :=
  rows.flatMap fun r => (List.range d).flatMap fun i => pushElem (rowVal fmt scaling r i)

/-- A page decoded: all of K, then all of V (DESIGN CHOICE: the spec gives the order of neither). An error is the code, with the table
slot of the failing block. -/
def pushedPage (s : State) (bs : Bytes) : Except PageBad PageData × Bytes :=
  if !pageShapeOk bs then (.error .header, [])
  else match pageRows s (pageDim bs) bs with
    | .error e => (.error e, [])
    | .ok r =>
      let h := pageHdr bs
      (.ok r, pushTensor h.fmt h.scaling (pageDim bs) (r.rows.map (·.k)) ++ pushTensor h.vFmt h.scaling (pageDim bs) (r.rows.map (·.v)))

/-- The page of a plain push is decoded when its first packet is due: the expander of some core does it, which the spec leaves open; a
failure ends the work request (06 R161). -/
def decodePush (s : State) (q : Qp) (w : Wr) : Except (PageBad × Nat) (Wr × State) :=
  if !w.plain || w.sent ≠ 0 then .ok (w, s)
  else
    let pfn := w.loc % 2 ^ 32
    match pushedPage s (frameBytesOf s q.ctx pfn) with
    | (.error e, _) => .error (e, pfn)
    | (.ok r, b) =>
      let f := free64 s
      .ok ({ w with body := b }, r.use.foldl (fun s u => count s (ckey Off.COMP_CNT_LO 2 (f.1.toNat % 128)) u.2.1) f.2)

/-- The next packet leaves, in the window (R294, R295, R311). -/
def sendPacket (s : State) (qpn ix : Nat) (w : Wr) (ecc : MemObs) : State :=
  let q := qpOf s qpn
  let k := nextPkt s q w
  let r := sourceRead s w k.payload ecc
  let q := qpOf r.2 qpn
  let first := w.sent = 0
  let msg := if first then psnAdd q.msgSeq 1 else q.msgSeq
  let t : Tp := { dst := q.peerQpn, first := first, last := k.last, src := qpn, psn := q.sendPsn, msg := msg, tSend := s.clk.counter,
                  len := if first then k.len else 0 }
  let f := packet q k.op k.key k.addr t r.1
  if q.inflight ≠ 0 && q.inflight + frameLen f > q.window then s
  else match sendFrame r.2 q.ctx f with
    | none => s
    | some s =>
      let s := if first && w.op = 2 && w.msgType = 1 && !w.posted then enterDoubt s w.wrId else s
      let w := { w with sent := k.sent, endPsn := if k.last then some (psnAdd q.sendPsn (k.psns - 1)) else none }
      qpeCount (setQp s qpn { q with sq := q.sq.set ix w, msgSeq := msg, sendPsn := psnAdd q.sendPsn k.psns, inflight := q.inflight + frameLen f,
                                     unacked := q.unacked ++ [{ psn := q.sendPsn, frame := f, sentAt := s.clk.counter }] }) 0 1

def qpSend (qpn : Nat) (ecc : MemObs) (s : State) : State :=
  let q := qpOf s qpn
  match currentWr q with
  | none => s
  | some (ix, w) =>
    if !qpeOn s || q.waiting.isSome || !(q.st == .ready || (q.st == .draining && w.sent != 0)) then s
    else if !isCached s qpn then startFetch s qpn
    else match wrInvalid w with
      | some st => if ix = 0 then completeHead s qpn st else s
      | none =>
        if bitOf w.flags 1 && w.sent = 0 && (q.sq.take ix).any (·.op == 1) then s
        else if mustWait s (regionsOf (sourceFrames w 4096)) then s
        else match decodePush s q w with
          | .error e => if ix = 0 then completeHead (noteBad s e.1 e.2) qpn e.1.status else s
          | .ok (w, s) => sendPacket (useContext s qpn) qpn ix w ecc

/-- QP_SEND (R294, R295, R311). Nothing leaves while a controller holds the source's region (07 R168, R175). -/
def execQpSend (qpn : Nat) (ecc : MemObs) (s : State) : Host.Outcome State Fault Refusal := whileAlive s (qpSend qpn ecc s)

/-! ### Acknowledgement at the sender (R304 to R306, R311) -/

/-- One acknowledgement of a packet sent once: the QP's window, and whether it was cut (R311). -/
def congest (q : Qp) (now acked echo : Nat) : Qp × Bool :=
  let rtt : Nat := (now + 2 ^ 48 - echo % 2 ^ 48) % 2 ^ 48
  let srtt : Nat := if q.srtt = 0 then rtt else ((q.srtt : Int) + ((rtt : Int) - q.srtt) / 8).toNat
  let run : Nat := min q.baseRun rtt
  let turn := now - q.baseStart ≥ q.basePeriod
  let baseRtt := if turn then run else q.baseRtt
  let run : Nat := if turn then rtt else run
  let base := min baseRtt run
  let backlog := if srtt ≤ base then 0 else q.window * (srtt - base) / srtt
  let q := { q with srtt := srtt, baseRtt := baseRtt, baseRun := run, baseStart := if turn then now else q.baseStart }
  let r : Qp × Bool :=
    if backlog < q.target then
      let acc := q.incAcc + acked
      if acc ≥ q.window then ({ q with incAcc := acc - q.window, window := q.window + q.ai }, false) else ({ q with incAcc := acc }, false)
    else if now - q.lastDec ≥ srtt then
      let dec := min ((backlog - q.target) * q.gain / 256) (q.window * q.maxMd / 256)
      ({ q with window := q.window - dec, lastDec := now }, true)
    else (q, false)
  ({ r.1 with window := min q.winMax (max 4096 r.1.window) }, r.2)

/-- A request whose responses acknowledge it. -/
def isRead (f : Frame) : Bool := f.op == 0xA1 || f.op == 0xA5

/-- Packets at the head that an acknowledgement of a PSN covers; reads wait for their responses. -/
def ackedPkts (psn : Nat) : List SentPkt → List SentPkt × List SentPkt
  | [] => ([], [])
  | p :: ps =>
    if isRead p.frame || psnLater p.psn psn then ([], p :: ps)
    else
      let r := ackedPkts psn ps
      (p :: r.1, r.2)

/-- The oldest unacknowledged PSN. -/
def una (q : Qp) : Nat := match q.unacked with
  | p :: _ => p.psn
  | [] => q.sendPsn

/-- Work requests at the head that are done complete, in order: acknowledged ones, and reads wholly placed. -/
def completeDone : Nat → State → Nat → State
  | 0, s, _ => s
  | k + 1, s, qpn =>
    let q := qpOf s qpn
    match q.sq with
    | [] => s
    | w :: _ => match w.endPsn with
      | none => s
      | some e =>
        let done := if w.op = 1 then decide (w.placed = w.length) else if w.op = 4 then w.placed ≥ 1000 else psnLater q.unaPsn e
        if done then completeDone k (completeHead s qpn w.failed) qpn else s

/-- una_psn has moved: retry counts restart, work requests complete. -/
def advanced (s : State) (qpn : Nat) (q : Qp) : State :=
  let s := setQp s qpn { q with unaPsn := una q, retries := 0, busyUsed := 0 }
  completeDone q.sq.length s qpn

/-- Every packet from a PSN on is sent again, in order. -/
def resendFrom (s : State) (qpn psn : Nat) : State :=
  let q := qpOf s qpn
  let again := q.unacked.filter fun p => !psnLater psn p.psn
  let s := setQp s qpn { q with waiting := none, unacked := q.unacked.map fun p =>
                                if psnLater psn p.psn then p else { p with resent := true, sentAt := s.clk.counter } }
  let s := qpeCount s 2 again.length
  again.foldl (fun s p => (sendFrame s q.ctx { p.frame with body := putAt p.frame.body 16 (putLe 8 (s.clk.counter % 2 ^ 48)) }).getD s) s

/-- The oldest work request completes with a status, the later ones QP_FLUSHED, and the QP is in ERROR. -/
def failQp (s : State) (qpn status : Nat) : State := enterError (completeHead s qpn status) qpn

/-- The QP that an arriving answer belongs to. -/
def answerQp (s : State) (p : Nat) (f : Frame) : Option (Nat × Qp × Tp) :=
  let t := tpOf f.body
  let q := qpOf s t.dst
  if !qpeOn s || frameCtx s p f ≠ some q.ctx || !(q.st == .ready || q.st == .draining) || q.peer ≠ f.src || q.peerQpn ≠ t.src then none
  else some (t.dst, q, t)

def ack (p : Nat) (f : Frame) (s : State) : State :=
  match answerQp s p f with
  | none => s
  | some (n, q, t) =>
    let s := qpeCount (useContext s n) 1 1
    let r := ackedPkts t.len q.unacked
    if r.1.isEmpty then s
    else
      let bytes := (r.1.map fun x => frameLen x.frame).sum
      let q := { q with unacked := r.2, inflight := q.inflight - bytes }
      let once := match r.1.getLast? with
        | some x => x.psn == t.len && !x.resent
        | none => false
      let c := if once then congest q s.clk.counter bytes t.tSend else (q, false)
      advanced (if c.2 then qpeCount s 8 1 else s) n c.1

/-- ACK (R304, R306, R311). -/
def execAck (port : Nat) (f : Frame) (s : State) : Host.Outcome State Fault Refusal := whileAlive s (ack port f s)

/-- Recoverable causes (R305). -/
def busyCause (c : Nat) : Bool := c == St.CONTEXT_NOT_READY || c == St.RECEIVER_BUSY

/-- A NAK of a PSN says that every earlier packet is placed: the work requests before the one it names complete. -/
def completeBefore : Nat → State → Nat → Nat → State
  | 0, s, _, _ => s
  | k + 1, s, qpn, psn =>
    match (qpOf s qpn).sq with
    | [] => s
    | w :: _ => match w.endPsn with
      | some e => if psnLater psn e then completeBefore k (completeHead s qpn (if w.op = 1 || w.op = 4 then St.QP_FLUSHED else St.OK)) qpn psn else s
      | none => s

def nak (p : Nat) (f : Frame) (s : State) : State :=
  match answerQp s p f with
  | none => s
  | some (n, q, t) =>
    let s := qpeCount (useContext s n) 1 1
    if q.unacked.isEmpty then s
    else if t.nak = St.PSN_SEQUENCE then resendFrom s n t.len
    else if busyCause t.nak then
      if q.busyMax ≠ 15 && q.busyUsed + 1 > q.busyMax then qpPortEvent (failQp s n St.RETRY_EXCEEDED) 2 p
      else setQp s n { q with busyUsed := q.busyUsed + 1, waiting := some t.len }
    else qpPortEvent (failQp (completeBefore q.sq.length s n t.len) n t.nak) 1 p

/-- NAK (R305 to R307). -/
def execNak (port : Nat) (f : Frame) (s : State) : Host.Outcome State Fault Refusal := whileAlive s (nak port f s)

def nakHintExpiry (n : Nat) (s : State) : State :=
  match (qpOf s n).waiting with
  | some psn => if qpeOn s then resendFrom s n psn else s
  | none => s

/-- NAK_HINT_EXPIRY (R305). -/
def execNakHintExpiry (qpn : Nat) (s : State) : Host.Outcome State Fault Refusal := whileAlive s (nakHintExpiry qpn s)

def retransmitTimeout (n : Nat) (s : State) : State :=
  let q := qpOf s n
  if !qpeOn s || q.unacked.isEmpty || !(q.st == .ready || q.st == .draining) then s
  else if q.retries + 1 > q.retryMax then qpEvent (failQp s n St.RETRY_EXCEEDED) 2
  else resendFrom (setQp (if q.window > 4096 then qpeCount s 8 1 else s) n { q with retries := q.retries + 1, window := 4096 }) n (una q)

/-- RETRANSMIT_TIMEOUT (R306, R311). -/
def execRetransmitTimeout (qpn : Nat) (s : State) : Host.Outcome State Fault Refusal := whileAlive s (retransmitTimeout qpn s)

/-! ### Answers of the target (R304, R305, R307, R308) -/

def sendAck (s : State) (n : Nat) : State :=
  let q := qpOf s n
  let s := setQp s n { q with sinceAck := 0 }
  sendPkt s q.ctx (packet q 0xA8 0 0 { dst := q.peerQpn, src := n, tSend := q.echo, len := psnAdd q.recvPsn (2 ^ 24 - 1) } [])

/-- A NAK for an arrived packet. -/
def sendNak (s : State) (c : Nat) (f : Frame) (psn cause hint : Nat) : State :=
  let t := tpOf f.body
  let q : Qp := { tc := f.tc, peer := f.src }
  let s := qpeCount s 3 1
  let s := if cause = St.CONTEXT_NOT_READY then qpeCount s 4 1 else s
  sendPkt s c (packet q 0xA9 0 0 { dst := t.src, src := t.dst, tSend := t.tSend, len := psn, nak := cause, hint := min hint 0xFFFF } [])

/-- Records of the event log. -/
def evtSize (s : State) : Nat := 512 * 2 ^ min 7 (rf s Off.QPE_EVT_SIZE 0 4)

/-- An event record (R308); one record of the ring stays free (DESIGN CHOICE). A log that is unset or full loses it. -/
def logEvent (s : State) (p c : Nat) (f : Frame) (cause : Nat) : State :=
  let t := tpOf f.body
  let b := putLe 8 s.clk.counter ++ putLe 4 t.dst ++ putLe 2 f.src ++ putLe 2 c ++ putLe 2 cause ++ putLe 1 f.op ++ zeros 1 ++ putLe 8 f.addr ++
    putLe 4 f.key
  let n := evtSize s
  let base := rf s Off.QPE_EVT_BASE 0 32
  if base = 0xFFFFFFFF || (s.qpe.evtTail + 1) % n = rf s Off.QPE_EVT_HEAD 0 16 % n then
    qpPortEvent { s with qpe := { s.qpe with evtLost := sat32 (s.qpe.evtLost + 1) } } 5 p
  else
    let a := base * 16384 + 32 * s.qpe.evtTail
    let s := spaceWrite s nodeSlot a b
    { s with qpe := { s.qpe with evtTail := (s.qpe.evtTail + 1) % n } }

/-- Access causes raise violation (R307). -/
def accessCause (c : Nat) : Bool := (St.KEY_INVALID ≤ c && c ≤ St.ACCESS_ALIGN) || c == St.DOMAIN_MISMATCH

/-- A fatal NAK (R307): the NAK, the QP in ERROR, the record, the event. -/
def fatalNak (s : State) (p c : Nat) (f : Frame) (cause : Nat) : State :=
  let t := tpOf f.body
  let s := sendNak s c f t.psn cause 0
  let q := qpOf s t.dst
  let s := if q.st = .ready || q.st = .draining then enterError s t.dst else s
  let s := logEvent s p c f cause
  if accessCause cause then qpPortEvent s 0 p else s

/-- The packet comes from the QP's peer, under its context (R299, check 1). -/
def ofPeer (q : Qp) (c : Nat) (f : Frame) : Bool := q.ctx == c && q.peer == f.src && q.peerQpn == (tpOf f.body).src

/-- A packet refused for now: a NAK for its PSN, and later ones of the QP are dropped until it arrives again (R305). One that is not of
the QP's peer changes nothing of the QP. -/
def busyNak (s : State) (c : Nat) (f : Frame) (cause hint : Nat) : State :=
  let t := tpOf f.body
  let q := qpOf s t.dst
  let s := sendNak s c f t.psn cause hint
  if (q.st = .ready || q.st = .draining) && ofPeer q c f then setQp s t.dst { q with dropTo := some t.psn } else s

/-! ### Checks of an arrived packet (R298, R299) -/

/-- Region checks 4 to 6 of a WRITE or READ_REQ. -/
def packetRegion (s : State) (q : Qp) (f : Frame) (right size : Nat) (first aligned : Bool) : Option Nat :=
  let i := keyIndex f.key
  let e := regionEnt s i
  let listed := i < regionCount s
  let access := if q.domain then listed && e.st != .free && e.ctx == q.ctx && e.pd == q.pd
    else listed && e.st != .free && e.gen == keyGen f.key && e.ctx == q.ctx
  if !access then some (if q.domain then St.DOMAIN_MISMATCH else St.KEY_INVALID)
  else if first && e.st = .revoking then some St.REVOKED
  else if !bitOf e.rights right then some St.KEY_RIGHTS
  else if frameOffset e f.addr < e.base || e.base + e.len < frameOffset e f.addr + size then some St.KEY_BOUNDS
  else if !aligned then some St.ACCESS_ALIGN
  else none

/-- A message length of R294. -/
def lengthOk (n : Nat) : Bool := 8 ≤ n && n ≤ 2 ^ 24 && n % 8 == 0

/-- Length fields of a data packet agree with the message it belongs to. -/
def dataLengthOk (q : Qp) (t : Tp) (len size : Nat) (n : Nat) : Bool :=
  n == size && size ≤ 4096 && 0 < size && size % 8 == 0 &&
    (if t.first then q.recvMsg == 0 && size ≤ len && (t.last == (size == len)) else 0 < q.recvMsg && size ≤ q.recvMsg && (t.last == (size == q.recvMsg)))

/-- Bytes of the message still to come after a packet. -/
def leftAfter (q : Qp) (t : Tp) (len size : Nat) : Nat := (if t.first then len else q.recvMsg) - size

/-- A packet that takes `k` PSNs is placed or executed: the next PSN is expected, and an acknowledgement of it echoes its t_send. -/
def advancePsn (s : State) (n k : Nat) (t : Tp) : State :=
  let q := qpOf s n
  setQp s n { q with recvPsn := psnAdd q.recvPsn k, sinceAck := q.sinceAck + 1, echo := t.tSend }

/-- An acknowledgement leaves when one is due (R304). -/
def ackDue (s : State) (n : Nat) (t : Tp) : State :=
  if t.last || t.ackNow || (qpOf s n).sinceAck ≥ max 1 (rf s Off.QPE_RETRY 24 8) then sendAck s n else s

def placed (s : State) (n : Nat) (t : Tp) : State := ackDue (advancePsn s n 1 t) n t

/-- A WRITE packet in sequence (R298 to R300). -/
def placeWrite (s : State) (p c n : Nat) (f : Frame) (t : Tp) (payload : Bytes) : State :=
  let q := qpOf s n
  let off := frameOffset (regionEnt s (keyIndex f.key)) f.addr
  if !lengthOk (if t.first then t.len else 8) || !dataLengthOk q t t.len f.size payload.length then fatalNak s p c f St.LENGTH_INVALID
  else match packetRegion s q f 1 f.size t.first (off % 8 == 0 && off % 4096 + f.size ≤ 4096) with
    | some st => fatalNak s p c f st
    | none =>
      let i := keyIndex f.key
      let s := spaceWrite s q.ctx off payload
      let s := if t.first then enterRegion s i else s
      let q := { q with recvMsg := leftAfter q t t.len f.size, recvRegion := if t.first then some i else q.recvRegion }
      let s := if t.last then dropRegionUse s q else s
      placed (setQp s n { q with recvRegion := if t.last then none else q.recvRegion }) n t

/-- Message types of R296. -/
def msgTypeOk (ty : Nat) : Bool := [1, 2, 3, 4, 5, 0x10, 0x11, 0x20, 0x30].contains ty

/-- The engine a message is for cannot take it now (R296): a full Coma queue, or a parity engine without a free buffer. How many
buffers that engine has the spec does not say, so whether one is free is open. -/
def receiverFull (s : State) (b : Bytes) : Bool × State :=
  if leAt b 0 2 = 0x10 then
    (match indexOf s (leAt b 8 2) with
      | some x => queueFull s x.home
      | none => false, s)
  else if leAt b 0 2 = 0x20 then
    let f := free64 s
    (f.1.getLsbD 0, f.2)
  else (false, s)

/-- A SEND packet in sequence; the message it ends is a command of its own. -/
def placeSend (s : State) (p c n : Nat) (f : Frame) (t : Tp) (payload : Bytes) : State :=
  let q := qpOf s n
  let buf := (if t.first then [] else q.recvBuf) ++ payload
  if !lengthOk (if t.first then t.len else 8) || !dataLengthOk q t t.len f.size payload.length then fatalNak s p c f St.LENGTH_INVALID
  else if t.first && !msgTypeOk (leAt payload 0 2) then fatalNak s p c f St.OP_INVALID
  else
    let full := if t.last then receiverFull s buf else (false, s)
    if full.1 then busyNak full.2 c f St.RECEIVER_BUSY (rf s Off.QPE_CNR_HINT 0 16)
    else placed (setQp full.2 n { q with recvMsg := leftAfter q t t.len f.size, recvBuf := if t.last then [] else buf }) n t

/-! ### Pages (R297; 06 R165) -/

/-- A slot whose table carries a tag. -/
def tagSlot (s : State) (tag : Bytes) : Option Nat := lowest 64 fun k => (tslotOf s k).st != .free && tableTag (tslotOf s k).bytes == tag

/-- A page that arrived, with its tables re-named to this node's slots (06 R165); an error is the cause of its refusal. -/
def remapPage (s : State) (b : Bytes) : Except Nat (Bytes × List Nat) :=
  let bs := b.take frameBytes
  if !pageShapeOk bs then .error St.PAGE_HEADER_BAD
  else match tagSlot s (slice b frameBytes 8), tagSlot s (slice b (frameBytes + 8) 8) with
    | some k, some v =>
      let rk := tableRef k (tslotOf s k).gen
      let rv := tableRef v (tslotOf s v).gen
      .ok (retag bs rk rv, [rk, rv])
    | _, _ => .error St.TABLE_UNBOUND

/-- A refusal for want of a table is shown in COMP_STATUS (06 R166). -/
def noteTable (s : State) (st : Nat) : State := if st = St.TABLE_UNBOUND then raise s Off.COMP_STATUS 32 else s

/-- A pushed page is refused for want of a table: an offer of its stream will be answered with that cause (06 R165). -/
def noteUnbound (s : State) (c : Nat) (b : Bytes) (st : Nat) : State :=
  let k := (c, (pageHdr b).stream % 2 ^ 24)
  if st = St.TABLE_UNBOUND then { s with tier := { s.tier with unbound := k :: s.tier.unbound.filter (· != k) } } else s

/-- A frame for a page that another node pushes: HBM first, then the board tier (R64, R65; DESIGN CHOICE: no placement record of
the page's class is known here). -/
def pageFrame (s : State) (c : Nat) (pick : List Nat) : Except Nat (Nat × State) :=
  let n := (ctxOf s c).slice
  let take' (code : Nat) : Option (Nat × State) :=
    if 1 ≤ quotaLeft s c code then
      match takeFrames s n code c .reserved anyFrame 1 pick with
      | some ([x], s) => some (x, s)
      | _ => none
    else none
  if quotaLeft s c 0 = 0 then .error St.QUOTA_EXCEEDED
  else match take' 0 with
    | some r => .ok r
    | none => match take' 1 with
      | some r => .ok r
      | none => .error St.POOL_EXHAUSTED

/-- A pushed page is whole: it is placed into a reserved frame. A message of another length than a page with its trailer was pushed
plain (DEDUCED), and goes to its consumer without a table check (R297). -/
def landPage (s : State) (n c : Nat) (b : Bytes) (pick : List Nat) : Except Nat State :=
  if b.length ≠ pageLen then .ok (emit s (.plainPage n b))
  else match remapPage s b with
    | .error e => .error e
    | .ok (bs, refs) => match pageFrame s c pick with
      | .error e => .error e
      | .ok (pfn, s) =>
        let s := putFrame s c pfn 0 bs
        .ok (match tfind s.tier.frames pfn with
          | some i => setFrameInfo s pfn { i with tabs := refs }
          | none => s)

/-- A PAGE packet of a push in sequence. -/
def placePage (s : State) (p c n : Nat) (f : Frame) (t : Tp) (payload : Bytes) (pick : List Nat) : State :=
  let q := qpOf s n
  let buf := (if t.first then [] else q.recvBuf) ++ payload
  if !dataLengthOk q t t.len f.size payload.length then fatalNak s p c f St.LENGTH_INVALID
  else if !t.last then placed (setQp s n { q with recvMsg := leftAfter q t t.len f.size, recvBuf := buf }) n t
  else match landPage s n q.ctx buf pick with
    | .error e => fatalNak (noteUnbound (noteTable s e) q.ctx buf e) p c f e
    | .ok s => placed (setQp s n { qpOf s n with recvMsg := 0, recvBuf := [] }) n t

/-! ### Reads at the target (R295, R304) -/

/-- The responses of a READ_REQ. -/
def readResponses (s : State) (n : Nat) (q : Qp) (off psn msg tSend : Nat) (data : Bytes) : State :=
  let len := data.length
  let k := readCount off len
  (List.range k).foldl (fun s i =>
    let start := if i = 0 then 0 else i * 4096 - off % 4096
    let stop := min len ((i + 1) * 4096 - off % 4096)
    sendPkt s q.ctx (packet q 0xA2 0 0 { dst := q.peerQpn, src := n, first := i = 0, last := i + 1 = k, psn := psnAdd psn i, msg := msg,
                                          tSend := tSend, len := if i = 0 then len else 0 } (slice data start (stop - start)))) s

def doReadReq (s : State) (p c n : Nat) (f : Frame) (t : Tp) (ecc : MemObs) (advance : Bool) : State :=
  let q := qpOf s n
  let off := frameOffset (regionEnt s (keyIndex f.key)) f.addr
  if !lengthOk t.len || f.size ≠ 0 then fatalNak s p c f St.LENGTH_INVALID
  else match packetRegion s q f 0 t.len true (off % 8 == 0) with
    | some st => fatalNak s p c f st
    | none =>
      let lost := lostFrame s (framesAt off t.len) ecc
      let s := memEvents s (framesAt off t.len) ecc
      let q := qpOf s n
      let k := readCount off t.len
      if lost.isSome then fatalNak s p c f St.DATA_POISON
      else
      let s := if advance then advancePsn s n k t else s
      let s := readResponses s n q off t.psn t.msg s.clk.counter (spaceRead s q.ctx off t.len)
      if advance then ackDue s n t else s

/-- The page responses of a PAGE_READ: five packets a page. The first gives the length of the message. -/
def pageResponses (s : State) (n : Nat) (q : Qp) (psn msg : Nat) (pages : List Bytes) : State :=
  pages.zipIdx.foldl (fun s x => (List.range 5).foldl (fun s i =>
    sendPkt s q.ctx (packet q 0xA4 0 0 { dst := q.peerQpn, src := n, first := x.2 = 0 && i = 0, last := x.2 + 1 = pages.length && i = 4,
                                          psn := psnAdd psn (5 * x.2 + i), msg := msg, tSend := s.clk.counter,
                                          len := if x.2 = 0 && i = 0 then pageLen * pages.length else 0 } (slice x.1 (4096 * i) 4096))) s) s

/-- The place a page field names, in the QP's context (R297). -/
def askedPlace (c page block : Nat) : PlaceOf :=
  { stream := some (page % 2 ^ 24), ctx := c, layer := fld page 24 10, kvHead := fld page 34 8, block := block }

/-- The bytes of a frame that exists. -/
def askedPage (s : State) (c pfn : Nat) : Bytes := if pfnOk s pfn then frameBytesOf s c pfn else []

/-- Frames that a PAGE_READ is answered from: the primary, and its spill. -/
def askedFrames (s : State) (c : Nat) (ask : PageAsk) : List Nat :=
  let h := pageHdr (askedPage s c ask.pfn)
  ask.pfn :: (if h.hasSpill then [h.spill] else [])

def doPageRead (s : State) (p c n : Nat) (f : Frame) (t : Tp) (ask : PageAsk) (ecc : MemObs) (advance : Bool) : State :=
  let q := qpOf s n
  let place := askedPlace q.ctx ask.page ask.block
  let frames := askedFrames s q.ctx ask
  let pages := frames.map (askedPage s q.ctx)
  let lost := lostFrame s frames ecc
  let s := memEvents s frames ecc
  let q := qpOf s n
  if f.size ≠ 0 then fatalNak s p c f St.LENGTH_INVALID
  else if lost.isSome then fatalNak s p c f St.DATA_POISON
  else if pages.all fun b => pageShapeOk b && pagePlaceOk b place then
    let s := if advance then advancePsn s n 10 t else s
    let s := pageResponses s n q t.psn t.msg (pages.map (pageWire s))
    if advance then ackDue s n t else s
  else fatalNak s p c f St.PAGE_HEADER_BAD

/-! ### Arrival (R299, R304, R309, R310; 13 R330; 16 R392) -/

/-- Operations of which an earlier PSN is acknowledged again and not placed. -/
def isData (op : Nat) : Bool := op == 0xA0 || op == 0xA3 || op == 0xA4

/-- What arrives with a packet: what a PAGE_READ asks for, the frames the allocator will choose, and errors of reads. -/
structure Arrival where
  frame : Frame
  ask : PageAsk := {}
  pick : List Nat := []
  ecc : MemObs := []

/-- The command that brings a packet. -/
def Arrival.cmd (a : Arrival) (p : Nat) : Instr :=
  if a.frame.op = 0xA1 then .readReq p a.frame a.ecc
  else if a.frame.op = 0xA4 then .page p a.frame a.pick
  else if a.frame.op = 0xA5 then .pageRead p a.frame { ask := a.ask, ecc := a.ecc }
  else .write p a.frame

/-- Key that orders the held accesses of a queue pair (a model's device: no region has it). -/
def qpKey (n : Nat) : Nat := 2 ^ 20 + n

/-- Frames that a packet reads or writes, of those that another node may name. -/
def packetFrames (s : State) (q : Qp) (a : Arrival) : List Nat :=
  let f := a.frame
  let off := frameOffset (regionEnt s (keyIndex f.key)) f.addr
  if f.op = 0xA0 then framesAt off f.size
  else if f.op = 0xA1 then framesAt off (tpOf f.body).len
  else if f.op = 0xA5 then askedFrames s q.ctx a.ask
  else []

/-- A packet of a cached QP, in turn. -/
def takePacket (s : State) (p c : Nat) (a : Arrival) : State :=
  let f := a.frame
  let t := tpOf f.body
  let n := t.dst
  let q := qpOf s n
  let payload := f.body.drop 32
  let dropped := match q.dropTo with
    | some d => psnLater t.psn d
    | none => false
  if !(q.st == .ready || q.st == .draining) || dropped then s
  else if s.fault.st = .fenced && isData f.op then busyNak s c f St.RECEIVER_BUSY 0xFFFF
  else if psnLater q.recvPsn t.psn then
    (if isData f.op then sendAck s n
      else if f.op = 0xA1 then doReadReq s p c n f t a.ecc false
      else if f.op = 0xA5 then doPageRead s p c n f t a.ask a.ecc false
      else s)
  else if t.psn ≠ q.recvPsn % 2 ^ 24 then
    (if q.nakSent then s else sendNak (setQp s n { q with nakSent := true }) c f q.recvPsn St.PSN_SEQUENCE 0)
  else
    let s := setQp s n { q with nakSent := false }
    if f.op = 0xA0 then placeWrite s p c n f t payload
    else if f.op = 0xA1 then doReadReq s p c n f t a.ecc true
    else if f.op = 0xA3 then placeSend s p c n f t payload
    else if f.op = 0xA4 then placePage s p c n f t payload a.pick
    else if f.op = 0xA5 then doPageRead s p c n f t a.ask a.ecc true
    else fatalNak s p c f St.OP_INVALID

/-- A packet whose turn has come; it waits while a controller holds a frame of it, and with it every later one of its QP (07 R168,
R175). -/
def turnOf (s : State) (p c : Nat) (a : Arrival) : State :=
  let n := pktQpn a.frame
  heldBy s (regionsOf (packetFrames s (qpOf s n) a) ++ [qpKey n]) (a.cmd p) fun s => takePacket s p c a

/-- Longest fetch of a context in units of 100 ns: 1 us from the board tier, 3 us from host memory (R293). -/
def fetchLimit (s : State) : Nat := if rbit s Off.QPE_CTRL 1 then 30 else 10

/-- A packet whose QP context is not on chip, or which follows held ones, waits for the fetch (R309); one the buffer cannot
take is answered CONTEXT_NOT_READY (R310). The fetch time left is open up to its limit. -/
def holdPacket (s : State) (p c : Nat) (a : Arrival) : State :=
  let f := a.frame
  if (heldOn s p).length < 256 && holdBytes s p + frameLen f ≤ 262144 then
    qpeCount (startFetch { s with qpe := { s.qpe with hold := s.qpe.hold ++ [{ port := p, frame := f, ask := a.ask }] } } (pktQpn f)) 7 1
  else
    let r := free64 s
    let hint := max (r.1.toNat % (fetchLimit s + 1)) (rf s Off.QPE_CNR_HINT 0 16)
    qpPortEvent (busyNak r.2 c f St.CONTEXT_NOT_READY hint) 3 p

/-- Packets that the policer tests (13 R330). -/
def policedOp (op : Nat) : Bool := [0xA0, 0xA1, 0xA3, 0xA4, 0xA5].contains op

/-- A packet that passed the policer: check 1 of R299, then its place in turn. A named PSN that arrives again ends the dropping of what
follows it, whether the packet is placed or held (R305, R310). -/
def admitPacket (s : State) (p c : Nat) (a : Arrival) : State :=
  let f := a.frame
  let t := tpOf f.body
  let q := qpOf s t.dst
  if !qpnOk s t.dst then fatalNak s p c f St.QP_INVALID
  else if !(q.st == .ready || q.st == .draining) then s
  else if q.ctx ≠ c then fatalNak s p c f St.QP_INVALID
  else if !ofPeer q c f then s
  else if (match q.dropTo with
      | some d => psnLater t.psn d
      | none => false) then s
  else
    let s := if q.dropTo = some t.psn then setQp s t.dst { q with dropTo := none } else s
    if isCached s t.dst && !heldFor s t.dst then turnOf (useContext s t.dst) p c a else holdPacket s p c a

/-- A packet of the target's side arrives. One that a controller has held has passed the policer before. -/
def arrive (p : Nat) (a : Arrival) (s : State) : State :=
  match frameCtx s p a.frame with
  | none => s
  | some c =>
    if !qpeOn s then s
    else if s.osier.resuming then turnOf s p c a
    else
      let s := qpeCount s 1 1
      let ok := if policedOp a.frame.op then police s c a.frame else (true, s)
      if !ok.1 then busyNak ok.2 c a.frame St.RECEIVER_BUSY (max (cdiv (policeWait ok.2 c a.frame) 80) (rf s Off.QPE_CNR_HINT 0 16))
      else admitPacket ok.2 p c a

/-- WRITE (R298 to R300, R304, R305, R307 to R310; 13 R330). A packet of the class that has no row of its own, a SEND or a reserved
operation, arrives as this command with its own operation code. -/
def execWrite (port : Nat) (f : Frame) (s : State) : Host.Outcome State Fault Refusal := whileAlive s (arrive port { frame := f } s)

/-- READ_REQ (R298 to R300, R304). -/
def execReadReq (port : Nat) (f : Frame) (ecc : MemObs) (s : State) : Host.Outcome State Fault Refusal :=
  whileAlive s (arrive port { frame := { f with op := 0xA1 }, ecc := ecc } s)

/-- PAGE_READ (R297, R304). -/
def execPageRead (port : Nat) (f : Frame) (o : PageReadObs) (s : State) : Host.Outcome State Fault Refusal :=
  whileAlive s (arrive port { frame := { f with op := 0xA5 }, ask := o.ask, ecc := o.ecc } s)

/-- The held packets of a QP leave the ports' buffers, in arrival order (R309). -/
def releaseHeld (ecc : MemObs) (s : State) (n : Nat) : State :=
  let mine (x : HeldPkt) : Bool := pktQpn x.frame == n
  (s.qpe.hold.filter mine).foldl (fun s x => match frameCtx s x.port x.frame with
    | some c => turnOf s x.port c { frame := x.frame, ask := x.ask, ecc := ecc }
    | none => s) { s with qpe := { s.qpe with hold := s.qpe.hold.filter fun x => !mine x } }

/-- The fetch of a context ends. One from host memory waits while PF0 is in D3hot (10 R265). -/
def contextFetchDone (n : Nat) (ecc : MemObs) (s : State) : State :=
  let q := qpOf s n
  if !q.fetching || (rbit s Off.QPE_CTRL 1 && s.hostq.pf0D3) then s
  else match cacheIn s n with
    | none => qpEvent s 6
    | some s => releaseHeld ecc (setQp s n { qpOf s n with fetching := false }) n

/-- CONTEXT_FETCH_DONE (R293, R309). -/
def execContextFetchDone (qpn : Nat) (ecc : MemObs) (s : State) : Host.Outcome State Fault Refusal := whileAlive s (contextFetchDone qpn ecc s)

def ackTimer (n : Nat) (s : State) : State :=
  let q := qpOf s n
  if !qpeOn s || q.sinceAck = 0 || !(q.st == .ready || q.st == .draining) then s else sendAck s n

/-- ACK_TIMER (R304). -/
def execAckTimer (qpn : Nat) (s : State) : Host.Outcome State Fault Refusal := whileAlive s (ackTimer qpn s)

/-! ### Responses at the requester (R294, R295, R297) -/

/-- The read whose responses a PSN belongs to: its place, the work request and its first PSN. -/
def readWr (q : Qp) (op psn : Nat) : Option (Nat × Wr × Nat) :=
  (q.sq.zipIdx.findSome? fun x => match x.1.endPsn with
    | none => none
    | some e =>
      let k := if op = 1 then readCount x.1.remote x.1.length else 10
      let first := psnAdd e (2 ^ 24 - (k - 1))
      if x.1.op == op && !psnLater first psn && !psnLater psn e then some (x.2, x.1, first) else none)

/-- The request packet of a read is acknowledged by its last response. -/
def readDone (s : State) (n ix first : Nat) (w : Wr) : State :=
  let q := qpOf s n
  let gone := q.unacked.filter fun p => p.psn == first
  advanced s n { q with sq := q.sq.set ix w, unacked := q.unacked.filter fun p => p.psn != first,
                        inflight := q.inflight - (gone.map fun x => frameLen x.frame).sum }

/-- The data of a READ response in order is placed. -/
def placeResp (s : State) (n ix first : Nat) (q : Qp) (w : Wr) (t : Tp) (payload : Bytes) : State :=
  let size := chunkAt w.remote w.placed w.length
  if t.psn ≠ psnAdd first ((w.remote % 4096 + w.placed) / 4096) || w.placed = w.length then s
  else
    let s := spaceWrite s q.ctx (w.loc + w.placed) (fit size payload)
    let w := { w with placed := w.placed + size }
    if w.placed = w.length then readDone s n ix first w else setQp s n { qpOf s n with sq := q.sq.set ix w }

/-- A response counts as received; one that a controller has held was counted when it came. -/
def countResp (s : State) (n : Nat) : State := if s.osier.resuming then s else qpeCount (useContext s n) 1 1

/-- A READ response: its data waits while a controller holds the region it goes to, and later responses of the QP with it. -/
def readResp (p : Nat) (f : Frame) (s : State) : State :=
  match answerQp s p f with
  | none => s
  | some (n, q, t) =>
    let s := countResp s n
    match readWr q 1 t.psn with
    | none => s
    | some (ix, w, first) =>
      heldBy s (regionsOf (framesAt (w.loc + w.placed) (f.body.length - 32)) ++ [qpKey n]) (.readResp p f) fun s =>
        placeResp s n ix first q w t (f.body.drop 32)

/-- READ_RESP (R294, R295). -/
def execReadResp (port : Nat) (f : Frame) (s : State) : Host.Outcome State Fault Refusal := whileAlive s (readResp port f s)

/-- Mark of a PAGE_READ whose pages have been handed over. -/
def pageDone : Nat := 1000

/-- Pages of a remote block reach the step that waits for them: every stream of its batch that names the page. A page that is
refused ends the step. -/
def deliverPages (s : State) (w : Wr) (peer : Nat) : State :=
  match findStep s w.wrId with
  | none => s
  | some t =>
    let prim := remapPage s (w.body.take pageLen)
    let spill : Except Nat (Bytes × List Nat) := if w.body.length > pageLen then remapPage s (slice w.body pageLen pageLen) else .ok ([], [])
    match prim, spill with
    | .ok a, .ok b =>
      let key := blockKey (fld w.page 24 10) (fld w.page 34 8) w.block
      let hits := t.awaits.filter fun x => x.2 == key && (t.streams.getD x.1 {}).stream == w.page % 2 ^ 24
      putStep s { t with awaits := t.awaits.filter (fun x => !hits.contains x), pages := t.pages ++ hits.map fun x => (x.1, key, a.1, b.1) }
    | .error e, _ => freeStepFault (noteTable s e) t e w.remote peer
    | _, .error e => freeStepFault (noteTable s e) t e w.remote peer

/-- The pages of a PAGE_READ that PF0 posted are placed at its local offset, the spill behind the primary (DESIGN CHOICE); an error is
the cause of a page's refusal (06 R165). -/
def placePages (s : State) (c : Nat) (w : Wr) : Except Nat State :=
  match remapPage s (w.body.take pageLen) with
  | .error e => .error e
  | .ok a =>
    if w.body.length ≤ pageLen then .ok (spaceWrite s c w.loc a.1)
    else match remapPage s (slice w.body pageLen pageLen) with
      | .error e => .error e
      | .ok b => .ok (spaceWrite s c w.loc (a.1 ++ b.1))

/-- A PAGE_READ whose pages are refused at its own end: its work request completes with the cause (DESIGN CHOICE). -/
def failRead (s : State) (n ix first : Nat) (w : Wr) (st : Nat) : State :=
  readDone (noteTable s st) n ix first { w with failed := st }

/-- A PAGE response in order; the last one hands the pages over. -/
def pageResp (s : State) (n ix first : Nat) (q : Qp) (w : Wr) (t : Tp) (payload : Bytes) : State :=
  if t.psn ≠ psnAdd first w.placed || w.placed ≥ 10 then s
  else
    let w := { w with placed := w.placed + 1, body := w.body ++ payload }
    if t.last then
      let w := { w with placed := pageDone }
      if w.posted then
        match placePages s q.ctx w with
        | .error e => failRead s n ix first w e
        | .ok s => readDone s n ix first w
      else readDone (deliverPages s w q.peer) n ix first w
    else setQp s n { q with sq := q.sq.set ix w }

/-- A PAGE packet: a response where its PSN lies in an outstanding PAGE_READ of the QP, else a push. -/
def page (p : Nat) (f : Frame) (pick : List Nat) (s : State) : State :=
  match answerQp s p f with
  | none => arrive p { frame := { f with op := 0xA4 }, pick := pick } s
  | some (n, q, t) => match readWr q 4 t.psn with
    | none => arrive p { frame := { f with op := 0xA4 }, pick := pick } s
    | some (ix, w, first) =>
      heldBy (countResp s n) (regionsOf (if w.posted then framesAt w.loc 32768 else []) ++ [qpKey n]) (.page p f pick) fun s =>
        pageResp s n ix first q w t (f.body.drop 32)

/-- PAGE (R295, R297; 06 R165). -/
def execPage (port : Nat) (f : Frame) (pick : List Nat) (s : State) : Host.Outcome State Fault Refusal := whileAlive s (page port f pick s)

end Sys2Proof.Machine
end

