-- ==== Sys2Proof/Machine/Parity.lean ====
section
/-! DEFINITION. Erasure groups: parity rows at the holder, and the rebuild of lost shards (16 R394 to R401). -/
namespace Sys2Proof.Machine
open Sys2Proof

/-! ### GF(2^8) (R395) -/

/-- A product with g = 0x02 under the polynomial 0x11D. -/
def gfDouble (a : Byte) : Byte := if a.getLsbD 7 then (a <<< 1) ^^^ 0x1D else a <<< 1

/-- A product of two elements. -/
def gfMul (a b : Byte) : Byte :=
  ((List.range 8).foldl (fun (st : Byte × Byte) i => (if b.getLsbD i then st.1 ^^^ st.2 else st.1, gfDouble st.2)) (0, a)).1

/-- The power g^n. -/
def gfPow : Nat → Byte
  | 0 => 1
  | n + 1 => gfDouble (gfPow n)

/-- The inverse of a non-zero element: its 254th power. -/
def gfInv (a : Byte) : Byte := (List.range 253).foldl (fun x _ => gfMul x a) a

def gfScale (c : Byte) (bs : Bytes) : Bytes := bs.map (gfMul c)

/-- The string holds no byte but zero. -/
def allZero (bs : Bytes) : Bool := bs.all (· == 0)

/-! ### Rows -/

/-- Key of a row: stream, layer, KV head, row number. -/
def rowKey (stream layer kv row : Nat) : Nat := ((stream * 1024 + layer % 1024) * 256 + kv % 256) * 2 ^ 28 + row % 2 ^ 28

/-- Key under which the spare keeps a row that a lost shard still sent itself (R399). -/
def copiedKey (shard key : Nat) : Nat := key + (shard + 1) * 2 ^ 96

def grpRow (g : Group) (key : Nat) : Row := tget {} g.rows key

/-- Non-zero rows a node holds for a group (FAULT_GROUP_ROWS): those of its blocks, or its parity rows. -/
def grpRowCount (s : State) (gi : Nat) : Nat :=
  let g := grpOf s gi
  if grpShard s gi < grpK s gi then
    (g.rowMap.map fun e => if e.2.1 ≥ 2 ^ 60 then 0 else match streamAt s e.1 with
      | some x => (blockFrames (x.entry e.2.1)).length
      | none => 0).sum
  else g.rows.countP fun e => e.2.pfn.isSome || !e.2.a0.isEmpty

/-- A board frame of the group's context for a new parity row, within its quota (R394); none where there is none. -/
def rowFrame (s : State) (ctx : Nat) (picks : List Nat) : Option Nat × State :=
  if quotaLeft s ctx 1 = 0 then (none, s)
  else match takeFrames s (ctxOf s ctx).slice 1 ctx .record anyFrame 1 picks with
    | some ([p], s) => (some p, s)
    | _ => (none, s)

/-- A parity row takes a new content: a zero one is freed (R398). -/
def putParity (s : State) (gi key : Nat) (bs : Bytes) (picks : List Nat) : State :=
  let g := grpOf s gi
  let r := grpRow g key
  if allZero bs then releaseFrames (setGrp s gi { g with rows := tdel g.rows key }) r.pfn.toList
  else match r.pfn with
    | some _ => setGrp s gi { g with rows := tput g.rows key { r with a0 := bs } }
    | none =>
      let f := rowFrame s (grpCtx s gi) picks
      setGrp f.2 gi { grpOf f.2 gi with rows := tput g.rows key { a0 := bs, pfn := f.1 } }

/-- A delta reaches the parity shard of this node: P adds it, Q adds its product with g^i (R395, R398). -/
def applyDelta (s : State) (gi shard key : Nat) (delta : Bytes) (picks : List Nat) : State :=
  let k := grpK s gi
  let own := grpShard s gi
  let d := if own = k then delta else gfScale (gfPow shard) delta
  if own < k || shard ≥ k then s else putParity s gi key (xorB (fit frameBytes (grpRow (grpOf s gi) key).a0) d) picks

/-! ### Accumulators of the spare (R399, R400) -/

def lostShards (s : State) (gi : Nat) : List Nat := maskBits (grpK s gi + grpR s gi) (rf s Off.FAULT_REBUILD 0 18)

/-- One row from a shard: data adds D to A0 and g^i D to A1, P adds to A0, Q adds to A1. -/
def accumulate (k shard : Nat) (r : Row) (d : Bytes) : Row :=
  let a0 := fit d.length r.a0
  let a1 := fit d.length r.a1
  if shard < k then { a0 := xorB a0 d, a1 := xorB a1 (gfScale (gfPow shard) d) }
  else if shard = k then { a0 := xorB a0 d, a1 := a1 }
  else { a0 := a0, a1 := xorB a1 d }

def rebuildRow (s : State) (gi shard key : Nat) (d : Bytes) : State :=
  let g := grpOf s gi
  let rows := tput g.rows key (accumulate (grpK s gi) shard (grpRow g key) d)
  let rows := if (lostShards s gi).contains shard then tput rows (copiedKey shard key) { a0 := d } else rows
  setGrp s gi { g with rows := rows }

/-- Every surviving shard has ended, and every lost one that sends. -/
def rebuildEnded (s : State) (gi : Nat) : Bool :=
  let g := grpOf s gi
  let lost := lostShards s gi
  (List.range (grpK s gi + grpR s gi)).all fun j =>
    g.ends.contains j || (lost.contains j && !(g.rows.any fun e => e.1 / 2 ^ 96 == j + 1))

/-! ### Solving (R400) -/

/-- Two lost data shards s < t. -/
def solveTwo (s t : Nat) (a0 a1 : Bytes) : Bytes × Bytes :=
  let dt := gfScale (gfInv (gfPow s ^^^ gfPow t)) (xorB a1 (gfScale (gfPow s) a0))
  (xorB a0 dt, dt)

/-- The contents a lost data shard may have in a row: from A0 where P stands, from A1 where Q stands. `lost` are the shards
that nothing was copied from. -/
def solutions (k r : Nat) (lost : List Nat) (shard : Nat) (x : Row) : List Bytes :=
  let data := lost.filter (· < k)
  match data with
  | [_] =>
    (if lost.contains k then [] else [x.a0]) ++
      (if r = 2 && !lost.contains (k + 1) then [gfScale (gfInv (gfPow shard)) x.a1] else [])
  | [i, j] => [if shard = i then (solveTwo i j x.a0 x.a1).1 else (solveTwo i j x.a0 x.a1).2]
  | _ => []

/-- What a row turns out to hold. -/
inductive Solved where
  | empty
  | page (bs : Bytes)
  | lost
deriving DecidableEq, Repr

/-- The page of a row passes R54: its place is that of the row, and its spill flag that of the row's parity (R396). -/
def rowPageOk (ctx stream layer kv row : Nat) (bs : Bytes) : Bool :=
  let h := pageHdr bs
  pageShapeOk bs && pagePlaceOk bs { stream := some stream, ctx := ctx, layer := layer, kvHead := kv, block := h.block } &&
    h.isSpill == (row % 2 == 1)

/-- One of the possible contents: where they differ, the one that passes with the smaller count. -/
def choose (ok : Bytes → Bool) (xs : List Bytes) : Solved :=
  if xs.all allZero then .empty
  else match sortBy (fun a b => (pageHdr a).count < (pageHdr b).count) (xs.filter ok) with
    | [] => .lost
    | p :: _ => .page p

/-! ### The rebuilt shard (R401) -/

/-- A rebuilt row: stream, layer, KV head, row number, what it holds. -/
structure RebuiltRow where
  stream : Nat
  layer : Nat
  kv : Nat
  row : Nat
  got : Solved
deriving DecidableEq, Repr

def keyStream (key : Nat) : Nat := key / 2 ^ 46 % 2 ^ 24
def keyLayer (key : Nat) : Nat := key / 2 ^ 36 % 1024
def keyKv (key : Nat) : Nat := key / 2 ^ 28 % 256
def keyRow (key : Nat) : Nat := key % 2 ^ 28

/-- Rows of one lost data shard: those it sent itself, or the solved ones. -/
def shardRows (s : State) (gi shard : Nat) (open' : List Nat) : List RebuiltRow :=
  let g := grpOf s gi
  let base := g.rows.filter fun e => e.1 < 2 ^ 96
  base.filterMap fun e =>
    let x : Nat × Nat × Nat × Nat := (keyStream e.1, keyLayer e.1, keyKv e.1, keyRow e.1)
    let cands := if open'.contains shard then solutions (grpK s gi) (grpR s gi) open' shard e.2
      else [(grpRow g (copiedKey shard e.1)).a0]
    match choose (rowPageOk (grpCtx s gi) x.1 x.2.1 x.2.2.1 x.2.2.2) cands with
    | .empty => none
    | v => some { stream := x.1, layer := x.2.1, kv := x.2.2.1, row := x.2.2.2, got := v }

/-- A rebuilt block: row pair t, with its primary and spill pages. -/
structure RebuiltBlock where
  stream : Nat
  key : Nat
  t : Nat
  prim : Bytes
  spill : Option Bytes
deriving DecidableEq, Repr

/-- Blocks of a shard; a block without a good primary, or without the spill its header names, is lost. -/
def shardBlocks (rows : List RebuiltRow) : List RebuiltBlock × List Nat :=
  let ts := (rows.map fun r => (r.stream, r.layer, r.kv, r.row / 2)).eraseDups
  ts.foldl (fun (st : List RebuiltBlock × List Nat) x =>
    let at' (row : Nat) : Option Solved := (rows.find? fun r => r.stream == x.1 && r.layer == x.2.1 && r.kv == x.2.2.1 && r.row == row).map (·.got)
    match at' (2 * x.2.2.2), at' (2 * x.2.2.2 + 1) with
    | some (.page p), none =>
      let h := pageHdr p
      if h.hasSpill then (st.1, x.1 :: st.2)
      else (st.1 ++ [{ stream := x.1, key := blockKey x.2.1 x.2.2.1 h.block, t := x.2.2.2, prim := p, spill := none }], st.2)
    | some (.page p), some (.page q) =>
      let h := pageHdr p
      if h.hasSpill && (pageHdr q).block == h.block && (pageHdr q).first == h.count then
        (st.1 ++ [{ stream := x.1, key := blockKey x.2.1 x.2.2.1 h.block, t := x.2.2.2, prim := p, spill := some q }], st.2)
      else (st.1, x.1 :: st.2)
    | _, _ => (st.1, x.1 :: st.2)) ([], [])

/-- Progress of placing blocks: allocator choices left, entries placed, streams that lost a block. -/
structure Placing where
  picks : List Nat := []
  entries : List (Nat × Nat × Nat × BlockEntry × Nat) := []
  lost : List Nat := []
deriving DecidableEq, Repr

/-- One rebuilt block goes into frames of the group's context; without frames its stream is lost (DESIGN CHOICE). -/
def placeBlock (s : State) (ctx : Nat) (st : Placing) (b : RebuiltBlock) : State × Placing :=
  let miss : State × Placing := (s, { st with lost := b.stream :: st.lost })
  match pageFrame s ctx st.picks with
  | .error _ => miss
  | .ok (p, s1) =>
    let mark (s : State) (pfn : Nat) (use : Use) (bs : Bytes) : State :=
      let s := putFrame s ctx pfn 0 bs
      match tfind s.tier.frames pfn with
      | some i => setFrameInfo s pfn { i with use := use, tabs := [(pageHdr bs).kTable, (pageHdr bs).vTable] }
      | none => s
    let h := pageHdr b.prim
    let e : BlockEntry := { pfn := p, node := nodeNum s, tier := pfnTier p, count := h.count, sketch := h.sketch != 7,
                            compute := inCompute s p }
    match b.spill with
    | none => (mark s1 p .page b.prim, { st with picks := st.picks.drop 1, entries := st.entries ++ [(b.stream, b.key, b.t, e, h.handoff)] })
    | some q => match pageFrame s1 ctx (st.picks.drop 1) with
      | .error _ => miss
      | .ok (p2, s2) =>
        let e := { e with spill := p2, count := h.count + (pageHdr q).count }
        (mark (mark s2 p .page (setSpill b.prim p2)) p2 .spill q,
          { st with picks := st.picks.drop 2, entries := st.entries ++ [(b.stream, b.key, b.t, e, h.handoff)] })

/-- Table frames of a rebuilt stream, from the board tier; those it finds no frame for are left out. -/
def rebuildTables (s : State) (ctx : Nat) (keys : List Nat) : State × List (Nat × Nat) :=
  keys.foldl (fun (st : State × List (Nat × Nat)) k =>
    if quotaLeft st.1 ctx 1 = 0 then st
    else match takeFrames st.1 (ctxOf st.1 ctx).slice 1 ctx .table anyFrame 1 [] with
      | some ([p], s') => (s', st.2 ++ [(k, p)])
      | _ => st) (s, [])

/-- End of a block, in positions of its stream. -/
def blockEnd (key count : Nat) : Nat := 64 * (key % 2 ^ 26) + count

/-- A stream that lost a block is LOST and reported (TIER_STATUS.stream_lost). -/
def loseStream (s : State) (ctx n : Nat) : State :=
  let x : Stream := (streamAt s n).getD { ctx := ctx }
  raise (setStream s n { x with ctx := ctx, st := .lost }) Off.TIER_STATUS 8 [(20, 12, ctx)]

/-- A rebuilt stream: entries, page tables, lengths; it becomes OWNED at one above the largest handoff field of its pages. Its
class is in no page header: free. -/
def rebuildStream (s : State) (ctx n : Nat) (es : List (Nat × Nat × Nat × BlockEntry × Nat)) : State :=
  let f := free64 s
  let entries := es.foldl (fun (t : Tbl BlockEntry) e => tset {} t e.2.1 e.2.2.2.1) []
  let committed := es.foldl (fun (t : Tbl Nat) e => tmod 0 t (e.2.1 / 2 ^ 34) fun l => max l (blockEnd e.2.1 e.2.2.2.1.count)) []
  let keys := (es.flatMap fun e => missingTables {} (e.2.1 / 2 ^ 34) (e.2.1 / 2 ^ 26 % 256) (e.2.1 % 2 ^ 26) (e.2.1 % 2 ^ 26)).eraseDups
  let r := rebuildTables f.2 ctx keys
  let tables := r.2.foldl (fun (t : Tbl Nat) e => tput t e.1 e.2) []
  putStream r.1 n { ctx := ctx, cls := f.1.toNat % 16, st := .owned,
                    counter := (es.foldl (fun c e => if newer e.2.2.2.2 c then e.2.2.2.2 else c) ((es.head?.map (·.2.2.2.2)).getD 0) + 1) % 2 ^ 32,
                    committed := committed, entries := entries, tables := tables }

/-- A block of the stream stands without the one before it in its layer and head. -/
def hasGap (es : List (Nat × Nat × Nat × BlockEntry × Nat)) : Bool :=
  es.any fun e => e.2.1 % 2 ^ 26 != 0 && !(es.any fun f => f.2.1 + 1 == e.2.1)

/-- A rebuilt stream with a gap had given blocks up, or held them by reference only and is LOST: no row says which (free). -/
def judgeGap (s : State) (ctx n : Nat) (es : List (Nat × Nat × Nat × BlockEntry × Nat)) : State :=
  if hasGap es then
    let f := free64 s
    if f.1.getLsbD 0 then loseStream f.2 ctx n else f.2
  else s

/-- Parity rows of this node's own lost parity shard, recomputed from A0 or A1 and the solved data shards (R395). -/
def rebuildParity (s : State) (gi : Nat) (lost open' : List Nat) : List (Nat × Bytes) :=
  let g := grpOf s gi
  let k := grpK s gi
  let own := grpShard s gi
  let base := g.rows.filter fun e => e.1 < 2 ^ 96
  if own < k || !lost.contains own then []
  else base.map fun e =>
    if open'.contains own then
      let data := open'.filter (· < k)
      let solved (j : Nat) : Bytes := ((solutions k (grpR s gi) open' j e.2).headD [])
      (e.1, data.foldl (fun acc j => xorB acc (if own = k then solved j else gfScale (gfPow j) (solved j))) (if own = k then e.2.a0 else e.2.a1))
    else (e.1, (grpRow g (copiedKey own e.1)).a0)

/-- The rebuild ends: rows solved, blocks placed, streams made, the group ACTIVE with this node in the lost shard's place. -/
def rebuildSolve (s : State) (gi : Nat) (pick : List Nat) : State :=
  let g := grpOf s gi
  let ctx := grpCtx s gi
  let lost := lostShards s gi
  let open' := lost.filter fun j => !g.ends.contains j
  let parity := rebuildParity s gi lost open'
  let rows := ((lost.filter (· < grpK s gi)).flatMap fun j => (shardBlocks (shardRows s gi j open')).1)
  let bad := ((lost.filter (· < grpK s gi)).flatMap fun j => (shardBlocks (shardRows s gi j open')).2)
  let st := rows.foldl (fun (st : State × Placing) b => placeBlock st.1 ctx st.2 b) (s, { picks := pick, lost := bad })
  let s := setGrp st.1 gi { st := .active, rowMap := st.2.entries.map fun e => (e.1, e.2.1, e.2.2.1) }
  let s := parity.foldl (fun s e => putParity s gi e.1 e.2 []) s
  let streams := (st.2.entries.map (·.1)).eraseDups
  let s := streams.foldl (fun s n =>
    let es := st.2.entries.filter fun e => e.1 == n
    judgeGap (rebuildStream s ctx n es) ctx n es) s
  let s := st.2.lost.eraseDups.foldl (fun s n => loseStream s ctx n) s
  let s := regPut s (rkey Off.FAULT_GROUP_MEMBER (gi * 32 + grpShard s gi)) (nodeNum s)
  raise s Off.FAULT_STATUS 8

/-! ### PARITY_DELTA (R398 to R401; 12 R296) -/

/-- The group of a message: its identifier, in a slot that is not IDLE. -/
def groupOfId (s : State) (id : Nat) : Option Nat :=
  (s.fault.groups.find? fun e => e.2.st != .idle && grpId s e.1 == id).map (·.1)

def parityDelta (fromNode : Nat) (body : Bytes) (pick : List Nat) (s : State) : State :=
  match groupOfId s (leAt body 0 2) with
  | none => s
  | some gi =>
    let shard := leAt body 2 1
    let stream := leAt body 4 4
    let key := rowKey (stream % 2 ^ 24) (leAt body 8 2) (leAt body 10 1) (leAt body 12 4)
    let delta := fit frameBytes (body.drop 16)
    if shard ≥ grpK s gi + grpR s gi then s
    else if (grpOf s gi).st = .rebuilding then
      (if stream = 0xFFFFFFFF then
        let g := grpOf s gi
        let s := setGrp s gi { g with ends := if g.ends.contains shard then g.ends else g.ends ++ [shard] }
        if rebuildEnded s gi then rebuildSolve s gi pick else s
      else rebuildRow s gi shard key delta)
    else if grpMember s gi shard ≠ fromNode || stream = 0xFFFFFFFF then s
    else applyDelta s gi shard key delta pick

/-- PARITY_DELTA (R398 to R401). -/
def execParityDelta (fromNode : Nat) (body : Bytes) (pick : List Nat) (s : State) : Host.Outcome State Fault Refusal :=
  whileAlive s (parityDelta fromNode body pick s)

/-! ### FAULT_CMD (R393) -/

/-- A command of FAULT_CMD; it is ignored while one is busy. `puts` are the fields the row writes beside go and op. -/
def faultCmd (s : State) (m : Master) (op : Nat) (puts : List (Nat × Nat × Nat)) (run : State → State) : State :=
  regCmd s m Off.FAULT_CMD ([(0, 1, 1), (1, 4, op)] ++ puts) fun s => if s.fault.busy then s else run s

/-- A command of FAULT_CMD ends with a status. -/
def faultEnd (s : State) (status : Nat) : State := { s with fault := { s.fault with status := status, busy := false } }

/-! ### Groups as the fault manager orders (R394, R399) -/

/-- The configuration keeps R394, the member at this node's own shard apart. -/
def groupShapeOk (s : State) (gi ctx : Nat) : Bool :=
  let k := grpK s gi
  let r := grpR s gi
  let ms := (List.range (k + r)).map (grpMember s gi)
  decide (2 ≤ k ∧ k ≤ 16 ∧ 1 ≤ r ∧ r ≤ 2 ∧ grpShard s gi < k + r) && ms.eraseDups.length == ms.length &&
    (ctxOf s ctx).st == .active &&
    !(s.fault.groups.any fun e => e.1 != gi && e.2.st != .idle && grpCtx s e.1 == ctx)

def groupOk (s : State) (gi ctx : Nat) : Bool := groupShapeOk s gi ctx && grpMember s gi (grpShard s gi) == nodeNum s

/-- Parity rows of a group give back their frames. -/
def dropRows (s : State) (gi : Nat) : State :=
  let g := grpOf s gi
  releaseFrames (setGrp s gi { g with rows := [], rowMap := [], ends := [] }) (g.rows.flatMap fun e => e.2.pfn.toList)

/-- FAULT_GROUP_CTX takes the context and state ACTIVE; a group whose context changes starts without rows. -/
def activateGroup (s : State) (gi ctx : Nat) : State :=
  let old := grpCtx s gi
  if !groupOk s gi ctx then faultEnd s St.GROUP_INVALID
  else
    let s := if old = ctx then s else dropRows s gi
    let s := regPut s (rkey Off.FAULT_GROUP_CTX gi) (putFld (regWord s (rkey Off.FAULT_GROUP_CTX gi)) 0 12 ctx)
    setGrp s gi { grpOf s gi with st := .active }

def groupActivate (m : Master) (ctx : Nat) (s : State) : State :=
  let gi := selNum s m Off.FAULT_GROUP_SEL
  if !served s m Off.FAULT_GROUP_CTX then (if inSafe s && m != .sideband then emit s .completerAbort else s)
  else if !privileged s m then guardRefuse s 1 0 Off.FAULT_GROUP_CTX
  else match (grpOf s gi).st with
    | .idle => activateGroup s gi ctx
    | .active => s
    | _ => faultEnd s St.GROUP_BUSY

/-- GROUP_ACTIVATE (R394, R419). -/
def execGroupActivate (m : Master) (ctx : Nat) (s : State) : Host.Outcome State Fault Refusal := .next (groupActivate m ctx s)

/-- Rows this node holds: (stream, block key's layer and head, row, content). -/
def heldRows (s : State) (gi : Nat) : List (Nat × Nat × Nat × Nat × Bytes) :=
  let g := grpOf s gi
  if grpShard s gi < grpK s gi then
    g.rowMap.flatMap fun e =>
      if e.2.1 ≥ 2 ^ 60 then []
      else match streamAt s e.1 with
        | none => []
        | some x => (blockFrames (x.entry e.2.1)).zipIdx.map fun p =>
          (e.1, e.2.1 / 2 ^ 34, e.2.1 / 2 ^ 26 % 256, 2 * e.2.2 + p.2, frameBytesOf s (grpCtx s gi) p.1)
  else g.rows.map fun e => (keyStream e.1, keyLayer e.1, keyKv e.1, keyRow e.1, e.2.a0)

def sendRows (s : State) (gi node : Nat) : Option State :=
  let ctx := grpCtx s gi
  let send (s : State) (id : Nat) (b : Bytes) : Option State :=
    (sendMsg s ctx node 0x20 id b).map fun s => count s (ckey Off.FAULT_CNT_LO 7 0) 1
  let out := (heldRows s gi).foldlM (fun s r =>
    send s noStep (deltaBody (grpId s gi) (grpShard s gi) r.1 r.2.1 r.2.2.1 r.2.2.2.1 r.2.2.2.2)) s
  match out with
  | none => none
  | some s => send s (rebuildId gi) (deltaBody (grpId s gi) (grpShard s gi) 0xFFFFFFFF 0 0 0 (zeros frameBytes))

def rebuildSend (m : Master) (s : State) : State :=
  faultCmd s m 4 [] fun s =>
    let gi := selNum s m Off.FAULT_GROUP_SEL
    match (grpOf s gi).st with
    | .sending => faultEnd s St.GROUP_BUSY
    | .rebuilding => faultEnd s St.GROUP_BUSY
    | .idle => faultEnd s St.GROUP_INVALID
    | .active => match sendRows s gi (rf s Off.FAULT_REBUILD 18 14) with
      | none => faultEnd s St.NO_PATH
      | some s => faultEnd (setGrp s gi { grpOf s gi with st := .sending }) St.OK

/-- REBUILD_SEND (R393, R399). -/
def execRebuildSend (m : Master) (s : State) : Host.Outcome State Fault Refusal := .next (rebuildSend m s)

def rebuildRecv (m : Master) (s : State) : State :=
  faultCmd s m 5 [] fun s =>
    let gi := selNum s m Off.FAULT_GROUP_SEL
    match (grpOf s gi).st with
    | .sending => faultEnd s St.GROUP_BUSY
    | .rebuilding => faultEnd s St.GROUP_BUSY
    | _ =>
      if !groupShapeOk s gi (grpCtx s gi) then faultEnd s St.GROUP_INVALID
      else
        let s := dropRows s gi
        if (lostShards s gi).length > grpR s gi then
          raise (faultEnd (setGrp s gi { grpOf s gi with st := .idle }) St.REBUILD_FAILED) Off.FAULT_STATUS 16
        else faultEnd (setGrp s gi { grpOf s gi with st := .rebuilding }) St.OK

/-- REBUILD_RECV (R393, R399, R400). -/
def execRebuildRecv (m : Master) (s : State) : Host.Outcome State Fault Refusal := .next (rebuildRecv m s)

end Sys2Proof.Machine
end

