-- ==== Sys2Proof/WellFormed.lean ====
section
/-! DEFINITION. Which terms are commands: every operand lies in the range its unit numbers have (00 R3, 03 R50, 10 R245, 11,
14, 16 R389, 18 R441). The meanings are total; a term outside these ranges stands for no event of the part. -/
namespace Sys2Proof

def Master.wf : Master → Bool
  | .pcie rid => rid < 65536
  | .sideband => true

/-- A unit of R389: kind and index below the number of units of the kind. -/
def unitCount (kind : Nat) : Nat :=
  match kind with
  | 1 => 128
  | 2 => 32
  | 3 => 32
  | 4 => 2048
  | 5 => 16
  | 6 => 24
  | 7 => 128
  | 8 => 8
  | _ => 0

def Frame.wf (f : Frame) : Bool :=
  decide (f.op < 256 ∧ f.tc < 8 ∧ f.dst < 16384 ∧ f.src < 16384 ∧ f.session < 65536 ∧ f.rtag < 65536 ∧ f.key < 2 ^ 32 ∧
    f.size < 65536 ∧ f.addr < 2 ^ 64 ∧ f.counter < 2 ^ 48)

/-- The operands of a command are in range. -/
def Instr.wf : Instr → Bool
  | .vfFlr f => 1 ≤ f && f < 64
  | .vfD3hot f => 1 ≤ f && f < 64
  | .recoveryLoad m _ _ => m.wf
  | .msixModerationTimer v => v < 2048
  | .ringEnable m cfg => m.wf && cfg < 2 ^ 32
  | .ringDisable m cfg => m.wf && cfg < 2 ^ 32
  | .ringDisabled r => r ≤ 4096
  | .corePassEnd _ core _ => core < 128
  | .scrubDone pfn => pfn < 2 ^ 32
  | .handoffOffer ctx st c sn _ _ _ d es =>
    decide (ctx < 4096 ∧ st < 2 ^ 24 ∧ c < 2 ^ 32 ∧ sn < 16384 ∧ d.length = 32) &&
      es.all fun e => decide (e.1 < 1024 ∧ e.2.1 < 256 ∧ e.2.2.1 < 2 ^ 26)
  | .handoffDrained st => st < 2 ^ 24
  | .handoffAccept st c => st < 2 ^ 24 && c < 2 ^ 32
  | .handoffRefuse st c _ => st < 2 ^ 24 && c < 2 ^ 32
  | .handoffTimeout st => st < 2 ^ 24
  | .handoffQuery c0 n st c => c0 < 4096 && n < 16384 && st < 2 ^ 24 && c < 2 ^ 32
  | .handoffAnswer st c o => st < 2 ^ 24 && c < 2 ^ 32 && o ≤ 2
  | .handoffResolve c0 st _ _ => c0 < 4096 && st < 2 ^ 24
  | .comaQueueStart die => die < 8
  | .indexDrained ix => ix < 1024
  | .slotScrubStart c => c < 4096
  | .contextRemoveDone c => c < 4096
  | .retireDrained h => h < 256
  | .tableSlotFree k => k < 64
  | .imageLoadComplete h => h < 256
  | .partialRec die cl _ => die < 8 && cl < 4
  | .oNop u => u < 2048
  | .oYield u => u < 2048
  | .oHalt u => u < 2048
  | .oLoop u => u < 2048
  | .oSetc u => u < 2048
  | .oSeta u => u < 2048
  | .oAdda u => u < 2048
  | .oNext u => u < 2048
  | .oLd u => u < 2048
  | .oSt u => u < 2048
  | .oLdl u => u < 2048
  | .oStl u => u < 2048
  | .oAdd u => u < 2048
  | .oMul u => u < 2048
  | .oFold u => u < 2048
  | .oAct u => u < 2048
  | .oMsk u => u < 2048
  | .oOut u => u < 2048
  | .oImac u => u < 2048
  | .refreshDue u => u < 2048
  | .yieldWindowExpiry u => u < 2048
  | .refreshDone u => u < 2048
  | .unsealPool m st => m.wf && 24 ≤ st && st < 32
  | .unsealOwned m st c => m.wf && 24 ≤ st && st < 32 && c < 4096
  | .sealRegion m st => m.wf && 24 ≤ st && st < 32
  | .release m st => m.wf && 24 ≤ st && st < 32
  | .sealSweepStart st r => 24 ≤ st && st < 32 && r < 24576
  | .sealSweepDone st r _ => 24 ≤ st && st < 32 && r < 24576
  | .releaseScrubDone st r => 24 ≤ st && st < 32 && r < 24576
  | .unitStart m u e => m.wf && u < 2048 && e < 256
  | .unitHalt m u => m.wf && u < 2048
  | .plaitSearch m o => m.wf && o < 4096
  | .plaitNext m o => m.wf && o < 4096
  | .plaitInsert m o p => m.wf && o < 4096 && p < 65536
  | .plaitInsertUnique m o p => m.wf && o < 4096 && p < 65536
  | .plaitDelete m o p => m.wf && o < 4096 && p < 65536
  | .shiftDone b => b < 64
  | .plaitParitySweep b o => b < 64 && o.pos < 65536 && o.upsets.all fun x => x.1 < 64 && x.2 < 65544
  | .portEnable m p d => m.wf && p < 24 && d < 2 ^ 32
  | .portRetrain m p => m.wf && p < 24
  | .detect p => p < 24
  | .equalise p _ => p < 24
  | .lock p => p < 24
  | .peerExchange p n k _ => p < 24 && n < 16384 && k < 2
  | .trainingTimeout p => p < 24
  | .portRetry p => p < 24
  | .fecLimitExceeded p _ => p < 24
  | .portDown p => p < 24
  | .flitReceive p f _ => p < 24 && f.length == 256
  | .replayTimeout p => p < 24
  | .authHello p b => p < 24 && b.length == 948
  | .authProof p b => p < 24 && b.length == 384
  | .sessionOpen p n t g => p < 24 && n < 65536 && t < 2 ^ 32 && g < 65536
  | .sessionAccept p n => p < 24 && n < 65536
  | .sessionRefuse p n _ => p < 24 && n < 65536
  | .sessionClose p n => p < 24 && n < 65536
  | .sessionRekey p n => p < 24 && n < 65536
  | .load p f _ => p < 24 && f.wf
  | .store p f => p < 24 && f.wf
  | .fetchAdd p f _ => p < 24 && f.wf
  | .swap p f _ => p < 24 && f.wf
  | .cmpSwap p f _ => p < 24 && f.wf
  | .fetchMin p f _ => p < 24 && f.wf
  | .fetchMax p f _ => p < 24 && f.wf
  | .loadResp f => f.wf
  | .storeResp f => f.wf
  | .atomicResp f => f.wf
  | .requestTimeout t => t < 65536
  | .rtagHoldExpiry t => t < 65536
  | .qpDrained q => q < 2 ^ 24
  | .revokeDone i => i < 2 ^ 20
  | .qpePost m q => m.wf && q < 2 ^ 24
  | .qpSend q _ => q < 2 ^ 24
  | .write p f => p < 24 && f.wf
  | .readReq p f _ => p < 24 && f.wf
  | .readResp p f => p < 24 && f.wf
  | .page p f _ => p < 24 && f.wf
  | .pageRead p f o => p < 24 && f.wf && o.ask.pfn < 2 ^ 32 && o.ask.page < 2 ^ 64 && o.ask.block < 2 ^ 26
  | .ack p f => p < 24 && f.wf
  | .nak p f => p < 24 && f.wf
  | .ackTimer q => q < 2 ^ 24
  | .retransmitTimeout q => q < 2 ^ 24
  | .nakHintExpiry q => q < 2 ^ 24
  | .contextFetchDone q _ => q < 2 ^ 24
  | .shardRequest q _ => q < 2 ^ 24
  | .parityDelta n _ _ => n < 16384
  | .remoteAttend q _ => q < 2 ^ 24
  | .egressFrameStart p _ => p < 24
  | .gateEntryEnd p c => p < 24 && 1 ≤ c && c < 8
  | .gateInstall m p => m.wf && p < 24
  | .gateCancel m p => m.wf && p < 24
  | .gateBase p => p < 24
  | .budgetWrite m w => m.wf && w < 4096
  | .thermalSample r => r.length ≤ 128
  | .thermalTrip n _ => n < 128
  | .clusterReqWrite m _ d => m.wf && d < 2 ^ 32
  | .clusterSleep c => c < 32
  | .clusterPowerUp c _ _ => c < 32
  | .stackSleep i => i < 32
  | .stackWake i => i < 32
  | .enrolKey m e r => m.wf && e < 8 && r < 4
  | .removeKey m e => m.wf && e < 8
  | .fenceUnit m k i => m.wf && i < unitCount k
  | .rejoinUnit m k i _ _ _ => m.wf && i < unitCount k
  | .epochWaitTimeout k i => i < unitCount k
  | .groupActivate m c => m.wf && c < 4096
  | .canaryDone c _ => c < 128
  | .registerWrite m _ a d _ be => m.wf && a < 2 ^ 24 && d < 2 ^ 64 && be < 256
  | .seqWriteBack m a d => m.wf && a < 2 ^ 26 && d < 2 ^ 32
  | .statusRead m a n => m.wf && a < 2 ^ 26 && 1 ≤ n && n ≤ 4096
  | .loReadLatch m a n => m.wf && a < 2 ^ 26 && 1 ≤ n && n ≤ 4096
  | .setdasa a d => a < 128 && d < 128
  | .entdaa d => d < 128
  | .msixUnmask f e => f < 64 && e.vec < 2048 && e.addr < 2 ^ 64 && e.data < 2 ^ 32
  | .powerOnReset _ => true
  | .nodeReset _ _ => true
  | .pf0D3hot => true
  | .pf0D0 => true
  | .doorbellScan _ _ => true
  | .doorbellSweep _ => true
  | .descriptorFetch _ => true
  | .attend _ _ => true
  | .slotFill _ => true
  | .attendComplete _ => true
  | .waitExpired _ => true
  | .appendKv _ _ _ _ => true
  | .appendCommit _ => true
  | .frameRelease _ => true
  | .prefixLookup _ _ => true
  | .publish _ _ _ => true
  | .unpublish _ _ => true
  | .move _ _ _ => true
  | .flush _ => true
  | .flushInvalidate _ => true
  | .free _ => true
  | .handoff _ => true
  | .search _ _ => true
  | .searchDone _ _ => true
  | .shardTimeout _ => true
  | .create _ _ _ => true
  | .indexWrite _ _ => true
  | .tombstone _ _ => true
  | .drop _ _ => true
  | .queryIndex _ _ => true
  | .setEntry _ _ => true
  | .osierRun _ _ => true
  | .osierRunDone _ => true
  | .fence _ => true
  | .contextCreate _ _ => true
  | .contextRemove _ _ => true
  | .imageLoad _ _ => true
  | .imageUnload _ => true
  | .stageWrite _ _ => true
  | .stageCheck _ => true
  | .stageCommit _ => true
  | .stageAppend m => m.wf
  | .check m => m.wf
  | .commit m => m.wf
  | .stageClear m => m.wf
  | .commitApply => true
  | .generationRetired g => g < 65536
  | .mergeTimeout _ _ => true
  | .arrivalTimeout t a => t < 2 ^ 32 && a < 256
  | .shadowUnmatched t a h => t < 2 ^ 32 && a < 256 && h < 1024
  | .plaitIssue => true
  | .plaitResult => true
  | .quiesceRelease m => m.wf
  | .fabCmdLoad m c _ => m.wf && c < 4096
  | .fabCmdStore m c _ => m.wf && c < 4096
  | .fabCmdFetchAdd m c _ => m.wf && c < 4096
  | .fabCmdSwap m c _ => m.wf && c < 4096
  | .fabCmdCmpSwap m c _ => m.wf && c < 4096
  | .fabCmdFetchMin m c _ _ => m.wf && c < 4096
  | .fabCmdFetchMax m c _ _ => m.wf && c < 4096
  | .qpCreate m => m.wf
  | .qpReset m => m.wf
  | .qpDestroy m => m.wf
  | .register m => m.wf
  | .revoke m => m.wf
  | .shardAnswer _ _ _ => true
  | .windowOpen _ => true
  | .brakeAssert _ => true
  | .brakeDeassert _ => true
  | .brakeRelease => true
  | .sustainedBrakeEnter => true
  | .sustainedBrakeExit => true
  | .brakeAck m => m.wf
  | .lockLost => true
  | .drbgReseed => true
  | .rngHealthFail => true
  | .erase m _ _ => m.wf
  | .setCredential m => m.wf
  | .attest m => m.wf
  | .advanceSv m => m.wf
  | .secDataAccess m _ => m.wf
  | .fenceNode m => m.wf
  | .unfenceNode m => m.wf
  | .rebuildSend m => m.wf
  | .rebuildRecv m => m.wf
  | .shadowStart m => m.wf
  | .promote m => m.wf
  | .safe m c => m.wf && c < 65536
  | .canaryDue => true
  | .watchdogTimeout => true
  | .lockstepMismatch => true
  | .hourly => true
  | .tierFlush m _ => m.wf
  | .paritySweep bad _ => (bad.getD (0, 0)).1 < 2 ^ 56
  | .parityAddrRead m => m.wf
  | .svcDataRead m => m.wf
  | .sbRead _ => true
  | .sbReadFifo _ => true
  | .sbWrite _ => true
  | .sbResponse => true
  | .enec e => e < 256
  | .disec e => e < 256
  | .rstdaa => true
  | .getpid => true
  | .getbcr => true
  | .getdcr => true
  | .getstatus => true
  | .modPorNAssert => true
  | .pciePerstNRelease _ => true
  | .pageMoveStepEnd _ => true
  | .tierFlushDone => true
  | .eraseDone => true

end Sys2Proof
end

