-- ==== Sys2Proof/Machine/Recovery.lean ====
section
/-! DEFINITION. Fencing and rejoining by order of the fault manager, SHADOW, canaries, FENCED_SAFE and the hourly record
(16 R391 to R393, R402 to R417; 14 R337, R353). -/
namespace Sys2Proof.Machine
open Sys2Proof

/-! ### The node (R392, R393) -/

/-- The node enters FENCED and FAULT_STATUS.node is raised. -/
def fenceByOrder (s : State) : State := if s.fault.st = .fenced then s else raise (nodeFence s) Off.FAULT_STATUS 4

def fenceNode (m : Master) (s : State) : State := faultCmd s m 0 [] fun s => faultEnd (fenceByOrder s) St.OK

/-- FENCE_NODE (R392). -/
def execFenceNode (m : Master) (s : State) : Host.Outcome State Fault Refusal := .next (fenceNode m s)

/-- Queries of IN_DOUBT streams start again (03 R83). -/
def resumeStreams (s : State) : State :=
  { s with tier := { s.tier with streams := s.tier.streams.map fun (e : Nat × Stream) =>
                                   (e.1, if e.2.st = .inDoubt then { e.2 with queries := 0 } else e.2) } }

/-- The unit whose block a register instance lies in, as (kind, index) of 16 R389 with kind 1 for a die, index the die; kind 0 with
the block's number for a block that is the node's (18 R452). -/
def blockOwner (key : Nat) : Nat × Nat :=
  let off := key % 2 ^ 24
  let b := off / 0x10000
  if 0x10 ≤ b && b < 0x18 then (1, b - 0x10)
  else if 0x20 ≤ b && b < 0x40 then (3, b - 0x20)
  else if b = 0x40 then (5, off / 0x1000 % 16)
  else if 0x50 ≤ b && b < 0x56 then (6, (off - 0x500000) / 0x4000)
  else if 0x70 ≤ b && b < 0x73 then (6, (off - 0x700000) / 0x2000)
  else (0, b)

/-- The block that a unit of a kind and index lies in, as blockOwner names it. -/
def unitBlock (kind index : Nat) : Nat × Nat :=
  match kind with
  | 1 => (1, index / 16)
  | 2 => (1, index / 4)
  | 3 => (3, index)
  | 4 => (3, unitStack index)
  | 5 => (5, index)
  | 6 => (6, index)
  | 7 => (0, 3)
  | _ => (0, 0xA)

/-- A register instance of the block still fails its parity (18 R452). -/
def blockFails (s : State) (b : Nat × Nat) : Bool := s.regs.badParity.any fun k => blockOwner k == b

def unfenceNode (m : Master) (s : State) : State :=
  faultCmd s m 1 [] fun s =>
    if s.fault.st ≠ .fenced then faultEnd s St.OK
    else if s.regs.badParity.any (fun k => (blockOwner k).1 == 0) then faultEnd s St.FAULT_CMD_INVALID
    else if s.fault.cause = 0x31 || s.fault.cause = 0x32 then faultEnd s St.FAULT_CMD_INVALID
    else faultEnd (resumeStreams { s with fault := { s.fault with st := .run } }) St.OK

/-- UNFENCE_NODE (R392; 18 R452). -/
def execUnfenceNode (m : Master) (s : State) : Host.Outcome State Fault Refusal := .next (unfenceNode m s)

/-! ### Units (R391, R393, R409, R410) -/

/-- Kind and index name a unit (R389, R393). -/
def unitOk (kind index : Nat) : Bool := decide (index < unitCount kind)

/-- Canaries of a core are due no more. -/
def clearDue (s : State) (core : Nat) : State :=
  { s with fault := { s.fault with canary := { s.fault.canary with due := s.fault.canary.due.filter fun d => d.1 != core } } }

/-- Cores that a unit of kind core or cluster has. -/
def unitCores (kind index : Nat) : List Nat :=
  if kind = 1 then [index] else if kind = 2 then span (4 * index) (4 * index + 3) else []

def fenceUnit (m : Master) (kind index : Nat) (s : State) : State :=
  faultCmd s m 2 [(5, 4, kind), (9, 12, index)] fun s =>
    if !unitOk kind index then faultEnd s St.FAULT_CMD_INVALID
    else if unitFenced s kind index then faultEnd s St.OK
    else
      let s := raise (fenceUnitNow s kind index) Off.FAULT_STATUS 2
      faultEnd ((unitCores kind index).foldl clearDue s) St.OK

/-- FENCE_UNIT (R391, R393). -/
def execFenceUnit (m : Master) (kind index : Nat) (s : State) : Host.Outcome State Fault Refusal := .next (fenceUnit m kind index s)

/-- Units that carry a state epoch (R409). -/
def hasEpoch (kind : Nat) : Bool := kind == 1 || kind == 2 || kind == 3 || kind == 4 || kind == 6

/-- Work stamped with the older use of a unit's next epoch is outstanding (R409; 00 R11): requests the unit issued. -/
def epochStale (s : State) (kind index : Nat) : Bool :=
  s.fab.reqs.any fun e => e.2.unit == some (kind, index) && e.2.epoch == (epochOf s kind index + 1) % 256

def advanceEpoch (s : State) (kind index : Nat) : State :=
  if hasEpoch kind then
    { s with fault := { s.fault with epochs := tset 0 s.fault.epochs (kind * 4096 + index) ((epochOf s kind index + 1) % 256) } }
  else s

/-- The content of a dirty line that was dropped: what the DRAM held before, which only a COMPUTE region's line records (R410). -/
def loseLine (s : State) (l : Nat) : State :=
  let bs := (tfind s.mem.behind l).getD ((List.range 128).map fun i => Config.noise (l / 128) 4098 s.freeCtr (l % 128 * 128 + i))
  { s with freeCtr := s.freeCtr + 1, mem := { s.mem with cells := memWrite s.mem.cells (l * 128) bs } }

/-- The page-cache lines of a stack are dropped; dirty ones are counted as data_lost. -/
def dropStackCache (s : State) (i : Nat) : State :=
  let mine (p : Nat) : Bool := isHbm p && stackOf p == i
  let gone := (dirtyLines s).filter fun l => mine (l / 128)
  let s := forgetFrames (gone.foldl loseLine s) mine
  total s fun t => { t with lostLines := t.lostLines + gone.length }

/-- The rejoin of a unit loses dirty lines. -/
def losesLines (s : State) (kind index : Nat) : Bool :=
  kind == 3 && (dirtyLines s).any fun l => isHbm (l / 128) && stackOf (l / 128) == index

/-- The decode tables a core has in its port cache are gone. -/
def dropPortCache (s : State) (core : Nat) : State :=
  { s with attn := { s.attn with portCache := tdel s.attn.portCache core } }

/-- Step 1 of the rejoin: the unit's caches and stores (R410). -/
def clearUnit (s : State) (kind index : Nat) : State :=
  match kind with
  | 1 => dropPortCache s index
  | 2 =>
    let s := (unitCores 2 index).foldl dropPortCache s
    { s with attn := { s.attn with rim := tdel s.attn.rim index } }
  | 3 => dropStackCache s index
  | 4 => setUnit s index { unitOf s index with rows := [], prog := [], progOff := none }
  | 6 => setPort s index { portOf s index with replay := [] }
  | _ => s

/-- The fence of a unit is lifted. -/
def unfence (s : State) (kind index : Nat) : State :=
  match kind with
  | 1 => setCoreFenced s index false
  | 2 => setCluster s index .ready
  | 3 => setStack s index .ready
  | 4 => setUnit s index { unitOf s index with st := .idle, err := 0 }
  | 5 => setChannel s index .ready
  | 6 => setPort s index { portOf s index with fenced := false }
  | _ => { s with fault := { s.fault with fencedUnits := s.fault.fencedUnits.filter (· != kind * 4096 + index) } }

/-- Canaries a rejoin runs: all 8 on a core, pattern 7 on each core of a cluster (R410). -/
def rejoinCanaries (kind : Nat) : Nat := if kind = 1 then 8 else if kind = 2 then 4 else 0

/-- Canaries that a rejoin ran are counted, and debited as far as the window's units go (R407). -/
def countCanaries (s : State) (kind : Nat) (pass : Bool) : State :=
  let n := rejoinCanaries kind
  if n = 0 then s
  else
    let s := debit s (min s.ledger.remain (n * rf s Off.FAULT_CANARY_COST 0 16))
    let s := count s (ckey Off.FAULT_CNT_LO 4 0) n
    total s fun t => { t with canaryRuns := t.canaryRuns + n, canaryFails := t.canaryFails + b2n (!pass) }

/-- Units whose weft tables the rejoin reloads and whose canary it runs: core, cluster, stack, osier unit. -/
def hasTables (kind : Nat) : Bool := 1 ≤ kind && kind ≤ 4

/-- The rejoin sequence of a unit that is no port: true when it is READY at the end. The record of a failed one has data_lost set where
dirty lines were dropped (DEDUCED). -/
def rejoin (s : State) (kind index : Nat) (tablesOk canaryOk : Bool) : Bool × State :=
  let lost := losesLines s kind index
  let s := clearUnit (advanceEpoch s kind index) kind index
  let ok := !hasTables kind || (tablesOk && canaryOk)
  let s := if tablesOk then countCanaries s kind canaryOk else s
  if ok then (true, (unitCores kind index).foldl clearDue (unfence s kind index))
  else (false, faultReport s { source := 0x21, unitKind := kind, unitIndex := index, epoch := epochOf s kind index, flags := 4 + 2 * b2n lost })

/-- The rejoin of a port: it trains again, and the command stays busy until it is UP or has failed. -/
def rejoinLink (s : State) (p : Nat) : State :=
  let s := unfence (clearUnit (advanceEpoch s 6 p) 6 p) 6 p
  let s := { s with fault := { s.fault with busy := true, rejoin := some (6, p) } }
  if mayTrain s p then beginTraining s p else rejoinPort s p false

def rejoinUnit (m : Master) (kind index : Nat) (epochFree tablesOk canaryOk : Bool) (s : State) : State :=
  faultCmd s m 3 [(5, 4, kind), (9, 12, index)] fun s =>
    if !unitOk kind index || !unitFenced s kind index || blockFails s (unitBlock kind index) then faultEnd s St.FAULT_CMD_INVALID
    else if hasEpoch kind && (!epochFree || epochStale s kind index) then { s with fault := { s.fault with busy := true, rejoin := some (kind, index) } }
    else if kind = 6 then rejoinLink s index
    else
      let r := rejoin s kind index tablesOk canaryOk
      faultEnd r.2 (if r.1 then St.OK else St.REJOIN_FAILED)

/-- REJOIN_UNIT (R393, R409, R410; 18 R452). `epochFree` says that no work within the unit,
which the model does not hold, is outstanding with the older use of its next epoch. -/
def execRejoinUnit (m : Master) (kind index : Nat) (epochFree tablesOk canaryOk : Bool) (s : State) :
    Host.Outcome State Fault Refusal := .next (rejoinUnit m kind index epochFree tablesOk canaryOk s)

def epochWaitTimeout (kind index : Nat) (s : State) : State :=
  if s.fault.rejoin = some (kind, index) && unitFenced s kind index then
    faultEnd { s with fault := { s.fault with rejoin := none } } St.EPOCH_BUSY
  else s

/-- EPOCH_WAIT_TIMEOUT (R409). -/
def execEpochWaitTimeout (kind index : Nat) (s : State) : Host.Outcome State Fault Refusal := whileAlive s (epochWaitTimeout kind index s)

/-! ### SHADOW (R403, R405) -/

def shadowStart (m : Master) (s : State) : State :=
  faultCmd s m 6 [] fun s =>
    if s.fault.st = .run || s.fault.st = .shadow then
      faultEnd { s with fault := { s.fault with st := .shadow, shadow := {} } } St.OK
    else
      let f := free64 s
      faultEnd f.2 (f.1.toNat % 65536)

/-- SHADOW_START (R403). From FENCED the spec gives it no status: free, and the node stays FENCED (R392). -/
def execShadowStart (m : Master) (s : State) : Host.Outcome State Fault Refusal := .next (shadowStart m s)

def promote (m : Master) (s : State) : State :=
  faultCmd s m 7 [] fun s =>
    if s.fault.st = .shadow then faultEnd { s with fault := { s.fault with st := .run } } St.OK else faultEnd s St.SHADOW_STATE

/-- PROMOTE (R405). -/
def execPromote (m : Master) (s : State) : Host.Outcome State Fault Refusal := .next (promote m s)

/-! ### FENCED_SAFE (R411, R412; 14 R337, R353) -/

def safe (m : Master) (confirm : Nat) (s : State) : State :=
  faultCmd s m 8 [(16, 16, confirm)] fun s =>
    if confirm = 0x5AFE then enterSafe (faultEnd s St.OK) 0x43 else faultEnd s St.FAULT_CMD_INVALID

/-- SAFE (R393, R412). -/
def execSafe (m : Master) (confirm : Nat) (s : State) : Host.Outcome State Fault Refusal := .next (safe m confirm s)

/-- WATCHDOG_TIMEOUT (R411, R412). -/
def execWatchdogTimeout (s : State) : Host.Outcome State Fault Refusal := whileAlive s (enterSafe s 0x42)

/-- LOCKSTEP_MISMATCH (R411, R412). -/
def execLockstepMismatch (s : State) : Host.Outcome State Fault Refusal := whileAlive s (enterSafe s 0x42)

def lockLost (s : State) : State :=
  if !s.clk.locked then s
  else enterSafe (raise { s with clk := { s.clk with locked := false, fallback := true } } Off.CLK_EVT_STATUS 1) 0x40

/-- LOCK_LOST (14 R337). -/
def execLockLost (s : State) : Host.Outcome State Fault Refusal := whileAlive s (lockLost s)

/-- 115 degrees in units of 0.25 (14 R353). -/
def tripTemp : Nat := 460

def thermalTrip (sensor reading : Nat) (s : State) : State :=
  if reading < tripTemp then s
  else
    let t := min 1023 reading
    let x := tget {} s.therm.sensors sensor
    let s := { s with therm := { s.therm with sensors := tset {} s.therm.sensors sensor { x with temp := t },
                                              hottest := max s.therm.hottest t,
                                              hotSensor := if t > s.therm.hottest then sensor else s.therm.hotSensor } }
    let s := if s.pins.thermTrip then s else emit { s with pins := { s.pins with thermTrip := true } } (.pinThermTrip true)
    enterSafe s 0x41

/-- THERMAL_TRIP (14 R353). -/
def execThermalTrip (sensor reading : Nat) (s : State) : Host.Outcome State Fault Refusal := whileAlive s (thermalTrip sensor reading s)

/-! ### Canaries (R406 to R408) -/

def canaryDueEvent (s : State) : State :=
  if !rbit s Off.FAULT_CTRL 0 then s
  else
    let c := s.fault.canary
    let due := ((List.range 128).filter (coreReady s)).map fun k => (k, c.next)
    { s with fault := { s.fault with canary := { c with due := c.due ++ due, next := (c.next + 1) % 8 } } }

/-- CANARY_DUE (R407). -/
def execCanaryDue (s : State) : Host.Outcome State Fault Refusal := whileAlive s (canaryDueEvent s)

/-- A core still works for a step: an ATTEND whose pass on it has not ended. -/
def coreBusy (s : State) (core : Nat) : Bool :=
  s.weft.steps.any fun t => (t.kind == 1 && !t.coresDone.contains core || t.kind == 2) && usesCore s t core

/-- The canary of a core ends: the oldest pattern due on it. -/
def canaryDone (core : Nat) (pass : Bool) (s : State) : State :=
  let cost := rf s Off.FAULT_CANARY_COST 0 16
  match s.fault.canary.due.find? fun d => d.1 == core with
  | none => s
  | some d =>
    if coreBusy s core || braked s || coreFenced s core || s.ledger.remain < cost then s
    else
      let c := s.fault.canary
      let s := { s with fault := { s.fault with canary := { c with due := c.due.erase d, lastCore := core, lastPattern := d.2,
                                                                   lastFail := !pass } } }
      let s := count (debit s cost) (ckey Off.FAULT_CNT_LO 4 0) 1
      let s := total s fun t => { t with canaryRuns := t.canaryRuns + 1, canaryFails := t.canaryFails + b2n (!pass) }
      if pass then s
      else
        let s := unitFault s 0x20 1 core { pattern := d.2, variant := 0xFFFFFF00 + d.2 }
        clearDue (raise s Off.FAULT_STATUS 128) core

/-- CANARY_DONE (R407, R408). -/
def execCanaryDone (core : Nat) (pass : Bool) (s : State) : Host.Outcome State Fault Refusal := whileAlive s (canaryDone core pass s)

/-! ### HOURLY (R415, R417) -/

def hourlyBody (h : Totals) : Bytes :=
  h.bandSeconds.flatMap (svcField 4) ++ svcField 8 (h.energy / 1000000) ++ svcField 4 h.corrections ++ svcField 4 h.onDie ++ svcField 4 h.retrains ++
    svcField 4 h.replays ++ svcField 2 h.canaryRuns ++ svcField 2 h.canaryFails ++ svcField 2 h.hottest ++ svcField 2 h.brakes

def hourly (s : State) : State :=
  let h := s.svc.hour
  let s := { s with svc := { s.svc with seconds := s.svc.seconds + 3600 } }
  let s := svcWrite s 0x0003 (hourlyBody h)
  gradeEval { s with svc := { s.svc with hour := {}, trail := (h :: s.svc.trail).take 1000 } }

/-- HOURLY (R415, R417). -/
def execHourly (s : State) : Host.Outcome State Fault Refusal := whileAlive s (hourly s)

end Sys2Proof.Machine
end

