-- ==== Sys2Proof/Machine/Sleep.lean ====
section
/-! DEFINITION. Sleep and wake of clusters and stacks (14 R354 to R356). -/
namespace Sys2Proof.Machine
open Sys2Proof

/-- A status event that names a cluster (R358). -/
def clkEvent (s : State) (bit c : Nat) : State := raise s Off.CLK_EVT_STATUS (2 ^ bit) [(24, 6, c)]

/-- Sleeping clusters whose request bit is clear wake (R355). -/
def wakeClusters (s : State) : State :=
  (List.range 32).foldl (fun s c => if clusterSt s c = .sleep && !rbit s Off.CLK_CLUSTER_REQ c then setCluster s c .waking else s) s

/-- A write of CLK_CLUSTER_REQ in a view. -/
def clusterReqWrite (m : Master) (v : View) (data : Nat) (s : State) : State :=
  if !served s m Off.CLK_CLUSTER_REQ then (if inSafe s && m != .sideband then emit s .completerAbort else s)
  else match regAt Off.CLK_CLUSTER_REQ with
    | none => s
    | some r => wakeClusters (typedWrite s m v Off.CLK_CLUSTER_REQ r data)

/-- CLUSTER_REQ_WRITE (R354, R355, R362). -/
def execClusterReqWrite (m : Master) (v : View) (data : Nat) (s : State) : Host.Outcome State Fault Refusal :=
  .next (clusterReqWrite m v data s)

/-- No admitted step uses the cluster's cores and its rim-merge unit holds no record. -/
def clusterIdle (s : State) (c : Nat) : Bool :=
  !(s.weft.steps.any fun t => usesUnit s t 2 c) && (tget [] s.attn.rim c).isEmpty

def clusterSleep (c : Nat) (s : State) : State :=
  if clusterSt s c ≠ .ready || !rbit s Off.CLK_CLUSTER_REQ c || !clusterIdle s c then s
  else
    let s := clearUnit (setCluster s c .sleep) 2 c
    clkEvent ((unitCores 2 c).foldl clearDue s) 2 c

/-- CLUSTER_SLEEP (R354). -/
def execClusterSleep (cluster : Nat) (s : State) : Host.Outcome State Fault Refusal := whileAlive s (clusterSleep cluster s)

/-- Power has returned to a WAKING cluster: it rejoins (R355). -/
def clusterPowerUp (c : Nat) (tablesOk canaryOk : Bool) (s : State) : State :=
  if clusterSt s c ≠ .waking || epochStale s 2 c then s
  else
    let r := rejoin s 2 c tablesOk canaryOk
    if r.1 then clkEvent r.2 3 c else clkEvent (setCluster r.2 c .fenced) 1 c

/-- CLUSTER_POWER_UP (R355; 16 R410). -/
def execClusterPowerUp (cluster : Nat) (tablesOk canaryOk : Bool) (s : State) : Host.Outcome State Fault Refusal :=
  whileAlive s (clusterPowerUp cluster tablesOk canaryOk s)

/-- An osier run or step holds a unit of the stack. -/
def stackHeld (s : State) (i : Nat) : Bool := s.osier.units.any fun e => e.1 / 256 + 24 == i && e.2.run.isSome

/-- A sweep or a scrub of a region of the stack is under way. -/
def stackSweeps (s : State) (i : Nat) : Bool := s.osier.regions.any fun e => e.1 / 2 ^ 15 + 24 == i && (e.2.st == .sealing || e.2.scrubbing)

def stackSleep (i : Nat) (s : State) : State :=
  if stackSt s i ≠ .ready || !rbit s Off.CLK_STACK_SLEEP_EN i || stackHeld s i || stackSweeps s i then s
  else setStack s i .sleep

/-- STACK_SLEEP (R356). -/
def execStackSleep (stack : Nat) (s : State) : Host.Outcome State Fault Refusal := whileAlive s (stackSleep stack s)

/-- STACK_WAKE (R356). -/
def execStackWake (stack : Nat) (s : State) : Host.Outcome State Fault Refusal :=
  whileAlive s (if stackSt s stack = .sleep then setStack s stack .ready else s)

end Sys2Proof.Machine
end

