-- ==== Sys2Proof/Machine/Contexts.lean ====
section
/-! DEFINITION. Contexts: creation, removal, the residue scrub; the random source; crypto-erase (15 R359 to R377). -/
namespace Sys2Proof.Machine
open Sys2Proof

/-! ### Admin records (10 R259) -/

/-- The argument record of a privileged descriptor of a fixed length; another length completes COUNT_INVALID (R476). -/
def adminRecord (d : Desc) (hv : AddrView) (n : Nat) : Except Nat Bytes :=
  if d.recLen ≠ n then .error St.COUNT_INVALID
  else match hostRead hv d.recAddr n with
    | none => .error St.HOST_READ_ERROR
    | some b => .ok b

/-- An admin descriptor of a kind that may run: fetched on the admin ring, with no FENCE before it. -/
def adminDesc (s : State) (id kind : Nat) : Option Desc :=
  match findDesc s id with
  | none => none
  | some d => if d.kind = kind && d.ring = adminRing && descReady s d then some d else none

/-! ### CONTEXT_CREATE (R361) -/

/-- Registers of one context that start at zero: quotas and Coma seed. -/
def ctxRegs : List Nat :=
  [Off.TIER_QUOTA_HBM, Off.TIER_QUOTA_HBM + 4, Off.TIER_QUOTA_HBM + 8, Off.COMA_SEED_LO, Off.COMA_SEED_HI]

/-- Quotas at zero, policer disabled, Coma seed zero. -/
def resetCtxRegs (s : State) (c : Nat) : State :=
  let s := ctxRegs.foldl (fun s r => regPut s (rkey r c) 0) s
  let k := rkey Off.EGR_POL_RATE c
  regPut s k (putFld (regWord s k) 31 1 0)

/-- A context's policer as at reset: its registers, its bucket empty, nothing dropped (R375). -/
def resetPolicer (s : State) (c : Nat) : State :=
  let s := [Off.EGR_POL_RATE, Off.EGR_POL_BURST].foldl (fun s r => regPut s (rkey r c) (resetWord (rkey r c))) s
  setPolicer s c { stamp := s.clk.counter }

/-- The slice exists: in the current map, and in the staged one while a checked bank waits (17 R436). -/
def sliceExists (s : State) (n : Nat) : Bool := n < 16 && (sliceOf s n).enabled && (!bankHeld s || (stagedSlice s n).enabled)

/-- Draw the key pair of a slot; it becomes LIVE at its generation (R361, R364). -/
def drawKey (s : State) (slot : Nat) : State :=
  let r := draw s
  setKey r.2 slot { keySlot r.2 slot with st := .live, key := some r.1 }

def contextCreate (id : Nat) (hv : AddrView) (s : State) : State :=
  match adminDesc s id 0x40 with
  | none => s
  | some d => match adminRecord d hv 32 with
    | .error e => refuse s d e
    | .ok b =>
      let n := leAt b 0 2 % 4096
      let sl := leAt b 2 1 % 16
      if (ctxOf s n).st ≠ .free || (keySlot s n).st ≠ .empty then refuse s d St.CONTEXT_BUSY
      else if !sliceExists s sl then refuse s d St.CONTEXT_SLICE
      else if s.sec.rng ≠ .ok then refuse s d St.RNG_FAILED
      else
        let s := drawKey s n
        let s := resetCtxRegs (setCtx s n { st := .active, slice := sl, tenant := leAt b 4 4, salt := slice b 8 16 }) n
        let s := (List.range 24).foldl (fun s p => openFor s p n) s
        refuse s d St.OK 0 (putLe 2 (keySlot s n).gen)

/-- CONTEXT_CREATE (R361; 17 R436). -/
def execContextCreate (id : Nat) (hv : HostView) (s : State) : Host.Outcome State Fault Refusal := whileAlive s (contextCreate id (descView s id hv) s)

/-! ### Removal (R366, R374) -/

/-- Entry to RETIRING: the key is zeroed and the generation advances (R366). -/
def retireKey (s : State) (slot : Nat) : State :=
  setKey s slot { st := .retiring, gen := ((keySlot s slot).gen + 1) % 2 ^ 16, key := none }

/-- A port gives up a context's sessions: keys zeroed, SESSION_CLOSE queued, waiting frames dropped; with their number. -/
def closeSessions (c : Nat) (st : State × Nat) (p : Nat) : State × Nat :=
  let s := st.1
  let port := portOf s p
  let mine := port.sessions.filter fun e => e.1 != 0 && e.2.ctx == c
  let gone := (List.range 8).flatMap fun i => (classFrames (eport s p) i).filter fun f => f.ctx == c
  let waiting := port.held.countP (fun f => f.ctx == c) + gone.length
  let s := setPort s p { port with sessions := port.sessions.filter fun e => e.1 == 0 || e.2.ctx != c,
                                   held := port.held.filter fun f => f.ctx != c,
                                   replay := port.replay.map fun (x : SentFlit) => match x.frame with
                                     | some f => if f.ctx = c then { x with frame := none } else x
                                     | none => x }
  let s := (List.range 8).foldl (fun s i => putClass s p i ((classFrames (eport s p) i).filter fun f => f.ctx != c)) s
  let s := gone.foldl (fun s f => leaveRegion s f.region) s
  (mine.foldl (fun s e => sendControl s p 0xF7 (putLe 2 e.1 ++ zeros 6)) s, st.2 + waiting)

/-- Outstanding requests of a context give up their rtags, which are held as those that timed out; a FAB_CMD among them ends
with a status the spec does not name: free. -/
def freeRequests (s : State) (c : Nat) : State × Nat :=
  let mine (e : Nat × Req) : Bool := e.2.ctx == c && !e.2.held
  let n := s.fab.reqs.countP mine
  let cmd := s.fab.reqs.any fun e => mine e && e.2.src == .fabCmd
  let s := { s with fab := { s.fab with reqs := s.fab.reqs.map fun (e : Nat × Req) => (e.1, if mine e then { e.2 with held := true } else e.2) } }
  if cmd then
    let f := free64 s
    (fabEnd f.2 (f.1.toNat % 65536), n)
  else (s, n)

/-- Admitted steps of a context are cut; they post nothing. -/
def cutSteps (s : State) (c : Nat) : State × Nat :=
  let mine := s.weft.steps.filter fun t => t.ctx == c && t.desc.ring != adminRing
  (mine.foldl (fun s t =>
    let s := cutStep s t
    let g := ringOf s t.desc.ring
    if g.st = .disabled then s else setRing s t.desc.ring { g with reserved := g.reserved - 1 }) s, mine.length)

/-- Held packets for the context's queue pairs and its page-cache lines are dropped; dirty lines count. -/
def dropWorkOf (s : State) (c : Nat) : State × Nat :=
  let mineQ (f : Frame) : Bool := (qpOf s (tpOf f.body).dst).ctx == c && (qpOf s (tpOf f.body).dst).st != .free
  let held := s.qpe.hold.countP fun x => mineQ x.frame
  let dirty (p : Nat) : Bool := match tfind s.tier.frames p with
    | some i => i.ctx == c
    | none => (tget {} s.mem.tags p).slot == c
  let n := dirtyCount (s.tier.dirty.filter fun e => dirty e.1)
  let s := forgetFrames s dirty
  ({ s with qpe := { s.qpe with hold := s.qpe.hold.filter fun x => !mineQ x.frame },
            sec := { s.sec with drops := sat32 (s.sec.drops + held) } }, held + n)

/-- Region entries go to REVOKING, queue pairs become FREE (step 7). -/
def closeFabric (s : State) (c : Nat) : State :=
  let revoke' (e : Nat × RegEnt) : Nat × RegEnt :=
    (e.1, if e.2.ctx = c ∧ e.2.st = RegEntState.valid then { e.2 with st := .revoking } else e.2)
  let s : State := { s with fab := { s.fab with regions := s.fab.regions.map revoke' } }
  ((s.qpe.qps.filter fun e => e.2.ctx == c && e.2.st != .free).map (·.1)).foldl freeQp s

/-- Searches that peers asked on the context's queue pairs, and open queries of its own, end. -/
def dropQueries (s : State) (c : Nat) : State :=
  { s with coma := { s.coma with queries := s.coma.queries.filter fun q => q.ctx != c } }

/-- The removal of a context up to the point where its in-flight work drains (R374 steps 1 to 7). -/
def startRemoval (s : State) (c : Nat) (d : Desc) : State :=
  let s := setCtx s c { ctxOf s c with st := .removing, quiesced := false }
  let s := (s.hostq.fetched.filter fun e => e.ring == c).foldl (fun s e => refuse s e St.CONTEXT_ABSENT) s
  let s := retireKey s c
  let a := (List.range 24).foldl (closeSessions c) (s, 0)
  let b := freeRequests a.1 c
  let k := cutSteps b.1 c
  let handed := k.1.tier.scrub.length - b.1.tier.scrub.length
  let w := dropWorkOf k.1 c
  let s := dropQueries (closeFabric w.1 c) c
  setCtx s c { ctxOf s c with removal := some (d, a.2 + b.2 + k.2 + w.2, handed) }

def contextRemove (id : Nat) (hv : AddrView) (s : State) : State :=
  match adminDesc s id 0x41 with
  | none => s
  | some d => match adminRecord d hv 8 with
    | .error e => refuse s d e
    | .ok b =>
      let n := leAt b 0 2 % 4096
      match (ctxOf s n).st with
      | .free => refuse s d St.CONTEXT_ABSENT
      | .removing => refuse s d St.CONTEXT_BUSY
      | .active => startRemoval (dropDesc s id) n d

/-- CONTEXT_REMOVE (R374; 11 R287; 12 R302). -/
def execContextRemove (id : Nat) (hv : HostView) (s : State) : Host.Outcome State Fault Refusal := whileAlive s (contextRemove id (descView s id hv) s)

/-- Outstanding work of a slot (SEC_CTX_INFLIGHT): admitted steps, fabric requests, searches, and accesses into its regions. -/
def slotWork (s : State) (c : Nat) : Nat :=
  s.weft.steps.countP (fun t => t.ctx == c && t.desc.ring != adminRing) + outstanding s (fun r => r.ctx == c) +
    s.coma.queries.countP (fun q => q.ctx == c) + ((s.fab.regions.filter fun e => e.2.ctx == c).map fun e => e.2.inflight).sum

/-- The deletes of the residue scrub: one for each bank of the slice (R375). -/
def residueDeletes (s : State) (c : Nat) : List POp :=
  (maskBits 64 (sliceOf s (ctxOf s c).slice).banks.toNat).map fun b =>
    { kind := .delete, banks := 1#64 <<< b, owner := c, anyPrio := true, src := .residue c, gen := s.map.gen }

def slotScrubStart (c : Nat) (s : State) : State :=
  if (keySlot s c).st ≠ .retiring || (ctxOf s c).st ≠ .removing || slotWork s c ≠ 0 then s
  else
    let s := setKey s c { keySlot s c with st := .scrubbing }
    (residueDeletes s c).foldl enqueueOp s

/-- SLOT_SCRUB_START (R365, R374, R375). -/
def execSlotScrubStart (ctx : Nat) (s : State) : Host.Outcome State Fault Refusal := whileAlive s (slotScrubStart ctx s)

/-! ### The residue scrub (R375) -/

/-- A residue delete of the context is queued or in flight. -/
def residueBusy (s : State) (c : Nat) : Bool :=
  (s.plait.updateQ ++ s.plait.waiting).any (fun o => o.src == .residue c) || s.plait.inflight.any fun r => r.op.src == .residue c

/-- Owned COMPUTE regions are zeroed and belong to nobody (07 R172). -/
def freeRegions (s : State) (c : Nat) : State :=
  (s.osier.regions.filter fun e => e.2.owner == some c).foldl (fun s e =>
    let stack := e.1 / 2 ^ 15 + 24
    let s := zeroRegion s stack (e.1 % 2 ^ 15)
    setRegion s e.1 { regionSt s e.1 with owner := none, run := none, scrubbing := false }) s

/-- Groups of the context end with it (DESIGN CHOICE: the spec does not say what becomes of them). -/
def endGroups (s : State) (c : Nat) : State :=
  { s with fault := { s.fault with groups := s.fault.groups.filter fun e => grpCtx s e.1 != c } }

/-- Everything the context owned is freed; its frames go to the scrub. -/
def scrubResidue (s : State) (c : Nat) : State × Nat :=
  let frames := (s.tier.frames.filter fun e => e.2.ctx == c).map (·.1)
  let s := freeRegions s c
  let s := releaseFrames s frames
  let s := endGroups s c
  let s := { s with
    coma := { s.coma with indexes := s.coma.indexes.filter fun e => e.2.ctx != c },
    fab := { s.fab with regions := (s.fab.regions.map fun (e : Nat × RegEnt) =>
                                      (e.1, if e.2.ctx = c && e.2.st != .free then { gen := e.2.gen } else e.2)).filter fun e => e.2 != {} },
    tier := { s.tier with
      streams := s.tier.streams.filter fun e => e.2.ctx != c,
      pfx := s.tier.pfx.filter fun e => e.2.ctx != c || e.2.st == .freed,
      old := (s.tier.old.map fun (o : OldFrames) => { o with frames := o.frames.filter fun p => !frames.contains p }).filter fun o => !o.frames.isEmpty,
      unbound := s.tier.unbound.filter fun e => e.1 != c,
      remoteUsed := tdel s.tier.remoteUsed c } }
  (resetPolicer (resetCtxRegs s c) c, frames.length)

def contextRemoveDone (c : Nat) (s : State) : State :=
  let x := ctxOf s c
  if (keySlot s c).st ≠ .scrubbing || x.st ≠ .removing || residueBusy s c then s
  else
    let r := scrubResidue s c
    let s := setKey r.1 c { keySlot r.1 c with st := .empty, key := none }
    let s := raise (setCtx s c {}) Off.SEC_STATUS 8
    match x.removal with
    | some (d, dropped, handed) => complete s d St.OK 0 (putLe 4 dropped ++ putLe 4 (handed + r.2))
    | none => s

/-- CONTEXT_REMOVE_DONE (R375). -/
def execContextRemoveDone (ctx : Nat) (s : State) : Host.Outcome State Fault Refusal := whileAlive s (contextRemoveDone ctx s)

/-! ### The random source (R363) -/

def drbgReseed (s : State) : State :=
  if s.sec.rng ≠ .ok then s else { s with sec := { s.sec with reseeds := min 65535 (s.sec.reseeds + 1) } }

/-- DRBG_RESEED (R363). -/
def execDrbgReseed (s : State) : Host.Outcome State Fault Refusal := whileAlive s (drbgReseed s)

def rngHealthFail (s : State) : State :=
  if s.sec.rng = .failed || inSafe s then s
  else nodeFault (raise { s with sec := { s.sec with rng := .failed } } Off.SEC_STATUS 1) 0x31

/-- RNG_HEALTH_FAIL (R363; 16 R387). -/
def execRngHealthFail (s : State) : Host.Outcome State Fault Refusal := whileAlive s (rngHealthFail s)

/-! ### SEC_CMD and ERASE (R377, R384) -/

def secEnd (s : State) (status : Nat) : State := { s with sec := { s.sec with status := status, busy := false } }

/-- A command of SEC_CMD: one issued while another runs completes SEC_BUSY and does nothing else. -/
def secCmd (s : State) (m : Master) (op : Nat) (puts : List (Nat × Nat × Nat)) (run : State → State) : State :=
  regCmd s m Off.SEC_CMD ([(0, 1, 1), (1, 3, op)] ++ puts) fun s =>
    if s.sec.busy then { s with sec := { s.sec with status := St.SEC_BUSY } } else run s

/-- The memory controllers are READY: the node is past its boot sequence (R377; 17 R422). -/
def memUp (s : State) : Bool := setUp s

/-- Loaded images retire; a load under way ends with a status the spec does not name: free. -/
def unloadAll (s : State) : State × Nat :=
  let loaded := (s.weft.handles.filter fun e => e.2.st == .loaded).map (·.1)
  let loading := s.weft.handles.filter fun e => e.2.st == .loading
  let s := loaded.foldl (fun s h => setHandle s h { handleOf s h with st := .retiring }) s
  let s := loading.foldl (fun s e =>
    let s := setHandle s e.1 {}
    match e.2.loading with
    | some (id, _, _, _) => match findDesc s id with
      | some d =>
        let f := free64 s
        refuse f.2 d (f.1.toNat % 65536)
      | none => s
    | none => s) s
  (s, loaded.length)

/-- Steps 1 to 4 of ERASE. -/
def eraseStart (s : State) (full keep : Bool) : State :=
  let s := regPut s Off.WEFT_CTRL (putFld (regWord s Off.WEFT_CTRL) 0 1 0)
  let live := (s.sec.ctxs.filter fun e => e.2.st == .active).map (·.1)
  let s := live.foldl (fun s c => startRemoval s c { ring := noRing }) s
  let u := unloadAll s
  let s := retireKey u.1 nodeSlot
  let s := if s.sec.rng = .ok then drawKey s nodeSlot else s
  { s with sec := { s.sec with busy := true, erasing := some (full, keep, live.length, u.2) } }

def erase (m : Master) (full keep : Bool) (s : State) : State :=
  secCmd s m 0 [(16, 1, b2n full), (17, 1, b2n keep)] fun s =>
    if memUp s then eraseStart s full keep
    else
      let f := free64 s
      secEnd f.2 (f.1.toNat % 65536)

/-- ERASE (R377). Without READY memory controllers the spec gives it no status: free. -/
def execErase (m : Master) (fullOverwrite keepKeys : Bool) (s : State) : Host.Outcome State Fault Refusal :=
  .next (erase m fullOverwrite keepKeys s)

/-- Every COMPUTE region is zeroed. -/
def zeroCompute (s : State) : State :=
  (s.osier.regions.filter fun e => e.2.st != .prot).foldl (fun s e => zeroRegion s (e.1 / 2 ^ 15 + 24) (e.1 % 2 ^ 15)) s

/-- Every frame is zeroed at full rate; what waited for its scrub has it. -/
def overwriteAll (s : State) : State :=
  { s with mem := { s.mem with cells := [], tags := [] }, tier := { s.tier with scrub := [] } }

def eraseDone (s : State) : State :=
  match s.sec.erasing with
  | none => s
  | some (full, keep, ctxs, images) =>
    if s.sec.ctxs.any fun e => e.2.st == .removing then s
    else
      let s := ((s.weft.handles.filter fun e => e.2.st == .retiring).map (·.1)).foldl dropImage s
      let s := zeroCompute { s with
        tier := { s.tier with dirty := [], flushBusy := false },
        mem := { s.mem with behind := [] },
        plait := { s.plait with banks := [], searchQ := [], updateQ := [], waiting := [], inflight := [], busy := false },
        coma := { s.coma with indexes := [], queries := [] } }
      let s := { s with sec := { s.sec with store := if keep then s.sec.store else [], cred := [], erasing := none } }
      let s := if full then overwriteAll s else s
      let s := total s fun t => { t with erases := t.erases + 1 }
      let s := svcWrite s 0x0006 (putLe 1 (b2n full) ++ putLe 1 (b2n keep) ++ putLe 2 ctxs ++ putLe 2 images)
      raise (secEnd s St.OK) Off.SEC_STATUS 16

/-- ERASE_DONE (R377; 16 R415). -/
def execEraseDone (s : State) : Host.Outcome State Fault Refusal := whileAlive s (eraseDone s)

end Sys2Proof.Machine
end

