-- ==== Sys2Proof/Machine/Security.lean ====
section
/-! DEFINITION. The SEC_DATA buffer, the enrolled keys, the credential, attestation and the fused minimum (15 R378 to R384). -/
namespace Sys2Proof.Machine
open Sys2Proof

/-! ### SEC_DATA (R384) -/

/-- A word of the 16 KiB buffer. -/
def bufWord (s : State) (i : Nat) : Nat := (tget 0 s.sec.buf (i % 4096)).toNat

def putBufWord (s : State) (i w : Nat) : State :=
  { s with sec := { s.sec with buf := tset 0 s.sec.buf (i % 4096) (BitVec.ofNat 32 w) } }

/-- The first `n` bytes of the buffer. -/
def bufBytes (s : State) (n : Nat) : Bytes := ((List.range (cdiv n 4)).flatMap fun i => putLe 4 (bufWord s i)).take n

/-- Bytes written into the buffer from its first word on. -/
def putBuf (s : State) (bs : Bytes) : State := (List.range (cdiv bs.length 4)).foldl (fun s i => putBufWord s i (leAt bs (4 * i) 4)) s

/-- The master's SEC_DATA_INDEX advances by one (18 R447). -/
def stepIndex (s : State) (m : Master) : State :=
  selPut s m Off.SEC_DATA_INDEX (putFld (selWord s m Off.SEC_DATA_INDEX) 0 12 (selNum s m Off.SEC_DATA_INDEX + 1))

/-- One access to SEC_DATA: a read answers the word, a write of a privileged master stores it; either advances the index. -/
def secDataAccess (m : Master) (w : Option Nat) (s : State) : State :=
  let i := selNum s m Off.SEC_DATA_INDEX
  if !served s m Off.SEC_DATA then (if inSafe s && m != .sideband then emit s .completerAbort else s)
  else match w with
    | none => stepIndex (emit s (.readData (BitVec.ofNat 32 (if privileged s m then bufWord s i else 0)))) m
    | some v =>
      if privileged s m then stepIndex (putBufWord s i v) m else stepIndex (guardRefuse s 1 0 Off.SEC_DATA) m

/-- SEC_DATA_ACCESS (R362, R384). -/
def execSecDataAccess (m : Master) (w : Option Nat) (s : State) : Host.Outcome State Fault Refusal := .next (secDataAccess m w s)

/-! ### Enrolled keys (R380) -/

/-- A KEY_CHANGE entry (16 R415); its op is the code of the SEC_CMD operation. -/
def keyChange (s : State) (op entry roles id : Nat) : State :=
  svcWrite s 0x0007 (putLe 1 op ++ putLe 1 entry ++ putLe 1 roles ++ zeros 1 ++ putLe 4 id)

def setKeyEnt (s : State) (i : Nat) (k : KeyEnt) : State := { s with sec := { s.sec with store := tset {} s.sec.store i k } }

/-- Where ENROL_KEY puts a modulus: on the entry with its identifier, else on the entry named; none when the store is full. -/
def enrolPlace (s : State) (entry : Nat) (modulus : Bytes) : Option Nat :=
  match lowest 8 fun i => (keyEnt s i).valid && keyId (keyEnt s i).modulus == keyId modulus with
  | some i => some i
  | none => if (List.range 8).all fun i => (keyEnt s i).valid then none else some (entry % 8)

def enrolKey (m : Master) (entry roles : Nat) (s : State) : State :=
  secCmd s m 1 [(8, 3, entry), (12, 2, roles)] fun s =>
    let n := bufBytes s 384
    if !bitOf (leAt n 0 1) 7 then secEnd s St.BLOB_BAD
    else match enrolPlace s entry n with
      | none => secEnd s St.KEY_STORE_FULL
      | some i => secEnd (keyChange (setKeyEnt s i { valid := true, roles := roles % 4, modulus := n }) 1 i (roles % 4) (keyId n)) St.OK

/-- ENROL_KEY (R380, R384). -/
def execEnrolKey (m : Master) (entry roles : Nat) (s : State) : Host.Outcome State Fault Refusal := .next (enrolKey m entry roles s)

def removeKey (m : Master) (entry : Nat) (s : State) : State :=
  secCmd s m 2 [(8, 3, entry)] fun s =>
    let i := entry % 8
    let k := keyEnt s i
    if k.valid then secEnd (keyChange (setKeyEnt s i {}) 2 i k.roles (keyId k.modulus)) St.OK else secEnd s St.KEY_ABSENT

/-- REMOVE_KEY (R380, R384). -/
def execRemoveKey (m : Master) (entry : Nat) (s : State) : Host.Outcome State Fault Refusal := .next (removeKey m entry s)

def setCredential (m : Master) (s : State) : State :=
  secCmd s m 3 [] fun s =>
    let b := bufBytes s 424
    if leAt b 0 2 % 2 ^ 14 ≠ nodeNum s then secEnd s St.BLOB_BAD else secEnd { s with sec := { s.sec with cred := b } } St.OK

/-- SET_CREDENTIAL (R370, R384). -/
def execSetCredential (m : Master) (s : State) : Host.Outcome State Fault Refusal := .next (setCredential m s)

/-! ### Measurements and attestation (R382, R383) -/

/-- Measurement of the enrolled keys: role byte and modulus of each entry in index order. -/
def keysMeasurement (s : State) : Bytes :=
  sha256 ((List.range 8).flatMap fun i =>
    let k := keyEnt s i
    if k.valid then putLe 1 k.roles ++ k.modulus else [])

/-- Handles that stand in the report: LOADED and RETIRING, rising. -/
def reportHandles (s : State) : List (Nat × Handle) := s.weft.handles.filter fun e => e.2.st == .loaded || e.2.st == .retiring

def reportEntry (e : Nat × Handle) : Bytes :=
  putLe 1 e.1 ++ putLe 1 (if e.2.st = .loaded then 2 else 3) ++ zeros 2 ++ putLe 4 e.2.img.modelId ++ putLe 8 e.2.img.buildId ++ fit 32 e.2.digest

/-- SHA-256 of the newest service record entry; zeros for an empty record. -/
def headHash (s : State) : Bytes :=
  match s.svc.entries with
  | e :: _ => sha256 e.bytes
  | [] => zeros 32

/-- The report before its signature. -/
def attestBody (s : State) : Bytes :=
  let hs := reportHandles s
  putLe 4 0x53545441 ++ putLe 2 1 ++ putLe 2 hs.length ++ putLe 4 (256 + 48 * hs.length + 384) ++ zeros 4 ++ bufBytes s 32 ++
    (List.range 16).map Config.serial ++ putLe 2 0x3200 ++ putLe 1 0xB0 ++ zeros 1 ++ putLe 2 (nodeNum s) ++ zeros 2 ++
    putLe 8 s.clk.counter ++ (List.range 32).map Config.romMeasurement ++ sha256 s.boot.image ++ putLe 4 s.boot.vitatuSv ++
    putLe 4 s.boot.minSv ++ keysMeasurement s ++ (List.range 32).map Config.identityFingerprint ++ headHash s ++
    putLe 8 s.weft.loads ++ hs.flatMap reportEntry

/-- The signed report, and the state after the draw of its salt. -/
def attestReport (s : State) : Bytes × State :=
  let b := attestBody s
  let r := draw s
  (b ++ (List.range 384).map (Config.identitySign b r.1), r.2)

def attest (m : Master) (s : State) : State :=
  secCmd s m 4 [] fun s =>
    let a := rpair s Off.SEC_ATTEST_ADDR_LO / 64 * 64
    let r := attestReport s
    if a = 0 then secEnd (putBuf r.2 r.1) St.OK else secEnd (emitAs r.2 0 (.hostWrite 0 a r.1 false)) St.OK

/-- ATTEST (R383). -/
def execAttest (m : Master) (s : State) : Host.Outcome State Fault Refusal := .next (attest m s)

def advanceSv (m : Master) (s : State) : State :=
  secCmd s m 5 [] fun s => secEnd { s with boot := { s.boot with minSv := max s.boot.minSv s.boot.vitatuSv } } St.OK

/-- ADVANCE_SV (R381). -/
def execAdvanceSv (m : Master) (s : State) : Host.Outcome State Fault Refusal := .next (advanceSv m s)

end Sys2Proof.Machine
end

