-- ==== Sys2Proof/Machine/Stage.lean ====
section
/-! DEFINITION. The stage bank, CHECK, COMMIT and the map generations (17 R429 to R439). -/
namespace Sys2Proof.Machine
open Sys2Proof

/-! ### Stage entries (R433, R434) -/

/-- The entry names a known item, an index in range and a value within its field (R433, R434). -/
def entryOk (e : StageEnt) : Bool :=
  let v := e.value.toNat
  if e.item = 1 then e.index < 16 && v < 2
  else if e.item = 2 || e.item = 3 then e.index < 16 && v < 2 ^ 32
  else if e.item = 4 then e.index < 32 && (e.index % 2 = 0 || v < 2 ^ 32)
  else if e.item = 5 then e.index < 16 && v < 2 ^ 16
  else if e.item = 6 then e.index < 16 && v < 2 ^ 24
  else if e.item = 7 then e.index < 16
  else if e.item = 0x10 then e.index < 4096 && v < 16
  else if 0x11 ≤ e.item && e.item ≤ 0x13 then e.index < 4096 && v < 2 ^ 32
  else e.item = 0x20 && e.index = 0 && v < 4096

def sameItem (a b : StageEnt) : Bool := a.item == b.item && a.index == b.index

/-- Add an entry; one of the same item and index is replaced. -/
def bankAdd (bank : List StageEnt) (e : StageEnt) : List StageEnt :=
  if bank.any (sameItem e) then bank.map fun x => if sameItem e x then e else x else bank ++ [e]

/-- Entries the bank holds at most. -/
def bankLimit : Nat := 8192

/-- A write of entries: refused whole, or added whole. -/
def stageAdd (s : State) (es : List StageEnt) : Nat × State :=
  if bankHeld s then (St.STAGE_LOCKED, s)
  else if !es.all entryOk then (St.STAGE_ENTRY_BAD, s)
  else
    let bank := es.foldl bankAdd s.map.bank
    if bank.length > bankLimit then (St.STAGE_FULL, s)
    else (St.OK, { s with map := { s.map with bank := bank, bankSt := if es.isEmpty then s.map.bankSt else .opened } })

/-- The status of a stage command, by register or descriptor. -/
def stageStatus (r : Nat × State) : State := { r.2 with map := { r.2.map with status := r.1 } }

/-- A stage command of a descriptor: it completes with its status. -/
def stageDesc (d : Desc) (r : Nat × State) : State := refuse (stageStatus r) d r.1

/-- An entry of 16 bytes. -/
def parseEntry (b : Bytes) : StageEnt := { item := leAt b 0 2, index := leAt b 4 4, value := BitVec.ofNat 64 (leAt b 8 8) }

def stageWrite (id : Nat) (hv : AddrView) (s : State) : State :=
  match adminDesc s id 0x44 with
  | none => s
  | some d =>
    if bankHeld s then stageDesc d (St.STAGE_LOCKED, s)
    else if d.recLen = 0 || d.recLen % 16 ≠ 0 then stageDesc d (St.STAGE_ENTRY_BAD, s)
    else match hostRead hv d.recAddr d.recLen with
      | none => refuse s d St.HOST_READ_ERROR
      | some b => stageDesc d (stageAdd s ((chunks 16 b).map parseEntry))

/-- STAGE_WRITE (R434). -/
def execStageWrite (id : Nat) (hv : HostView) (s : State) : Host.Outcome State Fault Refusal := whileAlive s (stageWrite id (descView s id hv) s)

/-! ### CHECK (R435) -/

/-- A rule that fails: status, resource kind and index, context, bank entry. -/
structure CheckFail where
  status : Nat := 0
  kind : Nat := 0
  index : Nat := 0
  ctx : Option Nat := none
  entry : Nat := 0x3FFF
deriving DecidableEq, Repr

/-- The first resource of a kind that fails. -/
def firstBad (n : Nat) (bad : Nat → Bool) : Option Nat := (List.range n).find? bad

/-- The enabled slices of a map that hold a resource. -/
def holders (sl : Nat → Slice) (has : Slice → Bool) : List Nat := (List.range 16).filter fun n => (sl n).enabled && has (sl n)

/-- Rule 2: a resource in two enabled slices, or a stack both whole and quartered. -/
def overlap (sl : Nat → Slice) : Option (Nat × Nat) :=
  let twice (has : Slice → Bool) : Bool := (holders sl has).length > 1
  let tests : List (Nat × Option Nat) := [
    (1, firstBad 32 fun i => twice fun x => x.clusters.getLsbD i),
    (2, firstBad 32 fun i => twice (fun x => x.stackSet.getLsbD i) ||
      (i < 24 && !(holders sl fun x => x.stackSet.getLsbD i).isEmpty &&
        !(holders sl fun x => (span (4 * i) (4 * i + 3)).any fun q => x.quarters.getLsbD q).isEmpty)),
    (3, firstBad 96 fun i => twice fun x => x.quarters.getLsbD i),
    (4, firstBad 16 fun i => twice fun x => x.channels.getLsbD i),
    (5, firstBad 24 fun i => twice fun x => x.ports.getLsbD i),
    (6, firstBad 64 fun i => twice fun x => x.banks.getLsbD i)]
  tests.findSome? fun t => t.2.map fun i => (t.1, i)

/-- The enabled slice that holds a frame. -/
def frameSlice (sl : Nat → Slice) (pfn : Nat) : Option Nat := (holders sl fun x => sliceHolds x pfn).head?
def bankSlice (sl : Nat → Slice) (b : Nat) : Option Nat := (holders sl fun x => x.banks.getLsbD b).head?
def stackSlice (sl : Nat → Slice) (i : Nat) : Option Nat := (holders sl fun x => x.stackSet.getLsbD i).head?

/-- Resource a frame lies in, as CHECK names it: whole stack, quarter or channel. -/
def frameResource (s : State) (pfn : Nat) : Nat × Nat :=
  if !isHbm pfn then (4, channelOf pfn)
  else if stackOf pfn < 24 && ((List.range 16).any fun n => (sliceOf s n).quarters.getLsbD (4 * stackOf pfn + pfn / 2 ^ 20 % 4)) then
    (3, 4 * stackOf pfn + pfn / 2 ^ 20 % 4)
  else (2, stackOf pfn)

/-- Owners of Plait entries, with their banks. -/
def bankOwners (s : State) : List (Nat × Nat) :=
  s.plait.banks.flatMap fun e =>
    (((e.2.placed.filter (·.valid)).map (·.owner) ++ e.2.staged.filterMap fun x => x.map (·.owner)).eraseDups).map fun o => (e.1, o)

/-- Owned COMPUTE regions, as stack and owner. -/
def regionOwners (s : State) : List (Nat × Nat) := s.osier.regions.filterMap fun e => e.2.owner.map fun c => (e.1 / 2 ^ 15 + 24, c)

/-- Rule 4: frames follow their context. -/
def frameStays (s : State) (now staged : Nat → Slice) (e : Nat × FrameInfo) : Bool :=
  let a := frameSlice now e.1
  let b := frameSlice staged e.1
  a == b || (match b with
    | some n => stagedCtxSlice s e.2.ctx == n
    | none => e.2.ctx ≥ 4096 && isNodeFrame s e.1)

/-- Rules 5: entries and regions follow their context. -/
def ownerStays (s : State) (a b : Option Nat) (c : Nat) : Bool := a == b || b == some (stagedCtxSlice s c)

def rebound (s : State) (c : Nat) : Bool := (ctxOf s c).st != .free && stagedCtxSlice s c != (ctxOf s c).slice

/-- Position of the bank entry of an item and index; 0x3FFF where there is none. -/
def entryNo (s : State) (item index : Nat) : Nat :=
  match (s.map.bank.zipIdx.find? fun e => e.1.item == item && e.1.index == index) with
  | some e => e.2
  | none => 0x3FFF

/-- The rules in order; the first that fails. -/
def checkMap (s : State) : Option CheckFail :=
  let now (n : Nat) : Slice := sliceOf s n
  let slices := (List.range 16).map (stagedSlice s)
  let staged (n : Nat) : Slice := slices.getD n {}
  let r1 : Option CheckFail := if setUp s then none else some { status := St.BOOT_NOT_READY }
  let r2 : Option CheckFail := (overlap staged).map fun x => { status := St.MAP_OVERLAP, kind := x.1, index := x.2 }
  let r3 : Option CheckFail := (s.sec.ctxs.find? fun e => e.2.st == .active && !(staged (stagedCtxSlice s e.1)).enabled).map fun e =>
    { status := St.MAP_CONTEXT_SLICE, kind := 7, index := e.1, ctx := some e.1, entry := entryNo s 0x10 e.1 }
  let use (kind index c : Nat) : CheckFail := { status := St.MAP_IN_USE, kind := kind, index := index, ctx := some c }
  let r4 : Option CheckFail := (s.tier.frames.find? fun e => !frameStays s now staged e).map fun e =>
    use (frameResource s e.1).1 (frameResource s e.1).2 e.2.ctx
  let r5a : Option CheckFail := ((bankOwners s).find? fun e => !ownerStays s (bankSlice now e.1) (bankSlice staged e.1) e.2).map fun e => use 6 e.1 e.2
  let r5b : Option CheckFail := ((regionOwners s).find? fun e => !ownerStays s (stackSlice now e.1) (stackSlice staged e.1) e.2).map fun e => use 2 e.1 e.2
  let r6 : Option CheckFail :=
    match s.tier.frames.find? fun e => rebound s e.2.ctx && frameSlice staged e.1 != some (stagedCtxSlice s e.2.ctx) with
    | some e => some (use (frameResource s e.1).1 (frameResource s e.1).2 e.2.ctx)
    | none => match (bankOwners s).find? fun e => rebound s e.2 && bankSlice staged e.1 != some (stagedCtxSlice s e.2) with
      | some e => some (use 6 e.1 e.2)
      | none => ((regionOwners s).find? fun e => rebound s e.2 && stackSlice staged e.1 != some (stagedCtxSlice s e.2)).map fun e => use 2 e.1 e.2
  let r7 : Option CheckFail := (s.tier.frames.find? fun e => e.2.ctx < 4096 && isNodeFrame s e.1).map fun e =>
    { status := St.MAP_NODE_FRAMES, kind := (frameResource s e.1).1, index := (frameResource s e.1).2, ctx := some e.2.ctx }
  let r8 : Option CheckFail := if s.map.older.length < 3 then none else some { status := St.MAP_DRAINING }
  [r1, r2, r3, r4, r5a, r5b, r6, r7, r8].findSome? id

/-- An event of COMMIT_STATUS; it carries the entries in the bank, in eighths (R439). -/
def commitEvent (s : State) (bit : Nat) : State := raise s Off.COMMIT_STATUS (2 ^ bit) [(21, 11, s.map.bank.length / 8)]

/-- What a failing rule leaves in COMMIT_CHECK_INFO and COMMIT_CHECK_CTX. -/
def noteCheck (s : State) (f : CheckFail) : State :=
  { s with map := { s.map with infoEntry := f.entry, infoKind := f.kind, infoIndex := f.index, ctxNamed := f.ctx } }

/-- The state of a bank that is not checked. -/
def bankOpen (s : State) : BankState := if s.map.bank.isEmpty then .empty else .opened

/-- CHECK of the staged map. -/
def checkBank (s : State) : Nat × State :=
  if s.map.bankSt = .committing then (St.STAGE_LOCKED, s)
  else match checkMap s with
    | some f => (f.status, commitEvent (noteCheck { s with map := { s.map with bankSt := bankOpen s } } f) 1)
    | none => (St.OK, { s with map := { s.map with bankSt := .checked } })

def stageCheck (id : Nat) (s : State) : State :=
  match adminDesc s id 0x45 with
  | none => s
  | some d => stageDesc d (checkBank s)

/-- STAGE_CHECK (R435). -/
def execStageCheck (id : Nat) (s : State) : Host.Outcome State Fault Refusal := whileAlive s (stageCheck id s)

/-! ### COMMIT (R437, R438) -/

/-- COMMIT: a recheck, then COMMITTING until COMMIT_APPLY. -/
def commitBank (s : State) : Nat × State :=
  match s.map.bankSt with
  | .committing => (St.STAGE_LOCKED, s)
  | .checked => match checkMap s with
    | some f => (St.COMMIT_STALE, commitEvent (noteCheck { s with map := { s.map with bankSt := bankOpen s } } f) 1)
    | none => (St.OK, { s with map := { s.map with bankSt := .committing } })
  | _ => (St.NOT_CHECKED, s)

def stageCommit (id : Nat) (s : State) : State :=
  match adminDesc s id 0x46 with
  | none => s
  | some d => stageDesc d (commitBank s)

/-- STAGE_COMMIT (R437). -/
def execStageCommit (id : Nat) (s : State) : Host.Outcome State Fault Refusal := whileAlive s (stageCommit id s)

/-- One item of the bank that is not part of a slice takes effect. -/
def applyItem (s : State) (e : StageEnt) : State :=
  let v := e.value.toNat
  if e.item = 0x10 then
    (if (ctxOf s e.index).st = .free then s else setCtx s e.index { ctxOf s e.index with slice := v })
  else if 0x11 ≤ e.item && e.item ≤ 0x13 then regPut s (rkey (Off.TIER_QUOTA_HBM + 4 * (e.item - 0x11)) e.index) v
  else if e.item = 0x20 then applyFall (regPut s Off.LEDGER_BUDGET (putFld (regWord s Off.LEDGER_BUDGET) 0 12 v))
  else s

/-- Sessions follow the new map: those on ports that left their context's slice are closed, missing ones opened. -/
def moveSessions (s : State) (p : Nat) : State :=
  let cs := portContexts s p
  let port := portOf s p
  let mark (e : Nat × Session) : Nat × Session := (e.1, if e.1 ≠ 0 && !cs.contains e.2.ctx then { e.2 with closing := true } else e.2)
  let s := closeLeft (setPort s p { port with sessions := port.sessions.map mark }) p
  cs.foldl (fun s c => openFor s p c) s

/-- The staged map takes effect in cycle t_c. -/
def commitApply (s : State) : State :=
  if s.map.bankSt ≠ .committing then s
  else
    let bank := s.map.bank
    let slices := (List.range 16).foldl (fun (t : Tbl Slice) n => tset {} t n (stagedSlice s n)) []
    let s := { s with map := { s.map with slices := slices, gen := (s.map.gen + 1) % 2 ^ 16, older := s.map.gen :: s.map.older,
                                          bank := [], bankSt := .empty } }
    let s := bank.foldl applyItem s
    let s := { s with boot := { s.boot with st := if s.boot.st = .setup then .run else s.boot.st } }
    let s := (List.range 24).foldl moveSessions s
    commitEvent s 0

/-- COMMIT_APPLY (R437, R438). -/
def execCommitApply (s : State) : Host.Outcome State Fault Refusal := whileAlive s (commitApply s)

/-- Work stamped with a generation: steps, Plait operations, reservations that no step holds (R432). -/
def genWork (s : State) (g : Nat) : Nat :=
  s.weft.steps.countP (fun t => t.mapGen == g || t.portions.any fun q => q.gen == g) + (s.plait.searchQ ++ s.plait.updateQ ++ s.plait.waiting).countP (fun o => o.gen == g) +
    s.plait.inflight.countP (fun r => r.op.gen == g) + s.tier.frames.countP fun e => e.2.use == .reserved && e.2.mapGen == g

def generationRetired (g : Nat) (s : State) : State :=
  if !s.map.older.contains g || genWork s g ≠ 0 then s
  else commitEvent { s with map := { s.map with older := s.map.older.filter (· != g) } } 2

/-- GENERATION_RETIRED (R432). -/
def execGenerationRetired (gen : Nat) (s : State) : Host.Outcome State Fault Refusal := whileAlive s (generationRetired gen s)

/-! ### COMMIT_CMD (R434, R439) -/

/-- A command of COMMIT_CMD writes its status. -/
def commitCmd (s : State) (m : Master) (op : Nat) (run : State → Nat × State) : State :=
  regCmd s m Off.COMMIT_CMD [(0, 1, 1), (1, 2, op)] fun s => stageStatus (run s)

/-- The entry in the staging registers. -/
def stagedEntry (s : State) : StageEnt :=
  { item := rf s Off.COMMIT_STAGE_ITEM 0 16, index := regWord s Off.COMMIT_STAGE_INDEX,
    value := BitVec.ofNat 64 (rpair s Off.COMMIT_STAGE_VALUE_LO) }

/-- STAGE_APPEND (R434). -/
def execStageAppend (m : Master) (s : State) : Host.Outcome State Fault Refusal :=
  .next (commitCmd s m 0 fun s => stageAdd s [stagedEntry s])

/-- CHECK (R435). -/
def execCheck (m : Master) (s : State) : Host.Outcome State Fault Refusal := .next (commitCmd s m 1 checkBank)

/-- COMMIT (R437). -/
def execCommit (m : Master) (s : State) : Host.Outcome State Fault Refusal := .next (commitCmd s m 2 commitBank)

/-- CLEAR empties the bank in any state but COMMITTING (R434). -/
def clearBank (s : State) : Nat × State :=
  if s.map.bankSt = .committing then (St.STAGE_LOCKED, s) else (St.OK, { s with map := { s.map with bank := [], bankSt := .empty } })

/-- STAGE_CLEAR (R434). -/
def execStageClear (m : Master) (s : State) : Host.Outcome State Fault Refusal := .next (commitCmd s m 3 clearBank)

end Sys2Proof.Machine
end

