-- ==== Sys2Proof/Machine/Boot.lean ====
section
/-! DEFINITION. The resets: the power-on sequence, the node reset, RECOVERY, and the reset pins (17 R421 to R426; 18 R455;
19 R466 to R469). -/
namespace Sys2Proof.Machine
open Sys2Proof

/-! ### The phases (R422) -/

/-- The boot ROM's check of the Vitatu image: its security version, or the cause COMMIT_BOOT names (15 R381; R439). -/
def verifyImage (s : State) (flashOk : Bool) : Except Nat Nat :=
  if !flashOk then .error 4
  else if s.boot.image.isEmpty then .error 1
  else match Config.vitatuVersion s.boot.image with
    | none => .error 2
    | some v => if v < s.boot.minSv then .error 3 else .ok v

/-- The node is held in RECOVERY: memory untrained, no port trained (R426). -/
def enterRecovery (s : State) (cause : Nat) : State :=
  let s := { s with boot := { s.boot with st := .recovery, cause := cause },
                    mem := { s.mem with stackSet := [], channels := [], dimms := [], gib := [] } }
  raise s Off.COMMIT_STATUS 8

/-- Phase 4: the identity key is unwrapped and checked, or derived again (15 R379). -/
def identityPhase (s : State) (ok : Bool) : State :=
  let s := { s with boot := { s.boot with st := .identity } }
  if ok then s else raise s Off.SEC_STATUS 32

/-- Phase 5: the DRBG is instantiated and the node slot drawn LIVE (15 R363, R364). A source that has FAILED stays so. -/
def drbgPhase (s : State) (ok : Bool) : State :=
  if s.sec.rng = .failed then s
  else if ok then drawKey { s with sec := { s.sec with rng := .ok } } nodeSlot
  else rngHealthFail s

/-- A stack trains, or is fenced with a UNIT record (R424). -/
def trainStack (ok : BitVec 32) (s : State) (i : Nat) : State :=
  if ok.getLsbD i then setStack s i .ready else unitFault s 0x22 3 i { flags := 2 }

/-- A board channel trains; one without a DIMM stays OFF (R424; 18 R460). -/
def trainChannel (o : BootObs) (s : State) (n : Nat) : State :=
  let k := o.dimms.getD n 0
  if k = 0 then s
  else
    let s := { s with mem := { s.mem with dimms := tset 0 s.mem.dimms n k, gib := tset 0 s.mem.gib n (o.gib.getD n 0) } }
    if o.channelsOk.getLsbD n then setChannel s n .ready else raise (setChannel s n .fenced) (Off.DDR_ECC_STATUS n) 4

/-- Phase 6. -/
def trainPhase (s : State) (o : BootObs) : State :=
  let s := { s with boot := { s.boot with st := .training } }
  (List.range 16).foldl (trainChannel o) ((List.range 32).foldl (trainStack o.stacksOk) s)

/-- Every core runs all 8 patterns: a core that fails one is fenced with a UNIT record (R424; 16 R406, R408). -/
def canaryPhase (s : State) (fails : List (Nat × Nat)) : State :=
  let s := { s with boot := { s.boot with st := .canary } }
  let s := (List.range 32).foldl (fun s c => setCluster s c .ready) s
  let s := count s (ckey Off.FAULT_CNT_LO 4 0) 1024
  let s := total s fun t => { t with canaryRuns := t.canaryRuns + 1024, canaryFails := t.canaryFails + fails.length }
  fails.foldl (fun s f =>
    raise (unitFault s 0x20 1 f.1 { pattern := f.2, variant := 0xFFFFFF00 + f.2 }) Off.FAULT_STATUS 128) s

/-- The newest SEAL of the record, where no SEAL_ATTESTED stands after it. -/
def openSeal (s : State) : Option SvcEntry :=
  match s.svc.entries.find? fun e => e.type = 8 || e.type = 9 with
  | some e => if e.type = 8 then some e else none
  | none => none

/-- SEAL_ATTESTED at the first boot after a SEAL (16 R415). -/
def attestSeal (s : State) : State :=
  match openSeal s with
  | some e => svcWrite s 0x0009 (putLe 8 e.index ++ putLe 1 0)
  | none => s

/-- The BOOT entry (16 R415). -/
def bootEntry (s : State) : State :=
  let s := { s with boot := { s.boot with boots := s.boot.boots + 1 } }
  let s := total s fun t => { t with boots := t.boots + 1 }
  svcWrite s 0x0002 ((List.range 16).map Config.romMeasurement ++ (sha256 s.boot.image).take 16 ++ putLe 4 s.boot.vitatuSv ++
    putLe 4 s.boot.boots)

/-- Phase 8: the node waits for set-up. -/
def setupPhase (s : State) : State := raise { s with boot := { s.boot with st := .setup } } Off.COMMIT_STATUS 16

/-- Phases 3 to 8, with phase 6 where memory is not trained. -/
def bootFrom3 (s : State) (o : BootObs) : State :=
  let s := { s with boot := { s.boot with st := .verify, cause := 0 } }
  match verifyImage s o.flashOk with
  | .error c => enterRecovery s c
  | .ok v =>
    let s := { s with boot := { s.boot with vitatuSv := v } }
    let s := drbgPhase (identityPhase s o.identityOk) o.entropyOk
    let s := if s.mem.stackSet.isEmpty then trainPhase s o else s
    setupPhase (bootEntry (attestSeal (canaryPhase s o.canaryFail)))

/-! ### Power-on reset (R421, R422; 18 R455; 19 R467) -/

/-- Everything volatile is at its reset value; flash, fuses and the levels of the input pins stand. -/
def coldState (s : State) (por : Bool) : State :=
  { State.reset with pending := s.pending, out := s.out, freeCtr := s.freeCtr, rngCtr := s.rngCtr, svc := s.svc,
                     pins := { por := por, perst := s.pins.perst, brake := s.pins.brake },
                     brake := { input := s.brake.input, st := if s.brake.input then .braked else .idle },
                     boot := { image := s.boot.image, minSv := s.boot.minSv, boots := s.boot.boots },
                     sec := { store := s.sec.store, cred := s.sec.cred } }

/-- THERM_TRIP_N is released (14 R353). -/
def releaseTrip (was : Bool) (s : State) : State := if was then emit s (.pinThermTrip false) else s

/-- The record without its newest entry, where another stands behind it. A half left empty was just erased: the full half is
the active one again. -/
def dropTorn (v : Svc) : Svc :=
  if v.entries.length < 2 then v
  else { v with entries := v.entries.drop 1, used := if v.used ≤ 1 then svcHalf else v.used - 1, nextIndex := v.nextIndex - 1 }

/-- Grade and rule of the newest GRADE entry; grade A where the record holds none (16 R415, R418). -/
def recordGrade (v : Svc) : Nat × Nat :=
  match v.entries.find? fun e => e.type = 0x000B with
  | some e => (leAt e.body 1 1, leAt e.body 2 1)
  | none => (0, 0)

/-- Phase 1: the always-on domain discards an entry that does not verify at the head, and reads the head entry and the newest
GRADE entry (16 R418; 19 R469). Whether the record verifies (16 R416) bears on every later grade (R417). -/
def recordPhase (o : BootObs) (s : State) : State :=
  let v := if o.torn then dropTorn s.svc else s.svc
  let g := recordGrade v
  { s with svc := { v with grade := g.1, rule := g.2, broken := !o.chainOk } }

def powerOnReset (o : BootObs) (s : State) : State :=
  if s.pins.por then s
  else
    let s := recordPhase o (releaseTrip s.pins.thermTrip (coldState s true))
    if !o.rails then { s with boot := { s.boot with held := true } }
    else bootFrom3 { s with clk := { locked := true } } o

/-- POWER_ON_RESET (R422, R424; 16 R418; 19 R467, R469). -/
def execPowerOnReset (o : BootObs) (s : State) : Host.Outcome State Fault Refusal := .next (powerOnReset o s)

def modPorNAssert (s : State) : State := releaseTrip s.pins.thermTrip (coldState s false)

/-- MOD_POR_N_ASSERT (R421; 19 R466, R468). -/
def execModPorNAssert (s : State) : Host.Outcome State Fault Refusal := .next (modPorNAssert s)

/-! ### Node reset (R423; 15 R364; 18 R455) -/

/-- Registers that a node reset leaves alone (18 R455). -/
def keptReg (key : Nat) : Bool := key == Off.GLOBAL_MGMT_RID || key == Off.FAULT_WDOG

/-- A key slot at a node reset (15 R364). -/
def resetSlot (e : Nat × KeySlot) : Nat × KeySlot :=
  (e.1, { e.2 with st := .empty, key := none,
                   gen := if e.2.st = .empty || e.1 = nodeSlot then e.2.gen else (e.2.gen + 1) % 2 ^ 16 })

/-- Frames under the node slot's old key: its generation does not change, its key does, so they lie under no key there is. -/
def orphanTag (e : Nat × EncTag) : Nat × EncTag := (e.1, if e.2.slot = nodeSlot then { slot := 4098, gen := 0 } else e.2)

/-- The register file after a node reset. -/
def resetRegs (r : Regs) : Regs :=
  { store := r.store.filter fun e => keptReg e.1, badParity := r.badParity.filter fun k => keptReg k || k % 2 ^ 24 = Off.FAULT_SVC_INDEX,
    selPcie := r.selPcie.filter fun e => e.1 = Off.FAULT_SVC_INDEX, selSb := r.selSb.filter fun e => e.1 = Off.FAULT_SVC_INDEX }

/-- The effects of a node reset at its assertion. -/
def resetNode (s : State) (kind : Nat) : State :=
  { s with
    regs := resetRegs s.regs, hostq := { interval := 250 },
    weft := { loads := s.weft.loads },
    tier := { retired := s.tier.retired ++ (s.tier.frames.filter fun e => e.2.retired).map (·.1) },
    mem := { s.mem with tags := s.mem.tags.map orphanTag, eccPfn := [], lostAt := [] },
    plait := {}, attn := {}, osier := {}, coma := {}, ports := [], fab := {}, qpe := {}, egr := { since := s.clk.counter }, ledger := {},
    brake := { st := s.brake.st, input := s.brake.input },
    therm := { sensors := s.therm.sensors, band := s.therm.band, hottest := s.therm.hottest, hotSensor := s.therm.hotSensor },
    sec := { keys := (s.sec.keys.map resetSlot).filter fun e => e.2 != {}, rng := s.sec.rng, reseeds := s.sec.reseeds, store := s.sec.store, cred := s.sec.cred },
    fault := { st := s.fault.st, cause := s.fault.cause, retired := s.fault.retired },
    map := {}, sb := { s.sb with lastSummary := false },
    boot := { s.boot with st := .verify, resetKind := kind, nodeResets := min 0xFFFF (s.boot.nodeResets + 1) } }

/-- No node reset starts: MOD_POR_N is low, the node is held for want of rails, or only a power-on reset leaves its state
(16 R412). -/
def noNodeReset (s : State) : Bool := !s.pins.por || s.boot.held || inSafe s

def nodeReset (flr : Bool) (o : BootObs) (s : State) : State :=
  if !s.pins.perst then s
  else if flr then (if noNodeReset s then s else bootFrom3 (resetNode s 2) o)
  else
    let s := { s with pins := { s.pins with perst := false } }
    if noNodeReset s then s else resetNode s 1

/-- NODE_RESET (R421, R423). An FLR runs the phases at once; PCIE_PERST_N low holds them until it rises. -/
def execNodeReset (flr : Bool) (o : BootObs) (s : State) : Host.Outcome State Fault Refusal := .next (nodeReset flr o s)

def pciePerstNRelease (o : BootObs) (s : State) : State :=
  if s.pins.perst then s
  else
    let s := { s with pins := { s.pins with perst := true } }
    if noNodeReset s || s.boot.st ≠ .verify then s else bootFrom3 s o

/-- PCIE_PERST_N_RELEASE (R423, R425). -/
def execPciePerstNRelease (o : BootObs) (s : State) : Host.Outcome State Fault Refusal := .next (pciePerstNRelease o s)

/-! ### RECOVERY (R426) -/

/-- The image of a LOAD, where it is not too long and the host read succeeds. -/
def recoveryImage (s : State) (hv : AddrView) : Option Bytes :=
  let n := rf s Off.COMMIT_RECOVERY_LEN 0 23
  if n > 0x400000 then none else hostRead hv (rpair s Off.COMMIT_RECOVERY_ADDR_LO / 4096 * 4096) n

def recoveryLoad (m : Master) (hv : AddrView) (o : BootObs) (s : State) : State :=
  regCmd s m Off.COMMIT_RECOVERY_CMD [(0, 1, 1)] fun s =>
    if s.boot.st ≠ .recovery || m = .sideband then s
    else
      let bad := { s with map := { s.map with recStatus := St.RECOVERY_IMAGE_BAD } }
      match recoveryImage s hv with
      | none => bad
      | some b =>
        let t := { s with boot := { s.boot with image := b } }
        match verifyImage t true with
        | .error _ => bad
        | .ok _ => bootFrom3 { t with map := { t.map with recStatus := St.OK } } o

/-- RECOVERY_LOAD (R426). The board controller cannot load an image. -/
def execRecoveryLoad (m : Master) (hv : HostView) (o : BootObs) (s : State) : Host.Outcome State Fault Refusal :=
  .next (recoveryLoad m (fnView hv 0) o s)

end Sys2Proof.Machine
end

