-- ==== Sys2Proof/Machine/Plait.lean ====
section
/-! DEFINITION. The Plait store: match order, inserts, deletes, the pipeline, the shift engines and entry parity; prefix lookups,
publishes and unpublishes (03 R72 to R79; spec 09). -/
namespace Sys2Proof.Machine
open Sys2Proof

/-! ### Banks and matches (R223, R224, R230) -/

def bankOf (s : State) (b : Nat) : Bank := tget {} s.plait.banks b
def setBank (s : State) (b : Nat) (v : Bank) : State := { s with plait := { s.plait with banks := tset {} s.plait.banks b v } }

def bankEntries (k : Bank) : Nat := k.placed.countP (·.valid) + k.staged.countP Option.isSome
def bankFull (k : Bank) : Bool := 65536 ≤ bankEntries k
def stagingFull (k : Bank) : Bool := k.staged.all Option.isSome

/-- The entry takes part in a search of the operation. -/
def PEntry.hits (e : PEntry) (o : POp) : Bool :=
  e.valid && ((e.key ^^^ o.key) &&& o.mask) == 0 && e.owner == o.owner && (e.kind == o.ekind || o.src.isResidue)

/-- Banks of an operation's mask, rising. -/
def POp.bankList (o : POp) : List Nat := maskBits 64 o.banks.toNat

/-- A match: bank, position and entry. A staged insert stands at 65,536 plus its register. -/
structure PMatch where
  bank : Nat
  pos : Nat
  e : PEntry

def bankMatches (s : State) (o : POp) (b : Nat) : List PMatch :=
  let k := bankOf s b
  (k.placed.zipIdx.filterMap fun x => if x.1.hits o then some { bank := b, pos := x.2, e := x.1 } else none) ++
    k.staged.zipIdx.filterMap fun x => match x.1 with
      | some e => if e.hits o then some { bank := b, pos := 65536 + x.2, e := e } else none
      | none => none

def PMatch.before (a b : PMatch) : Bool :=
  a.e.prio < b.e.prio || (a.e.prio = b.e.prio && (a.bank < b.bank || (a.bank = b.bank && a.pos < b.pos)))

/-- All matches in the order of R230. -/
def ranked (s : State) (o : POp) : List PMatch := sortBy PMatch.before (o.bankList.flatMap (bankMatches s o))

/-- The cursor of a match (R231). -/
def cursorOf (s : State) (x : PMatch) : BitVec 64 :=
  BitVec.ofNat 64 (x.e.prio % 2 ^ 16 + x.bank * 2 ^ 16 + x.pos * 2 ^ 22 + s.plait.updates % 2 ^ 24 * 2 ^ 39)

/-- The match stands strictly after a cursor. -/
def afterCursor (c : Nat) (x : PMatch) : Bool :=
  let p := fld c 0 16
  let b := fld c 16 6
  let n := fld c 22 17
  p < x.e.prio || (p = x.e.prio && (b < x.bank || (b = x.bank && n < x.pos)))

/-! ### Events and parity (R238, R239) -/

def plaitEvent (s : State) (bit bank : Nat) : State := raise s Off.PLAIT_STATUS (2 ^ bit) [(24, 6, bank)]

def pcount (s : State) (ev n : Nat) : State := count s (ckey Off.PLAIT_CNT_LO ev 0) n

/-- Change the entry at a position. -/
def setEntryAt (s : State) (b pos : Nat) (e : Option PEntry) : State :=
  let k := bankOf s b
  if pos ≥ 65536 then setBank s b { k with staged := k.staged.set (pos - 65536) e }
  else match e with
    | some e => setBank s b { k with placed := k.placed.set pos e }
    | none => s

/-- An entry whose parity fails is invalid from now on; the failure is counted and reported as CORRECTED (R238). -/
def parityFail (s : State) (b pos : Nat) (e : PEntry) : State :=
  let s := setEntryAt s b pos (some { e with valid := false })
  let s := pcount s 7 1
  let s := { s with plait := { s.plait with errPos := pos, errBank := b } }
  plaitEvent (faultReport s { source := 0x04 }) 1 b

/-! ### What an operation does in its issue slot (R229 to R235) -/

/-- Result of a search from its ranked matches. -/
def hitResult (s : State) (o : POp) (xs : List PMatch) : PRes × State :=
  match xs with
  | [] => ({ op := o }, s)
  | x :: rest =>
    if !x.e.parityOk then ({ op := o }, parityFail s x.bank x.pos x.e)
    else
      let s := pcount s 1 1
      let s := if rest.isEmpty then s else pcount s 2 1
      ({ op := o, hit := true, multiple := !rest.isEmpty, bank := x.bank, pos := x.pos, prio := x.e.prio, value := x.e.value,
         cursor := cursorOf s x }, s)

def doSearch (s : State) (o : POp) : PRes × State := hitResult s o (ranked s o)

def doNext (s : State) (o : POp) : PRes × State :=
  let c := o.cursor.toNat
  let r := hitResult s o ((ranked s o).filter (afterCursor c))
  ({ r.1 with moved := fld c 39 24 != s.plait.updates % 2 ^ 24 }, r.2)

def updated (s : State) : State := { s with plait := { s.plait with updates := (s.plait.updates + 1) % 2 ^ 64 } }

/-- The bank an insert goes to: the masked bank with the fewest entries, ties to the lower number (R232). -/
def insertBank (s : State) (o : POp) : Option Nat :=
  (o.bankList.filter fun b => !bankFull (bankOf s b)).foldl (fun (best : Option Nat) b => match best with
    | none => some b
    | some c => if bankEntries (bankOf s b) < bankEntries (bankOf s c) then some b else some c) none

def entryOfOp (o : POp) : PEntry := { key := o.key, prio := o.prio, value := o.value, owner := o.owner, kind := o.ekind }

def insertInto (s : State) (o : POp) (b : Nat) : PRes × State :=
  let k := bankOf s b
  let r := (k.staged.findIdx? Option.isNone).getD 0
  let s := setBank s b { k with staged := k.staged.set r (some (entryOfOp o)), work := k.work ++ [.place r] }
  ({ op := o, bank := b, prio := o.prio }, pcount (updated s) 3 1)

def doInsert (s : State) (o : POp) : PRes × State :=
  match insertBank s o with
  | none => ({ op := o, status := 1 }, plaitEvent s 0 (o.bankList.headD 0))
  | some b => insertInto s o b

/-- The first entry a unique insert meets: its key, owner and kind compared exactly. -/
def uniqueHit (s : State) (o : POp) : Option PMatch := (ranked s { o with mask := BitVec.allOnes 128 }).head?

/-- A unique insert; a hit on an entry whose parity fails is a miss (R233, R238). -/
def doInsertUnique (s : State) (o : POp) : PRes × State :=
  match uniqueHit s o with
  | some x =>
    if x.e.parityOk then ({ op := o, status := 2, bank := x.bank, prio := x.e.prio }, s)
    else doInsert (parityFail s x.bank x.pos x.e) o
  | none => doInsert s o

/-- The entry falls to a delete. -/
def deletes (o : POp) (e : PEntry) : Bool := e.hits o && (o.anyPrio || e.prio == o.prio)

/-- A delete in one bank: a staged insert leaves its register, a placed entry leaves a gap for the shift engine (R234). -/
def deleteIn (s : State) (o : POp) (b : Nat) : List (BitVec 48) × State :=
  let k := bankOf s b
  let del (x : Option PEntry) : Bool := match x with
    | some e => deletes o e
    | none => false
  let regs := (k.staged.zipIdx.filter fun x => del x.1).map (·.2)
  let placed := k.placed.filter (deletes o)
  let gone := placed.map (·.value) ++ (k.staged.filterMap fun x => if del x then x.map (·.value) else none)
  if gone.isEmpty then ([], s)
  else
    let work := k.work.filter fun w => match w with
      | .place r => !regs.contains r
      | .close _ => true
    let gap := s.plait.updates + 1
    (gone, setBank s b { placed := k.placed.map fun e => if deletes o e then { e with valid := false, gap := gap } else e,
                         staged := k.staged.map fun x => if del x then none else x,
                         work := if placed.isEmpty then work else work ++ [.close gap] })

def doDelete (s : State) (o : POp) : PRes × State :=
  let r := o.bankList.foldl (fun (st : List (BitVec 48) × State) b =>
    let x := deleteIn st.2 o b
    (st.1 ++ x.1, x.2)) ([], s)
  if r.1.isEmpty then ({ op := o, status := 3 }, r.2)
  else ({ op := o, value := BitVec.ofNat 48 r.1.length, gone := r.1 }, pcount (updated r.2) 4 1)

/-- An operation in its slot. -/
def perform (s : State) (o : POp) : PRes × State :=
  if o.banks = 0 then ({ op := o, status := 4 }, s)
  else match o.kind with
    | .search => doSearch (pcount (pcount s 0 1) 6 o.bankList.length) o
    | .next => doNext (pcount (pcount s 0 1) 6 o.bankList.length) o
    | .insert => doInsert s o
    | .insertUnique => doInsertUnique s o
    | .delete => doDelete s o

/-- An update waits for staging registers: an insert for those of its bank, a delete for those of every bank of its mask (R235). -/
def stalls (s : State) (o : POp) : Option Nat :=
  match o.kind with
  | .delete => o.bankList.find? fun b => stagingFull (bankOf s b)
  | .insert => (insertBank s o).bind fun b => if stagingFull (bankOf s b) then some b else none
  | .insertUnique =>
    if (uniqueHit s o).any fun x => x.e.parityOk then none
    else (insertBank s o).bind fun b => if stagingFull (bankOf s b) then some b else none
  | _ => none

/-! ### Issue (R228) -/

/-- An operation leaves its queue and enters the pipeline. -/
def issueOp (s : State) (o : POp) (upd : Bool) : State :=
  let s := { s with plait := { s.plait with
               lastUpdate := upd,
               searchQ := if upd then s.plait.searchQ else s.plait.searchQ.tail,
               updateQ := if upd then s.plait.updateQ.tail else s.plait.updateQ } }
  let r := perform s o
  { r.2 with plait := { r.2.plait with inflight := r.2.plait.inflight ++ [r.1] } }

/-- A search or cursor step issues. -/
def issueSearch (s : State) (o : POp) : State := issueOp s o false

/-- The slot when the head of the update queue has its turn: a stalled update lets a search go. -/
def issueUpdate (s : State) (u : POp) : State :=
  match stalls s u with
  | none => issueOp s u true
  | some b =>
    let s := plaitEvent (pcount s 5 1) 2 b
    match s.plait.searchQ with
    | o :: _ => issueOp s o false
    | [] => s

/-- One issue slot; operations that wait for a queue then take the room. -/
def plaitIssue (s : State) : State :=
  settleOps (match s.plait.searchQ, s.plait.updateQ with
    | [], [] => s
    | o :: _, [] => issueSearch s o
    | [], u :: _ => issueUpdate s u
    | o :: _, u :: _ => if s.plait.lastUpdate then issueSearch s o else issueUpdate s u)

/-- PLAIT_ISSUE (R228 to R235). -/
def execPlaitIssue (s : State) : Host.Outcome State Fault Refusal := whileAlive s (plaitIssue s)

/-! ### Shift engines (R232 to R235) -/

/-- Place an entry after the last one of equal or lower priority value (R224). -/
def placeEntry (es : List PEntry) (e : PEntry) : List PEntry :=
  es.takeWhile (fun x => x.prio ≤ e.prio) ++ e :: es.dropWhile fun x => x.prio ≤ e.prio

/-- The entry leaves with a close: a gap of that delete, or an entry whose parity failed (DESIGN CHOICE: no rule says when the
position of such an entry closes). -/
def PEntry.closes (e : PEntry) (gap : Nat) : Bool := !e.valid && (e.gap == gap || e.gap == 0)

def shiftDone (b : Nat) (s : State) : State :=
  let k := bankOf s b
  match k.work with
  | [] => s
  | .close gap :: w => setBank s b { k with placed := k.placed.filter (fun e => !e.closes gap), work := w }
  | .place r :: w => match k.staged.getD r none with
    | none => setBank s b { k with work := w }
    | some e => setBank s b { placed := placeEntry k.placed e, staged := k.staged.set r none, work := w }

/-- SHIFT_DONE (R224, R232, R234, R235). -/
def execShiftDone (bank : Nat) (s : State) : Host.Outcome State Fault Refusal := whileAlive s (shiftDone bank s)

/-- The entry at a position, placed or staged. -/
def entryOn (s : State) (b pos : Nat) : Option PEntry :=
  if pos ≥ 65536 then (bankOf s b).staged.getD (pos - 65536) none else (bankOf s b).placed[pos]?

/-- The entry at a position has been disturbed since it was written: its parity no longer holds. -/
def upsetEntry (s : State) (x : Nat × Nat) : State :=
  match entryOn s x.1 x.2 with
  | some e => setEntryAt s x.1 x.2 (some { e with parityOk := false })
  | none => s

/-- The sweep checks one entry of an idle bank. -/
def sweepAt (s : State) (b pos : Nat) : State :=
  if !rbit s Off.PLAIT_CTRL 1 || !(bankOf s b).work.isEmpty then s
  else match (bankOf s b).placed[pos]? with
    | none => s
    | some e => if e.valid && !e.parityOk then parityFail s b pos e else s

def plaitParitySweep (b : Nat) (o : SweepObs) (s : State) : State := sweepAt (o.upsets.foldl upsetEntry s) b o.pos

/-- PLAIT_PARITY_SWEEP (R238). What has been disturbed comes with it; an operation that meets a disturbed entry first puts it out. -/
def execPlaitParitySweep (bank : Nat) (o : SweepObs) (s : State) : Host.Outcome State Fault Refusal :=
  whileAlive s (plaitParitySweep bank o s)

/-! ### Commands from the registers (R239) -/

def words128 (s : State) (off : Nat) : BitVec 128 :=
  BitVec.ofNat 128 (regWord s off + regWord s (off + 4) * 2 ^ 32 + regWord s (off + 8) * 2 ^ 64 + regWord s (off + 12) * 2 ^ 96)

/-- The operation the command registers set up. -/
def regOp (s : State) (kind : PKind) : POp :=
  { kind := kind, gen := s.map.gen, key := words128 s Off.PLAIT_CMD_KEY_0, mask := words128 s Off.PLAIT_CMD_MASK_0,
    value := BitVec.ofNat 48 (rpair s Off.PLAIT_CMD_VALUE_LO), banks := BitVec.ofNat 64 (rpair s Off.PLAIT_CMD_BANKS_LO),
    cursor := BitVec.ofNat 64 (rpair s Off.PLAIT_CMD_CURSOR_LO), owner := rf s Off.PLAIT_CMD 4 12, prio := rf s Off.PLAIT_CMD 16 16,
    anyPrio := rbit s Off.PLAIT_CMD_OPT 0, ekind := rf s Off.PLAIT_CMD_OPT 1 2, src := .regs }

def isInsert (k : PKind) : Bool := k == .insert || k == .insertUnique

/-- PLAIT_CMD.go: ignored while busy; an insert of kind 0 is refused with PLAIT_KIND. -/
def plaitCmd (m : Master) (code : Nat) (kind : PKind) (owner prio : Option Nat) (s : State) : State :=
  let puts := [(1, 3, code)] ++ (match owner with
    | some o => [(4, 12, o)]
    | none => []) ++ (match prio with
    | some p => [(16, 16, p)]
    | none => [])
  regCmd s m Off.PLAIT_CMD puts fun t =>
    if t.plait.busy then t
    else if isInsert kind && rf t Off.PLAIT_CMD_OPT 1 2 = 0 then
      { t with plait := { t.plait with res := { op := regOp t kind, status := 5 } } }
    else enqueueOp { t with plait := { t.plait with busy := true } } (regOp t kind)

/-- PLAIT_SEARCH (R230, R239). -/
def execPlaitSearch (m : Master) (owner : Nat) (s : State) : Host.Outcome State Fault Refusal :=
  .next (plaitCmd m 0 .search (some owner) none s)

/-- PLAIT_NEXT (R231, R239). -/
def execPlaitNext (m : Master) (owner : Nat) (s : State) : Host.Outcome State Fault Refusal :=
  .next (plaitCmd m 1 .next (some owner) none s)

/-- PLAIT_INSERT (R232, R239). -/
def execPlaitInsert (m : Master) (owner prio : Nat) (s : State) : Host.Outcome State Fault Refusal :=
  .next (plaitCmd m 2 .insert (some owner) (some prio) s)

/-- PLAIT_INSERT_UNIQUE (R233, R239). -/
def execPlaitInsertUnique (m : Master) (owner prio : Nat) (s : State) : Host.Outcome State Fault Refusal :=
  .next (plaitCmd m 3 .insertUnique (some owner) (some prio) s)

/-- PLAIT_DELETE (R234, R239). -/
def execPlaitDelete (m : Master) (owner prio : Nat) (s : State) : Host.Outcome State Fault Refusal :=
  .next (plaitCmd m 4 .delete (some owner) (some prio) s)

/-! ### Prefix descriptors: keys, banks, refusals (03 R75, R77, R78; 09 R225, R226; 10 R257) -/

/-- Banks of a context's slice. -/
def ctxBanks (s : State) (ctx : Nat) : BitVec 64 := (sliceOf s (ctxOf s ctx).slice).banks

def keysOf (b : Bytes) (n : Nat) : List (BitVec 128) := (List.range n).map fun i => BitVec.ofNat 128 (leAt b (16 * i) 16)

def prefixCount (d : Desc) : Nat := d.n 24 4

/-- Refusals all prefix kinds share; each names a handle (05 R121). -/
def prefixShared (s : State) (d : Desc) : Option Nat :=
  if prefixCount d = 0 || prefixCount d > 65536 then some St.COUNT_INVALID
  else if !rbit s Off.PLAIT_CTRL 0 then some St.PLAIT_DISABLED
  else if ctxBanks s d.ring = 0 then some St.PLAIT_NO_BANK
  else handleRefusal s d.handle

/-- The operation on a key of a step: it takes part in the banks, and carries the generation, of the portion that hands it over
(R226). -/
def prefixOp (t : Step) (ix : Nat) (kind : PKind) : POp :=
  let q := (t.portions.find? fun q => ix < q.upTo).getD {}
  { kind := kind, key := t.keys.getD ix 0, mask := BitVec.allOnes 128, banks := q.banks, owner := t.ctx, ekind := 0,
    prio := 0x8000, anyPrio := true, src := .desc t.desc.id ix, gen := q.gen }

/-- Hand the operations of items [lo, hi) to the store. -/
def issueKeys (kind : PKind) (s : State) (t : Step) (lo hi : Nat) : State :=
  (List.range (hi - lo)).foldl (fun s i => enqueueOp s (prefixOp t (lo + i) kind)) s

/-- First portion of a prefix kind: the keys are read, then the portion is admitted. -/
def prefixStart (s : State) (d : Desc) (hv : AddrView) (pick : List Nat) (work : State → Step → Nat → Nat → State) : State :=
  let n := prefixCount d
  match hostRead hv (d.addr 32) (16 * n) with
  | none => refuse s d St.HOST_READ_ERROR
  | some b => match firstPortion s d n { keys := keysOf b n, picks := pick } with
    | none => s
    | some s => match findStep s d.id with
      | some t => work s t 0 t.items
      | none => s

/-- A later portion of a prefix kind. -/
def prefixMore (s : State) (t : Step) (work : State → Step → Nat → Nat → State) : State :=
  match nextPortion s t with
  | none => s
  | some s => match findStep s t.desc.id with
    | some t => work s t (t.keys.length - t.left - t.items) (t.keys.length - t.left)
    | none => s

def prefixRun (s : State) (id kind : Nat) (op : Desc → Bool) (refusal : State → Desc → Option Nat) (hv : AddrView) (pick : List Nat)
    (work : State → Step → Nat → Nat → State) : State :=
  match findDesc s id with
  | some d =>
    if d.kind ≠ kind || !op d || !descReady s d then s
    else match refusal s d with
      | some e => refuse s d e 0 (ownerResults s d.stream)
      | none => prefixStart s d hv pick work
  | none => match findStep s id with
    | none => s
    | some t => if t.kind ≠ kind || !op t.desc then s else prefixMore s t work

/-- Keys whose portions have been admitted. -/
def keysOut (t : Step) : Nat := t.keys.length - t.left

/-! ### PREFIX_LOOKUP (03 R75, R76; 09 R237) -/

/-- The first status that ends a lookup before admission. A stream it would create must have a class of the image (05 R124). -/
def lookupRefusal (s : State) (d : Desc) : Option Nat :=
  match prefixShared s d with
  | some e => some e
  | none => match streamAt s d.stream with
    | none => if d.n 17 1 > (imageOf s d.handle).geo.classes then some St.NO_VARIANT else none
    | some x => if x.ctx ≠ d.ring then some St.STREAM_ABSENT
      else match streamRefusal s d.stream with
        | some e => some e
        | none => if x.length = 0 then none else some St.STREAM_NOT_EMPTY

def prefixLookup (id : Nat) (hv : AddrView) (s : State) : State :=
  prefixRun s id 3 (fun _ => true) lookupRefusal hv [] (issueKeys .search)

/-- PREFIX_LOOKUP (R75; 05 R143, R144; 09 R225, R226, R237). -/
def execPrefixLookup (id : Nat) (hv : HostView) (s : State) : Host.Outcome State Fault Refusal := whileAlive s (prefixLookup id (descView s id hv) s)

/-- Block entries a stream takes by reference from the records of its hits. -/
def sharedEntries (s : State) (raised : List (Nat × Nat)) : List (Nat × BlockEntry) :=
  raised.flatMap fun r => (pfxOf s r.2).list.map fun e =>
    (blockKey e.1 e.2.1 r.1, { e.2.2 with shared := true, recNo := r.2 })

/-- Table frames that new entries of a stream need. -/
def tablesFor (x : Stream) (es : List (Nat × BlockEntry)) : List Nat :=
  ((es.map fun e => e.1 / 2 ^ 26).eraseDups).flatMap fun lk =>
    let bs := (es.filter fun e => e.1 / 2 ^ 26 == lk).map fun e => e.1 % 2 ^ 26
    (bs.flatMap fun b => missingTables x (lk / 256) (lk % 256) b b).eraseDups

/-- Remote block entries of a list: they count against the remote quota (R64). -/
def remoteEntries (es : List (Nat × BlockEntry)) : Nat := es.countP fun e => e.2.tier == 2

/-- The lookup ends: its entries enter the stream's page tables in one update, or it has no effect (R75). A stream number that
another context has taken since the admission ends it STREAM_NOT_EMPTY (DESIGN CHOICE: no rule names this case). Remote entries
that do not fit the remote quota end it QUOTA_EXCEEDED (DEDUCED: R64 counts them, R75 names the board quota alone). -/
def lookupEnd (s : State) (t : Step) : State :=
  let d := t.desc
  let x := (streamAt s d.stream).getD { ctx := t.ctx, cls := d.n 17 1 }
  if x.length ≠ 0 || x.ctx ≠ t.ctx then cutWith s t St.STREAM_NOT_EMPTY
  else
    let es := sharedEntries s t.raised
    let tables := tablesFor x es
    let slice := (ctxOf s t.ctx).slice
    let far := remoteEntries es
    if tables.length > quotaLeft s t.ctx 1 || far > quotaLeft s t.ctx 2 then cutWith s t St.QUOTA_EXCEEDED
    else match takeFrames s slice 1 t.ctx .table anyFrame tables.length [] with
      | none => cutWith s t St.POOL_EXHAUSTED
      | some (ps, s) =>
        let layers := (es.map fun e => e.1 / 2 ^ 34).eraseDups
        let y := layers.foldl (fun (y : Stream) l => { y with committed := tset 0 y.committed l (64 * t.raised.length) })
          (x.commit es (tables.zip ps) 0 0)
        let s := putStream s d.stream y
        let s := if far = 0 then s else { s with tier := { s.tier with remoteUsed := tmod 0 s.tier.remoteUsed t.ctx fun u => u + far } }
        finish s t St.OK 0 (putLe 4 t.raised.length)

/-- The lookup takes a result in chain order. -/
def lookupResult (s : State) (t : Step) (r : PRes) : State :=
  let rec' := r.value.toNat % 2 ^ 32
  let live := r.hit && (pfxOf s rec').st == .live && (pfxOf s rec').ctx == t.ctx
  if !live then lookupEnd (putStep s { t with stopped := true }) { t with stopped := true }
  else
    let p := pfxOf s rec'
    let s := setPfx s rec' { p with refs := p.refs + 1 }
    let t := { t with raised := t.raised ++ [(t.taken, rec')], taken := t.taken + 1 }
    let s := putStep s t
    if t.taken ≥ t.keys.length then lookupEnd s t else s

/-! ### PUBLISH (03 R77, R79; 09 R233, R236) -/

def pubFirst (d : Desc) : Nat := d.n 20 4

/-- Entries of a block over every layer and KV head of a geometry, layer-major. -/
def blockSet (g : Geometry) (x : Stream) (b : Nat) : List (Nat × Nat × BlockEntry) :=
  (List.range g.layers).flatMap fun l => (List.range g.hkv).map fun h => (l, h, x.entry (blockKey l h b))

/-- The block may be published: full in every layer and KV head, not shared, its index within the entry value (R74, R77). A block
above 65,535 so ends a PUBLISH with PREFIX_BLOCK_UNFIT (DESIGN CHOICE: R74 says that no such block is published and names no
status). -/
def blockFit (g : Geometry) (x : Stream) (b : Nat) : Bool :=
  b ≤ 65535 && (blockSet g x b).all fun e => e.2.2.count == 64 && e.2.2.tier != 3 && !e.2.2.shared

def publishRefusal (s : State) (d : Desc) : Option Nat :=
  if d.op > 1 then some St.FMT_CODE_INVALID
  else match prefixShared s d with
    | some e => some e
    | none => match streamStatus s d.ring d.stream with
      | some e => some e
      | none =>
        let g := (imageOf s d.handle).geo
        let x := (streamAt s d.stream).getD {}
        if (List.range (prefixCount d)).all fun i => blockFit g x (pubFirst d + i) then none else some St.PREFIX_BLOCK_UNFIT

/-- Search for the key of the next block of the portion. -/
def publishNext (s : State) (t : Step) : State :=
  if t.taken < keysOut t then enqueueOp s (prefixOp t t.taken .search) else s

/-- A portion begins; where a block of an earlier one is in hand, its result goes on to the new blocks. -/
def publishWork (s : State) (t : Step) (lo _ : Nat) : State := if t.taken = lo then publishNext s t else s

def publish (id : Nat) (hv : AddrView) (pick : List Nat) (s : State) : State :=
  prefixRun s id 4 (fun d => d.op != 1) publishRefusal hv pick publishWork

/-- PUBLISH (R77; 05 R143, R144). A PREFIX_INSERT of a reserved operation is refused here. -/
def execPublish (id : Nat) (hv : HostView) (pick : List Nat) (s : State) : Host.Outcome State Fault Refusal :=
  whileAlive s (publish id (descView s id hv) pick s)

/-- The step ends: its marks enter the stream's page tables in one update (R59, R77). -/
def publishEnd (s : State) (t : Step) : State :=
  finish (commitMarks s t.desc.stream t.newEntries) t t.status 0 (putLe 4 t.published ++ putLe 4 t.existing ++ putLe 4 t.full ++ putLe 4 0)

/-- The next block, or the end. -/
def publishGo (s : State) (t : Step) : State :=
  let s := putStep s t
  if t.stopped || t.taken ≥ t.keys.length then publishEnd s t else publishNext s t

/-- Board frames of a record and its page-set list (R79). -/
def recordFrames (n : Nat) : Nat := cdiv (32 + 16 * n) 16384

def freeRecord (s : State) : Option Nat :=
  let n := min 4194304 (s.tier.pfx.length + 1)
  lowest n fun i => (tfind s.tier.pfx i).isNone

/-- The marked entries of a block of a record. -/
def marksOf (b recNo : Nat) (list : List (Nat × Nat × BlockEntry)) : List (Nat × BlockEntry) :=
  list.map fun e => (blockKey e.1 e.2.1 b, { e.2.2 with shared := true, recNo := recNo })

/-- The block's record cannot be made: FULL, and no further block (R79, R236). -/
def publishFull (s : State) (t : Step) : State :=
  publishGo s { t with full := t.full + 1, taken := t.taken + 1, stopped := true }

/-- Steps 2 to 4 of R77 for the block in hand: a record, the shared bits, the unique insert. The bits wait in the step for its end,
where the page tables change in one update (R59). A block that is no longer fit at its turn ends the step with
PREFIX_BLOCK_UNFIT, and the blocks before it stay published (DESIGN CHOICE: R77 tests the blocks at admission). -/
def publishMake (s : State) (t : Step) : State :=
  let d := t.desc
  let b := pubFirst d + t.taken
  let g := (imageOf s t.handle).geo
  match streamAt s d.stream, freeRecord s with
  | some x, some n =>
    let list := blockSet g x b
    let k := recordFrames list.length
    if !blockFit g (x.view s d.stream) b then publishGo s { t with status := St.PREFIX_BLOCK_UNFIT, stopped := true }
    else if k > quotaLeft s t.ctx 1 then publishFull s t
    else match takeFrames s (ctxOf s t.ctx).slice 1 t.ctx .record anyFrame k t.picks with
      | none => publishFull s t
      | some (ps, s) =>
        let s := setPfx s n { ctx := t.ctx, st := .live, refs := 2, frames := ps, list := list }
        let s := putStep s { t with picks := t.picks.drop k, newEntries := t.newEntries ++ marksOf b n list }
        enqueueOp s { prefixOp t t.taken .insertUnique with value := BitVec.ofNat 48 (n + b * 2 ^ 32) }
  | some _, none => publishFull s t
  | none, _ => publishGo s { t with status := St.STREAM_ABSENT, stopped := true }

/-- Steps 2 and 3 are undone: the record is freed and the block is the stream's own (R236). -/
def publishUndo (s : State) (n : Nat) : State := releaseFrames (setPfx s n {}) (pfxOf s n).frames

/-- A step without the marks of a record. -/
def Step.unmark (t : Step) (n : Nat) : Step := { t with newEntries := t.newEntries.filter fun e => e.2.recNo != n }

/-- The rows of the frames of a published block stay those of the stream that committed them (16 R396). -/
def publishResult (s : State) (t : Step) (r : PRes) : State :=
  match r.op.kind with
  | .search => if r.hit then publishGo s { t with existing := t.existing + 1, taken := t.taken + 1 } else publishMake s t
  | _ =>
    let n := r.op.value.toNat % 2 ^ 32
    let u := t.unmark n
    if r.status = 0 then publishGo s { t with published := t.published + 1, taken := t.taken + 1 }
    else if r.status = 2 then publishGo (publishUndo s n) { u with existing := u.existing + 1, taken := u.taken + 1 }
    else publishFull (publishUndo s n) u

/-! ### UNPUBLISH (03 R78) -/

def unpublish (id : Nat) (hv : AddrView) (s : State) : State :=
  prefixRun s id 4 (fun d => d.op == 1) prefixShared hv [] (issueKeys .delete)

/-- UNPUBLISH (R78; 05 R143, R144). -/
def execUnpublish (id : Nat) (hv : HostView) (s : State) : Host.Outcome State Fault Refusal := whileAlive s (unpublish id (descView s id hv) s)

/-- The entry's reference on its record drops, and the record is UNPUBLISHED. -/
def unpublishRecord (s : State) (n : Nat) : State :=
  let p := pfxOf s n
  if p.st = .live then pfxDrop (setPfx s n { p with st := .unpublished }) n else s

def unpublishResult (s : State) (t : Step) (r : PRes) : State :=
  let s := r.gone.foldl (fun s v => unpublishRecord s (v.toNat % 2 ^ 32)) s
  let t := { t with taken := t.taken + 1, published := t.published + b2n (!r.gone.isEmpty) }
  let s := putStep s t
  if t.taken ≥ t.keys.length then finish s t St.OK 0 (putLe 4 0 ++ putLe 4 0 ++ putLe 4 0 ++ putLe 4 t.published) else s

/-! ### PLAIT_RESULT (R228) -/

/-- A result reaches its source; one whose step has ended is discarded. -/
def deliverResult (s : State) (r : PRes) : State :=
  match r.op.src with
  | .regs => { s with plait := { s.plait with busy := false, res := r } }
  | .residue _ => s
  | .desc id _ => match findStep s id with
    | none => s
    | some t =>
      if t.stopped then s
      else if t.kind = 3 then lookupResult s t r
      else if t.desc.op = 1 then unpublishResult s t r
      else publishResult s t r

def plaitResult (s : State) : State :=
  match s.plait.inflight with
  | [] => s
  | r :: rest => deliverResult { s with plait := { s.plait with inflight := rest } } r

/-- PLAIT_RESULT (R228; 03 R75 to R78; R236, R237). -/
def execPlaitResult (s : State) : Host.Outcome State Fault Refusal := whileAlive s (plaitResult s)

end Sys2Proof.Machine
end

