-- ==== Sys2Proof/Machine/Handoff.lean ====
section
/-! DEFINITION. Handoff of a stream: drain, transfer, offer, answer, query and resolution (03 R80 to R85; 12 R291, R294, R296; 16
R397). -/
namespace Sys2Proof.Machine
open Sys2Proof

/-! ### Counters, entries, digest (R58, R80, R81) -/

/-- A block entry from its 128 bits (R58). -/
def entryOf (v : Nat) : BlockEntry :=
  { pfn := fld v 0 32, spill := fld v 32 32, node := fld v 64 14, tier := fld v 78 2, count := fld v 80 7, shared := bitOf v 87,
    sketch := bitOf v 88, compute := bitOf v 89, recNo := fld v 96 32 }

/-- The digest of an offer: SHA-256 over the entries, 16 bytes each, by rising layer, KV head and block (DESIGN CHOICE: the spec
does not say in which order page tables are hashed). -/
def tablesDigest (es : Tbl BlockEntry) : Bytes := sha256 (es.flatMap fun e => putLe 16 (entryNum e.2))

/-- The entries that travel with an offer, as a table. -/
def offeredEntries (es : List (Nat × Nat × Nat × BitVec 128)) : Tbl BlockEntry :=
  es.foldl (fun t e => tput t (blockKey e.1 e.2.1 e.2.2.1) (entryOf e.2.2.2.toNat)) []

/-! ### HANDOFF (R81 step 1) -/

/-- The first portion sets the stream DRAINING. -/
def drainWork (s : State) (t : Step) (_ _ : Nat) : State :=
  match streamAt s t.desc.stream with
  | none => s
  | some x => if x.st = .owned then setStream s t.desc.stream { x with st := .draining, handoffId := some t.desc.id } else s

def handoff (id : Nat) (s : State) : State := runPortion s id 5 (fun d => d.op == 4) moveRefusal moveItems {} drainWork

/-- HANDOFF (R81 step 1; 05 R143, R144). -/
def execHandoff (id : Nat) (s : State) : Host.Outcome State Fault Refusal := whileAlive s (handoff id s)

/-! ### HANDOFF_DRAINED (R81 steps 2 and 3) -/

/-- A step in flight works on the stream. -/
def touches (t : Step) (n : Nat) : Bool :=
  (2 ≤ t.kind && t.kind ≤ 5 && t.desc.stream == n) || t.streams.any fun (x : StepStream) => x.stream == n

def stepsOn (s : State) (n id : Nat) : Bool := s.weft.steps.any fun t => t.desc.id != id && touches t n

/-- Body of a message that names a stream and a counter (12 R296). -/
def counterBody (n c : Nat) : Bytes := putLe 4 n ++ putLe 4 c

def offerBody (n c src srcPool dstPool len : Nat) (digest : Bytes) : Bytes :=
  counterBody n c ++ putLe 2 src ++ putLe 1 srcPool ++ putLe 1 dstPool ++ putLe 8 len ++ digest

/-- A PAGE_PUSH of one frame of a block (12 R294). -/
def pushWr (id n key pfn : Nat) : Wr :=
  { op := 3, length := 1, loc := pfn, wrId := id, page := n + key / 2 ^ 34 * 2 ^ 24 + key / 2 ^ 26 % 256 * 2 ^ 34, block := key % 2 ^ 26 }

/-- The page tables and pages, then the offer, on a queue pair; the stream is IN_DOUBT once the offer leaves (enterDoubt). In what messages
the tables travel is open: R294 and R296 give none for them, so they leave as one event of their own (DESIGN CHOICE). -/
def sendHandoff (s : State) (t : Step) (x : Stream) (qpn : Nat) : State :=
  let n := t.desc.stream
  let pages := x.entries.flatMap fun e => (entryFrames e.2).map fun p => (e.1, p)
  let r := offerRec s t x
  let s := emit s (.pageTables qpn n r.counter (x.entries.map fun e => (e.1, BitVec.ofNat 128 (entryNum e.2))))
  let s := pages.foldl (fun s e => postWr s qpn (pushWr t.desc.id n e.1 e.2)) s
  let s := postSend s qpn 1 t.desc.id (offerBody n r.counter r.srcNode r.srcPool r.dstPool x.length (tablesDigest x.entries))
  putStep s { t with taken := pages.length, handed := true }

/-! ### A handoff between pools of one node (R81) -/

/-- Blocks copied into the target slice's pools, each into the kind of memory it lies in. -/
def copyBlocks (ctx slice : Nat) : State → List (Nat × BlockEntry) → Except Nat (List (Nat × BlockEntry) × State)
  | s, [] => .ok ([], s)
  | s, (key, e) :: rest =>
    match placeCode e with
    | none => copyBlocks ctx slice s rest
    | some code =>
      let pages := (blockFrames e).map fun p => (p, frameBytesOf s ctx p)
      let fits (p : Nat) : Bool := code != 2 || bankUnit p == blockUnit (key / 2 ^ 26 % 256) (key % 2 ^ 26)
      if pages.length > quotaLeft s ctx (quotaTier code) then .error St.QUOTA_EXCEEDED
      else match takeFrames s slice code ctx .page fits pages.length [] with
        | none => .error St.POOL_EXHAUSTED
        | some (ps, s) =>
          let c := plainCopy e pages ps
          let s := c.pages.foldl (fun s p => putFrame s ctx p.1 0 p.2) s
          let b := pages.headD (0, [])
          let s := commitEntry s ctx c.entry [(pageHdr b.2).kTable, (pageHdr b.2).vTable]
          match copyBlocks ctx slice s rest with
          | .error z => .error z
          | .ok (es, s) => .ok ((key, c.entry) :: es, s)

/-- Page table frames in the target slice's board pool. -/
def copyTables (s : State) (ctx slice : Nat) (x : Stream) : Except Nat (List (Nat × Nat) × State) :=
  if x.tables.length > quotaLeft s ctx 1 then .error St.QUOTA_EXCEEDED
  else match takeFrames s slice 1 ctx .table anyFrame x.tables.length [] with
    | none => .error St.POOL_EXHAUSTED
    | some (ps, s) => .ok ((x.tables.map (·.1)).zip ps, s)

/-- Step 6: the stream is OWNED again at h + 2, a handoff from this node to itself is recorded, and the PAGE_MOVE completes
HANDOFF_REFUSED with a cause. -/
def handoffRefused (s : State) (n : Nat) (x : Stream) (cause : Nat) : State :=
  let c := (x.counter + 2) % 2 ^ 32
  let pool := (ctxOf s x.ctx).slice
  let r : HandoffRec := { counter := c, srcNode := nodeNum s, srcPool := pool, dstNode := nodeNum s, dstPool := pool, outcome := 1 }
  let s := setStream s n { x with st := .owned, counter := c, last := r, handoffId := none, queries := 0 }
  match x.handoffId.bind (findStep s) with
  | some t => finish s t St.HANDOFF_REFUSED 0 (moveResults 0 0 ++ putLe 2 cause)
  | none => s

def poolHandoff (s : State) (t : Step) (x : Stream) : State :=
  let n := t.desc.stream
  let slice := t.desc.targetPool
  let own := x.entries.filter fun e => !e.2.shared
  let made : Except Nat (List (Nat × BlockEntry) × List (Nat × Nat) × State) :=
    match copyTables s x.ctx slice x with
    | .error z => .error z
    | .ok (ts, s) => match copyBlocks x.ctx slice s own with
      | .error z => .error z
      | .ok (es, s) => .ok (es, ts, s)
  match made with
  | .error z => handoffRefused s n x z
  | .ok (es, ts, s) =>
    let c := (x.counter + 1) % 2 ^ 32
    let r : HandoffRec := { counter := c, srcNode := nodeNum s, srcPool := (ctxOf s x.ctx).slice, dstNode := nodeNum s, dstPool := slice,
                            outcome := 1 }
    let old := replacedFrames x es ++ x.tables.map (·.2)
    let s := putStream s n { x with st := .owned, counter := c, last := r, handoffId := none,
                                    tables := ts.foldl (fun t e => tput t e.1 e.2) [],
                                    entries := es.foldl (fun t e => tset {} t e.1 e.2) x.entries }
    let s := retireFrames s old (earlierSteps s t.desc.id)
    finish s t St.OK 0 (moveResults ((es.flatMap fun e => entryFrames e.2).length) 0)

def handoffDrained (n : Nat) (s : State) : State :=
  match streamAt s n with
  | none => s
  | some x => match x.handoffId.bind (findStep s) with
    | none => s
    | some t =>
      if x.st ≠ .draining || t.left ≠ 0 || t.handed || stepsOn s n t.desc.id then s
      else if t.desc.target = nodeNum s then poolHandoff s t x
      else match pathQp s x.ctx t.desc.target with
        | none => undrain s t St.NO_PATH
        | some q => sendHandoff s t x q

/-- HANDOFF_DRAINED (R81 steps 2 and 3; 12 R291). -/
def execHandoffDrained (stream : Nat) (s : State) : Host.Outcome State Fault Refusal := whileAlive s (handoffDrained stream s)

/-! ### HANDOFF_OFFER at the target (R81 step 4, R82) -/

/-- Newest counter this node knows of a stream. -/
def knownCounter (s : State) (n : Nat) : Option Nat :=
  let cs := (match streamAt s n with
    | some x => [x.counter, x.last.counter]
    | none => []) ++ (s.tier.answers.filter fun a => a.1 == n).map fun a => a.2.1.counter
  match cs with
  | [] => none
  | c :: rest => some (rest.foldl (fun m c => if newer c m then c else m) c)

/-- The answer given to an offer of a counter. -/
def answerOf (s : State) (n c : Nat) : Option (HandoffRec × Nat) :=
  (s.tier.answers.find? fun a => a.1 == n && a.2.1.counter == c).map (·.2)

def recordAnswer (s : State) (n : Nat) (r : HandoffRec) (cause : Nat) : State :=
  { s with tier := { s.tier with answers := (n, r, cause) :: s.tier.answers } }

/-- Send a message toward a node for a context; without a path it does not leave. -/
def sendTo (s : State) (ctx node type : Nat) (body : Bytes) : State := (sendMsg s ctx node type noStep body).getD s

def answerOffer (s : State) (ctx n : Nat) (r : HandoffRec) (cause : Nat) : State :=
  if r.outcome = 1 then sendTo s ctx r.srcNode 2 (counterBody n r.counter)
  else sendTo s ctx r.srcNode 3 (counterBody n r.counter ++ putLe 2 cause ++ zeros 6)

/-- Frames received for a stream and not yet part of it: reserved frames of the context whose page header names it. -/
def received (s : State) (ctx n : Nat) : List (Nat × PageHdr) :=
  ((s.tier.frames.filter fun e => e.2.ctx == ctx && e.2.use == .reserved &&
      !(s.weft.steps.any fun (t : Step) => t.reserve.contains e.1)).map fun e => (e.1, pageHdr (frameBytesOf s ctx e.1))).filter
    fun p => p.2.stream == n

/-- The frame an offered block's primary or spill page landed in. A page of a shared block keeps the stream of the record in its
header, so it is found by its place alone. -/
def landedPage (s : State) (ctx n key : Nat) (e : BlockEntry) (spill : Bool) : Option Nat :=
  (s.tier.frames.find? fun f => f.2.ctx == ctx && f.2.use == .reserved &&
    !(s.weft.steps.any fun (t : Step) => t.reserve.contains f.1) &&
    (let h := pageHdr (frameBytesOf s ctx f.1)
     (h.stream == n || e.shared) && h.isSpill == spill && h.layer == key / 2 ^ 34 && h.kvHead == key / 2 ^ 26 % 256 &&
       h.block == key % 2 ^ 26)).map (·.1)

/-- The local frames of an offered block: primary, and spill where it has one; none when a page did not arrive. -/
def landed (s : State) (ctx n key : Nat) (e : BlockEntry) : Option (List Nat) :=
  match landedPage s ctx n key e false with
  | none => none
  | some p => if e.spill = 0xFFFFFFFF then some [p] else (landedPage s ctx n key e true).map fun q => [p, q]

/-- Every frame that landed for an offer: those whose headers name the stream, and those of its shared blocks (R81 step 4). -/
def landedFrames (s : State) (ctx n : Nat) (es : Tbl BlockEntry) : List Nat :=
  ((received s ctx n).map (·.1) ++ (es.filter fun e => e.2.tier < 2 && e.2.shared).flatMap fun e =>
    (landedPage s ctx n e.1 e.2 false).toList ++ (landedPage s ctx n e.1 e.2 true).toList).eraseDups

/-- Every offered block with its local frames; none when one is missing. -/
def landAll (s : State) (ctx n : Nat) : List (Nat × BlockEntry) → Option (List (Nat × BlockEntry × List Nat))
  | [] => some []
  | (key, e) :: rest =>
    let ps := if e.tier ≥ 2 then some [] else landed s ctx n key e
    match ps, landAll s ctx n rest with
    | some ps, some r => some ((key, e, ps) :: r)
    | _, _ => none

/-- The entry of a landed block on this node. -/
def landedEntry (s : State) (e : BlockEntry) (ps : List Nat) : BlockEntry :=
  match ps with
  | [] => e
  | p :: q => { e with pfn := p, spill := q.headD 0xFFFFFFFF, node := nodeNum s, tier := pfnTier p, compute := inCompute s p,
                       shared := false, recNo := 0 }

/-- A primary page names its spill frame on this node. -/
def fixSpill (s : State) (ctx : Nat) (e : BlockEntry) : State :=
  if e.tier ≥ 2 || e.spill = 0xFFFFFFFF then s
  else putFrame s ctx e.pfn 0 (setSpill (frameBytesOf s ctx e.pfn) e.spill)

/-- A prefix record made for one record of the source: the blocks that came with its page-set list stay shared here, with this
stream as the only holder; nothing is published. -/
def landRecord (s : State) (ctx n : Nat) (es : List (Nat × BlockEntry × List Nat)) : Except Nat State :=
  let list := es.map fun e => (e.1 / 2 ^ 34, e.1 / 2 ^ 26 % 256, landedEntry s e.2.1 e.2.2)
  let k := recordFrames list.length
  match freeRecord s with
  | none => .error St.POOL_EXHAUSTED
  | some r =>
    if k > quotaLeft s ctx 1 then .error St.QUOTA_EXCEEDED
    else match takeFrames s (ctxOf s ctx).slice 1 ctx .record anyFrame k [] with
      | none => .error St.POOL_EXHAUSTED
      | some (ps, s) =>
        let s := setPfx s r { ctx := ctx, st := .unpublished, refs := 1, frames := ps, list := list }
        .ok (commitMarks s n (es.map fun e => (e.1, { landedEntry s e.2.1 e.2.2 with shared := true, recNo := r })))

/-- Records of the source among the offered blocks. -/
def recordsOf (es : List (Nat × BlockEntry × List Nat)) : List Nat :=
  ((es.filter fun e => e.2.1.shared).map fun e => e.2.1.recNo).eraseDups

/-- The stream as B creates it, with its table frames; an error is the cause of the refusal. -/
def createStream (s : State) (ctx n c : Nat) (r : HandoffRec) (es : List (Nat × BlockEntry × List Nat)) : Except Nat State :=
  let mine := es.map fun e => (e.1, landedEntry s e.2.1 e.2.2)
  let remote := mine.countP fun e => e.2.tier == 2
  let keys := (mine.flatMap fun e => missingTables {} (e.1 / 2 ^ 34) (e.1 / 2 ^ 26 % 256) (e.1 % 2 ^ 26) (e.1 % 2 ^ 26)).eraseDups
  if keys.length > quotaLeft s ctx 1 || remote > quotaLeft s ctx 2 then .error St.QUOTA_EXCEEDED
  else match takeFrames s (ctxOf s ctx).slice 1 ctx .table anyFrame keys.length [] with
    | none => .error St.POOL_EXHAUSTED
    | some (ts, s) =>
      let f := free64 s
      let es0 := mine.foldl (fun t e => tset {} t e.1 e.2) ([] : Tbl BlockEntry)
      let layers := ((mine.map fun e => e.1 / 2 ^ 34).eraseDups)
      let x : Stream := { ctx := ctx, cls := f.1.toNat % 256, st := .owned, counter := c, last := r, entries := es0,
                          tables := (keys.zip ts).foldl (fun t e => tput t e.1 e.2) [],
                          committed := layers.foldl (fun t l => tset 0 t l (layerLength es0 l)) [] }
      let s := putStream f.2 n x
      let s := { s with tier := { s.tier with remoteUsed := tmod 0 s.tier.remoteUsed ctx fun u => u + remote } }
      let s := mine.foldl (fun s e =>
        if e.2.tier ≥ 2 then s
        else
          let s := fixSpill s ctx e.2
          let h := pageHdr (frameBytesOf s ctx e.2.pfn)
          commitEntry s ctx e.2 [h.kTable, h.vTable]) s
      let s := mapRows s ctx n ((mine.filter fun e => e.2.tier < 2).map (·.1))
      (recordsOf es).foldl (fun (m : Except Nat State) k => match m with
        | .error z => .error z
        | .ok s => landRecord s ctx n (es.filter fun e => e.2.1.shared && e.2.1.recNo == k)) (.ok s)

/-- A stream this node still holds gives up its blocks to a newer owner's copy. -/
def giveUp (s : State) (n : Nat) : State :=
  match streamAt s n with
  | some x => dropBlocks s n x x.entries (liveSteps s)
  | none => s

/-- The cause the spec names for a refusal, or a free one. -/
def freeCause (s : State) : Nat × State :=
  let f := free64 s
  (f.1.toNat % 65536, f.2)

/-- Judge a new offer: digest, pages, quota, pool. -/
def judgeOffer (s : State) (ctx n c : Nat) (r : HandoffRec) (digest : Bytes) (es : Tbl BlockEntry) : Except (Option Nat) State :=
  if (ctxOf s ctx).st ≠ .active then .error (some St.QP_FLUSHED)
  else if tablesDigest es ≠ digest then .error none
  else match landAll s ctx n es with
    | none => .error (if s.tier.unbound.contains (ctx, n) then some St.TABLE_UNBOUND else none)
    | some ls => match createStream (giveUp s n) ctx n c r ls with
      | .error z => .error (some z)
      | .ok s => .ok s

def handoffOffer (ctx n c src srcPool dstPool : Nat) (digest : Bytes) (es : Tbl BlockEntry) (s : State) : State :=
  match answerOf s n c with
  | some (r, cause) => answerOffer s ctx n r cause
  | none =>
    let r : HandoffRec := { counter := c, srcNode := src, srcPool := srcPool, dstNode := nodeNum s, dstPool := dstPool, outcome := 1 }
    let stale := match knownCounter s n with
      | some k => !newer c k
      | none => false
    let refuseIt (s : State) (cause : Nat) : State :=
      let r := { r with outcome := 2 }
      answerOffer (recordAnswer s n r cause) ctx n r cause
    if stale then
      let f := freeCause s
      answerOffer f.2 ctx n { r with outcome := 2 } f.1
    else match judgeOffer s ctx n c r digest es with
      | .ok s => answerOffer (recordAnswer s n r 0) ctx n r 0
      | .error z =>
        let f : Nat × State := match z with
          | some c => (c, s)
          | none => freeCause s
        let s : State := { f.2 with tier := { f.2.tier with unbound := f.2.tier.unbound.filter (· != (ctx, n)) } }
        refuseIt (releaseFrames s (landedFrames s ctx n es)) f.1

/-- HANDOFF_OFFER (R81 step 4, R82). -/
def execHandoffOffer (ctx stream counter srcNode srcPool dstPool _length : Nat) (digest : Bytes)
    (entries : List (Nat × Nat × Nat × BitVec 128)) (s : State) : Host.Outcome State Fault Refusal :=
  whileAlive s (handoffOffer ctx stream counter srcNode srcPool dstPool digest (offeredEntries entries) s)

/-! ### The source's end (R81 steps 5 and 6) -/

/-- Step 5: the stream becomes FORMER under its offer, its frames leave, the PAGE_MOVE completes OK. -/
def becomeFormer (s : State) (n : Nat) (x : Stream) (r : HandoffRec) : State :=
  let s := dropBlocks s n x x.entries (liveSteps s)
  let s := setStream s n { ctx := x.ctx, cls := x.cls, st := .former, counter := r.counter, last := r, newOwner := r.dstNode }
  match x.handoffId.bind (findStep s) with
  | some t => finish s t St.OK 0 (moveResults t.taken 0)
  | none => s

/-- The stream whose offer of this counter is out. On a fenced node it stays IN_DOUBT whatever arrives (R83): nothing answers for it. -/
def offered (s : State) (n c : Nat) : Option Stream :=
  if s.fault.st = .fenced then none
  else match streamAt s n with
  | some x => if x.st = .inDoubt && x.last.counter = c then some x else none
  | none => none

def handoffAccept (n c : Nat) (s : State) : State :=
  match offered s n c with
  | some x => becomeFormer s n x { x.last with outcome := 1 }
  | none => s

/-- HANDOFF_ACCEPT (R81 step 5). -/
def execHandoffAccept (stream counter : Nat) (s : State) : Host.Outcome State Fault Refusal := whileAlive s (handoffAccept stream counter s)

def handoffRefuse (n c cause : Nat) (s : State) : State :=
  match offered s n c with
  | some x => handoffRefused s n x cause
  | none => s

/-- HANDOFF_REFUSE (R81 step 6). -/
def execHandoffRefuse (stream counter cause : Nat) (s : State) : Host.Outcome State Fault Refusal :=
  whileAlive s (handoffRefuse stream counter cause s)

/-! ### Queries (R82, R83) -/

/-- Queries sent before the doubt is reported. -/
def maxQueries : Nat := 8

def handoffTimeout (n : Nat) (s : State) : State :=
  match streamAt s n with
  | none => s
  | some x =>
    if x.st ≠ .inDoubt || s.fault.st = .fenced then s
    else if x.queries < maxQueries then
      sendTo (setStream s n { x with queries := x.queries + 1 }) x.ctx x.last.dstNode 4 (counterBody n x.last.counter)
    else if x.queries = maxQueries then
      raise (setStream s n { x with queries := maxQueries + 1 }) Off.TIER_STATUS 4 [(20, 12, x.ctx)]
    else s

/-- HANDOFF_TIMEOUT (R81, R83). -/
def execHandoffTimeout (stream : Nat) (s : State) : Host.Outcome State Fault Refusal := whileAlive s (handoffTimeout stream s)

def handoffQuery (ctx src n c : Nat) (s : State) : State :=
  let reply (s : State) (o : Nat) : State := sendTo s ctx src 5 (counterBody n c ++ putLe 1 o ++ zeros 7)
  match answerOf s n c with
  | some (r, _) => reply s (if r.outcome = 1 then 0 else 1)
  | none =>
    let f := freeCause s
    reply (recordAnswer f.2 n { counter := c, srcNode := src, dstNode := nodeNum s, outcome := 2 } f.1) 2

/-- HANDOFF_QUERY (R82): an unknown offer is recorded as refused before the answer leaves. -/
def execHandoffQuery (ctx fromNode stream counter : Nat) (s : State) : Host.Outcome State Fault Refusal :=
  whileAlive s (handoffQuery ctx fromNode stream counter s)

def handoffAnswer (n c outcome : Nat) (s : State) : State :=
  match offered s n c with
  | none => s
  | some x =>
    if outcome = 0 then becomeFormer s n x { x.last with outcome := 1 }
    else
      let f := freeCause s
      handoffRefused f.2 n x f.1

/-- HANDOFF_ANSWER (R81 steps 5 and 6). The answer carries no cause: free. -/
def execHandoffAnswer (stream counter outcome : Nat) (s : State) : Host.Outcome State Fault Refusal :=
  whileAlive s (handoffAnswer stream counter outcome s)

/-! ### HANDOFF_RESOLVE (R84, R85) -/

/-- The record that governs: the newest accepted one. -/
def governing (rs : List HandoffRec) : Option HandoffRec :=
  match rs.filter fun r => r.outcome == 1 with
  | [] => none
  | r :: rest => some (rest.foldl (fun m r => if newer r.counter m.counter then r else m) r)

/-- No record says accepted: a refused offer of this stream ends as step 6 says. -/
def resolveNone (s : State) (n : Nat) (rs : List HandoffRec) : State :=
  match streamAt s n with
  | none => s
  | some x =>
    if x.st = .inDoubt && rs.any fun r => r.outcome == 2 && r.counter == x.last.counter then
      let f := freeCause s
      handoffRefused f.2 n x f.1
    else s

/-- This node is named as owner: OWNED where it holds the stream at that counter, else LOST. -/
def resolveOwner (s : State) (ctx n : Nat) (r : HandoffRec) : State :=
  match streamAt s n with
  | some x =>
    if x.counter = r.counter && !x.entries.isEmpty then
      let s := setStream s n { x with st := .owned, last := r, handoffId := none, queries := 0 }
      (match x.handoffId.bind (findStep s) with
        | some t =>
          let f := freeCause s
          finish f.2 t St.HANDOFF_REFUSED 0 (moveResults 0 0 ++ putLe 2 f.1)
        | none => s)
    else raise (setStream s n { x with st := .lost, last := r }) Off.TIER_STATUS 8 [(20, 12, x.ctx)]
  | none => raise (setStream s n { ctx := ctx, st := .lost, counter := r.counter, last := r }) Off.TIER_STATUS 8 [(20, 12, ctx)]

/-- Another node is named: FORMER once that owner has confirmed, IN_DOUBT until then. -/
def resolveOther (s : State) (n : Nat) (r : HandoffRec) (confirmed : Bool) : State :=
  match streamAt s n with
  | none => s
  | some x =>
    if x.st = .former || x.st = .lost then s
    else if confirmed then becomeFormer s n x r
    else setStream s n { x with st := .inDoubt }

/-- A stream that stays IN_DOUBT while the node is fenced (R83). -/
def doubtHeld (s : State) (n : Nat) : Bool := s.fault.st == .fenced && (streamAt s n).any fun x => x.st == .inDoubt

def handoffResolve (ctx n : Nat) (rs : List HandoffRec) (confirmed : Bool) (s : State) : State :=
  if doubtHeld s n then s
  else match governing rs with
  | none => resolveNone s n rs
  | some r => if r.dstNode = nodeNum s then resolveOwner s ctx n r else resolveOther s n r confirmed

/-- HANDOFF_RESOLVE (R84, R85). -/
def execHandoffResolve (ctx stream : Nat) (recs : List HandoffRec) (confirmed : Bool) (s : State) : Host.Outcome State Fault Refusal :=
  whileAlive s (handoffResolve ctx stream recs confirmed s)

end Sys2Proof.Machine
end

