-- ==== Sys2Proof/Machine/Reads.lean ====
section
/-! DEFINITION. What a register reads as: stored bits, live state behind RO fields, status registers, latched high halves; and
the side effects of a read (18 R444, R447, R450, R453, R459; the register rule of each chapter). -/
namespace Sys2Proof.Machine
open Sys2Proof

/-! ### Codes of state names -/

def ringCode : RingState → Nat
  | .disabled => 0 | .active => 1 | .draining => 2 | .error => 3
def clusterCode : ClusterState → Nat
  | .off => 0 | .sleep => 1 | .waking => 2 | .ready => 3 | .fenced => 4
def stackCode : StackState → Nat
  | .off => 0 | .training => 1 | .ready => 2 | .sleep => 3 | .fenced => 4
def channelCode : ChannelState → Nat
  | .off => 0 | .training => 1 | .ready => 2 | .fenced => 3
def portCode : PortState → Nat
  | .down => 0 | .detect => 1 | .equalise => 2 | .lock => 3 | .peer => 4 | .auth => 5 | .up => 6 | .degraded => 7
def bootCode : BootState → Nat
  | .por => 0 | .clocks => 1 | .verify => 2 | .identity => 3 | .training => 4 | .canary => 5 | .setup => 6 | .run => 7
  | .recovery => 8 | .fencedSafe => 9
def nodeCode : NodeState → Nat
  | .run => 0 | .fenced => 1 | .shadow => 2 | .fencedSafe => 3
def brakeCode : BrakeState → Nat
  | .idle => 0 | .braked => 1 | .sustainedReleased => 2 | .sustainedBraked => 3
def rngCode : RngState → Nat
  | .instantiating => 0 | .ok => 1 | .failed => 2
def ctxCode : CtxState → Nat
  | .free => 0 | .active => 1 | .removing => 2
def keyCode : KeyState → Nat
  | .empty => 0 | .live => 1 | .retiring => 2 | .scrubbing => 3
def handleCode : HandleState → Nat
  | .free => 0 | .loading => 1 | .loaded => 2 | .retiring => 3
def slotCode : SlotState → Nat
  | .free => 0 | .bound => 1 | .draining => 2
def regionCode : RegionState → Nat
  | .prot => 0 | .compute => 1 | .sealing => 2
def unitCode : UnitState → Nat
  | .idle => 0 | .running => 1 | .parked => 2 | .preempted => 3 | .error => 4 | .fenced => 5
def bankCode : BankState → Nat
  | .empty => 0 | .opened => 1 | .checked => 2 | .committing => 3

/-! ### Live state by block -/

/-- Bits of a mask for which a predicate holds. -/
def maskOf (n : Nat) (p : Nat → Bool) : Nat := ((List.range n).map fun i => if p i then 2 ^ i else 0).sum

/-- Stack fenced or OFF, once the stacks report (R455). -/
def stackGone (s : State) (i : Nat) : Bool := !s.mem.stackSet.isEmpty && (stackSt s i == .fenced || stackSt s i == .off)

def fencedMask (s : State) (kind n : Nat) : Nat := maskOf n (unitFenced s kind)

/-- Status registers of a range of offsets that have an enabled flag set. -/
def pendingAt (s : State) (p : Nat → Bool) : Bool := s.regs.status.any fun e => p e.1 && irqPending s e.1

def globalRo (s : State) (off : Nat) : Option Nat :=
  if Off.GLOBAL_SERIAL_0 ≤ off && off ≤ Off.GLOBAL_SERIAL_3 then
    some (le ((List.range 4).map fun i => Config.serial (off - Off.GLOBAL_SERIAL_0 + i)))
  else if off = Off.GLOBAL_FENCED then
    some ((List.range 128).countP (unitFenced s 1) + 2 ^ 8 * (List.range 32).countP (stackGone s) +
      2 ^ 16 * (List.range 16).countP (unitFenced s 5) + 2 ^ 24 * (List.range 24).countP (unitFenced s 6))
  else if off = Off.GLOBAL_FENCED_STACKS then some (maskOf 32 (stackGone s))
  else if off = Off.GLOBAL_FENCED_CHANNELS then some (fencedMask s 5 16)
  else if off = Off.GLOBAL_FENCED_PORTS then some (fencedMask s 6 24)
  else if off = Off.GLOBAL_RESET_CAUSE then some (s.boot.resetKind + 2 ^ 16 * s.boot.nodeResets)
  else if off = Off.GLOBAL_IRQ_SUMMARY then some (irqSummary s)
  else if off = Off.GLOBAL_IRQ_UNITS then
    some (maskOf 8 (fun n => pendingAt s fun o => o / 0x10000 == 0x10 + n) +
      2 ^ 16 * maskOf 16 fun n => pendingAt s fun o => o / 0x1000 == 0x400 + n)
  else if off = Off.GLOBAL_IRQ_PORTS then
    some (maskOf 24 fun p => pendingAt s fun o => o / 0x4000 == 0x140 + p || o / 0x2000 == 0x380 + p)
  else if off = Off.GLOBAL_IRQ_STACKS then some (maskOf 32 fun i => pendingAt s fun o => o / 0x10000 == 0x20 + i)
  else if off = Off.GLOBAL_PARITY_ADDR then some (s.regs.parAddr + 2 ^ 31 * b2n s.regs.parMore)
  else if off = Off.GLOBAL_PARITY_SEL then some s.regs.parSel
  else if off = Off.GLOBAL_ACCESS_ADDR then some (s.regs.accAddr + 2 ^ 26 * s.regs.accKind + 2 ^ 30 * s.regs.accMaster)
  else if off = Off.GLOBAL_ACCESS_CNT || off = Off.GLOBAL_PARITY_CNT then some (cnt s off)
  else none

/-- The slice that COMMIT_MAP_SEL shows. -/
def shownSlice (s : State) (m : Master) : Slice :=
  let w := selWord s m Off.COMMIT_MAP_SEL
  if bitOf w 8 then stagedSlice s (w % 16) else sliceOf s (w % 16)

def commitRo (s : State) (m : Master) (off : Nat) : Option Nat :=
  let sl := shownSlice s m
  if off = Off.COMMIT_BOOT then some (bootCode s.boot.st + 2 ^ 8 * s.boot.cause + 2 ^ 16 * (s.boot.boots % 2 ^ 16))
  else if off = Off.COMMIT_MAP_GEN then some (s.map.gen % 2 ^ 16 + 2 ^ 16 * (1 + s.map.older.length))
  else if off = Off.COMMIT_GEN_INFLIGHT then
    match (s.map.gen :: s.map.older)[selWord s m Off.COMMIT_GEN_SEL % 4]? with
    | some g => some (genWork s g)
    | none => some 0
  else if off = Off.COMMIT_STAGE_STATE then some (s.map.bank.length + 2 ^ 16 * bankCode s.map.bankSt)
  else if off = Off.COMMIT_RESULT then some s.map.status
  else if off = Off.COMMIT_CHECK_INFO then some (s.map.infoEntry + 2 ^ 16 * s.map.infoKind + 2 ^ 20 * (s.map.infoIndex % 2 ^ 12))
  else if off = Off.COMMIT_CHECK_CTX then
    match s.map.ctxNamed with
    | some c => some (c + 2 ^ 31)
    | none => some 0
  else if off = Off.COMMIT_MAP_CLUSTERS then some sl.clusters.toNat
  else if off = Off.COMMIT_MAP_STACKS then some sl.stackSet.toNat
  else if Off.COMMIT_MAP_QUARTERS_0 ≤ off && off ≤ Off.COMMIT_MAP_QUARTERS_2 then
    some (fld sl.quarters.toNat (8 * (off - Off.COMMIT_MAP_QUARTERS_0)) 32)
  else if off = Off.COMMIT_MAP_CHANNELS then some (sl.channels.toNat + 2 ^ 31 * b2n sl.enabled)
  else if off = Off.COMMIT_MAP_PORTS then some sl.ports.toNat
  else if off = Off.COMMIT_MAP_BANKS_LO then some (fld sl.banks.toNat 0 32)
  else if off = Off.COMMIT_MAP_BANKS_HI then some (fld sl.banks.toNat 32 32)
  else if off = Off.COMMIT_RECOVERY_RESULT then some s.map.recStatus
  else none

def hostqRo (s : State) (m : Master) (off : Nat) : Option Nat :=
  let g := ringOf s (selNum s m Off.HOSTQ_RING_SEL)
  if off = Off.HOSTQ_RING_STATE then some (ringCode g.st + 2 ^ 16 * g.reserved)
  else if off = Off.HOSTQ_RING_HEADS then some (g.fetchHead + 2 ^ 16 * g.cqTail)
  else none

/-- Two's complement of a per mille error, saturated at 2,047 (14 R357). -/
def errCode (e : Int) : Nat := ((max (-2047) (min 2047 e)) % 4096).toNat

def ledgerRo (s : State) (m : Master) (off : Nat) : Option Nat :=
  let r := s.ledger.recs[selNum s m Off.LEDGER_RECON_SEL]?.getD {}
  let x := tget {} s.therm.sensors (selNum s m Off.THERM_SENSOR_SEL)
  if off = Off.LEDGER_EFFECTIVE then
    some (s.ledger.peff + 2 ^ 12 * b2n (s.ledger.term = 1) + 2 ^ 13 * b2n (s.ledger.term = 2))
  else if off = Off.LEDGER_REFILL then some s.ledger.refill
  else if off = Off.LEDGER_REMAIN then some s.ledger.remain
  else if off = Off.LEDGER_LAPSED then some (sat32 s.ledger.lapsed)
  else if off = Off.LEDGER_RECON_DATA_0 then some r.index
  else if off = Off.LEDGER_RECON_DATA_1 then some r.d
  else if off = Off.LEDGER_RECON_DATA_2 then some r.m
  else if off = Off.LEDGER_RECON_DATA_3 then some (r.scale + 2 ^ 16 * errCode r.err + 2 ^ 31 * b2n r.skipped)
  else if off = Off.LEDGER_BRAKE then some (brakeCode s.brake.st + 4 * b2n s.brake.input + 2 ^ 9 * b2n s.brake.ack)
  else if off = Off.LEDGER_BRAKE_CNT then some s.brake.count
  else if off = Off.LEDGER_CHATTER_CNT then some s.brake.chatter
  else if off = Off.LEDGER_ABORT_CNT then some s.brake.aborts
  else if off = Off.THERM_BAND then some (s.therm.band + 2 ^ 8 * s.therm.hotSensor + 2 ^ 16 * s.therm.hottest)
  else if off = Off.THERM_SENSOR then some (x.temp + 2 ^ 16 * b2n x.failed)
  else none

def clockRo (s : State) (off : Nat) : Option Nat :=
  if off = Off.CLK_STATUS then some (b2n s.clk.locked + 2 * b2n s.clk.fallback) else none

def securityRo (s : State) (m : Master) (off : Nat) : Option Nat :=
  let c := min nodeSlot (selNum s m Off.SEC_CTX_SEL)
  let k := keyEnt s (selNum s m Off.SEC_KEY_SEL)
  let x := ctxOf s c
  if off = Off.SEC_RNG then some (rngCode s.sec.rng + 2 ^ 16 * min 0xFFFF s.sec.reseeds)
  else if off = Off.SEC_CTX_STATE then
    some ((if c = nodeSlot then 1 else ctxCode x.st) + 4 * keyCode (keySlot s c).st + 16 * x.slice + 2 ^ 16 * (keySlot s c).gen)
  else if off = Off.SEC_CTX_TENANT then some x.tenant
  else if off = Off.SEC_CTX_INFLIGHT then some (slotWork s c)
  else if off = Off.SEC_DROP_CNT then some s.sec.drops
  else if off = Off.SEC_GUARD_LOG then some (s.sec.guardKind + 4 * s.sec.guardRing)
  else if off = Off.SEC_GUARD_ADDR then some s.sec.guardAddr
  else if off = Off.SEC_GUARD_CNT then some s.sec.guardCnt
  else if off = Off.SEC_CMD_RESULT then some (s.sec.status + 2 ^ 16 * b2n s.sec.busy)
  else if off = Off.SEC_DATA then some (bufWord s (selNum s m Off.SEC_DATA_INDEX))
  else if off = Off.SEC_SCRUB_PENDING then some s.tier.scrub.length
  else if off = Off.SEC_KEY_ID then some (if k.valid then keyId k.modulus else 0)
  else if off = Off.SEC_KEY_ROLE then some (if k.valid then k.roles + 2 ^ 31 else 0)
  else if off = Off.SEC_FUSE then some (s.boot.minSv % 2 ^ 16 + 2 ^ 16 * (s.boot.vitatuSv % 2 ^ 16))
  else if Off.SEC_ID_FPR_0 ≤ off && off ≤ Off.SEC_ID_FPR_7 then
    some (le ((List.range 4).map fun i => Config.identityFingerprint (off - Off.SEC_ID_FPR_0 + i)))
  else none

/-- A word of the service record (16 R419). -/
def svcWord (s : State) (m : Master) : Nat :=
  let w := selWord s m Off.FAULT_SVC_INDEX
  match s.svc.entries[fld w 7 17]? with
  | some e => leAt e.bytes (4 * (w % 128)) 4
  | none => 0

def faultRo (s : State) (m : Master) (off : Nat) : Option Nat :=
  let l := selWord s m Off.FAULT_LOG_SEL
  let u := selWord s m Off.FAULT_EPOCH_SEL
  let c := s.fault.canary
  if off = Off.FAULT_STATE then some (nodeCode s.fault.st + 2 ^ 8 * s.fault.cause)
  else if off = Off.FAULT_RING_HEADS then some s.fault.ringTail
  else if off = Off.FAULT_LOG_DATA then
    match s.fault.log[fld l 4 8]? with
    | some r => some (leAt (r.bytes false) (4 * (l % 16)) 4)
    | none => some 0
  else if off = Off.FAULT_CMD_RESULT then some (s.fault.status + 2 ^ 16 * b2n s.fault.busy)
  else if off = Off.FAULT_GROUP_ROWS then some (grpRowCount s (selNum s m Off.FAULT_GROUP_SEL))
  else if off = Off.FAULT_SHADOW_COMPARED then some s.fault.shadow.compared
  else if off = Off.FAULT_SHADOW_MISMATCH then some s.fault.shadow.mismatch
  else if off = Off.FAULT_SHADOW_UNMATCHED then some s.fault.shadow.unmatched
  else if off = Off.FAULT_CANARY_LAST then some (c.lastCore + 2 ^ 8 * c.lastPattern + 2 ^ 16 * b2n c.lastFail)
  else if off = Off.FAULT_EPOCH then some (epochOf s (fld u 12 4) (fld u 0 12))
  else if off = Off.FAULT_GRADE then some (s.svc.grade + 2 ^ 8 * s.svc.rule)
  else if off = Off.FAULT_SVC_DATA then some (svcWord s m)
  else if off = Off.FAULT_SVC_HEAD then
    match s.svc.entries.head? with
    | some e => some (e.index % 2 ^ 32)
    | none => some 0
  else none

def weftRo (s : State) (m : Master) (off : Nat) : Option Nat :=
  let n := selNum s m Off.WEFT_HANDLE_SEL
  let h := tget {} s.weft.handles n
  if off = Off.WEFT_STORE_FREE then some (storeFree s)
  else if off = Off.WEFT_LOADED then some (s.weft.handles.countP fun e => e.2.st == .loaded || e.2.st == .retiring)
  else if off = Off.WEFT_HANDLE_STATE then some (handleCode h.st + 2 ^ 16 * cdiv h.frames 16)
  else if off = Off.WEFT_HANDLE_INFLIGHT then some (handleSteps s n)
  else if Off.WEFT_HANDLE_DIGEST_0 ≤ off && off ≤ Off.WEFT_HANDLE_DIGEST_7 then
    some (if h.st = .free then 0 else leAt h.digest (off - Off.WEFT_HANDLE_DIGEST_0) 4)
  else if off = Off.WEFT_LOAD_ERR then some (s.weft.errSection % 2 ^ 8 + 2 ^ 8 * (s.weft.errRecord % 2 ^ 24))
  else if off = Off.WEFT_DEGRADE_CNT then some (sat32 s.weft.degrades)
  else none

/-- A slot's table meets the conditions of the port expander (06 R157). -/
def slotPortOk (s : State) (t : TSlot) : Bool := t.st != .free && (tableOf t.bytes).portOk && rbit s Off.COMP_CTRL 0

def compressRo (s : State) (m : Master) (off : Nat) : Option Nat :=
  let n := selNum s m Off.COMP_SLOT_SEL
  let t := tslotOf s n
  let tag := (sha256 t.bytes).take 8
  if off = Off.COMP_SLOT_STATE then
    some (slotCode t.st + 2 ^ 4 * t.images + 2 ^ 16 * (t.gen % 2 ^ 10) + 2 ^ 26 * b2n (slotPortOk s t))
  else if off = Off.COMP_SLOT_PAGES then some (slotPages s n)
  else if off = Off.COMP_SLOT_INFLIGHT then some (slotInflight s n)
  else if off = Off.COMP_SLOT_TAG_LO then some (if t.st = .free then 0 else leAt tag 0 4)
  else if off = Off.COMP_SLOT_TAG_HI then some (if t.st = .free then 0 else leAt tag 4 4)
  else if off = Off.COMP_SLOTS_FREE then some ((List.range 64).countP fun k => (tslotOf s k).st == .free)
  else if off = Off.COMP_ERR_PFN then some s.weft.compErrPfn
  else if off = Off.COMP_ERR_CNT then some s.weft.compErrCnt
  else none

def plaitRo (s : State) (m : Master) (off : Nat) : Option Nat :=
  let b := (sliceOf s (selNum s m Off.PLAIT_SLICE_SEL)).banks.toNat
  let k := tget {} s.plait.banks (selNum s m Off.PLAIT_BANK_SEL)
  let r := s.plait.res
  if off = Off.PLAIT_SLICE_BANKS_LO then some (fld b 0 32)
  else if off = Off.PLAIT_SLICE_BANKS_HI then some (fld b 32 32)
  else if off = Off.PLAIT_CMD_OPT then some (2 ^ 8 * b2n s.plait.busy)
  else if off = Off.PLAIT_RESULT then
    some (b2n r.hit + 2 * b2n r.multiple + 4 * b2n r.moved + 16 * r.status + 2 ^ 8 * r.bank + 2 ^ 16 * r.prio)
  else if off = Off.PLAIT_RESULT_VALUE_LO then some (fld r.value.toNat 0 32)
  else if off = Off.PLAIT_RESULT_VALUE_HI then some (fld r.value.toNat 32 16)
  else if off = Off.PLAIT_RESULT_CURSOR_LO then some (fld r.cursor.toNat 0 32)
  else if off = Off.PLAIT_RESULT_CURSOR_HI then some (fld r.cursor.toNat 32 32)
  else if off = Off.PLAIT_BANK_COUNT then
    some (k.placed.countP (·.valid) + 2 ^ 20 * k.staged.countP Option.isSome + 2 ^ 24 * b2n (!k.work.isEmpty))
  else if off = Off.PLAIT_ERR then some (s.plait.errPos + 2 ^ 24 * s.plait.errBank)
  else none

def comaRo (s : State) (off : Nat) : Option Nat :=
  if off = Off.COMA_INDEXES then some s.coma.indexes.length
  else if 0xA1000 ≤ off && off < 0xA1800 then
    let die := (off - 0xA1000) / 0x100
    if off = Off.COMA_ENG_BUSY die then some (engineRunning s die + selecting s die + 2 ^ 16 * selecting s die)
    else if off = Off.COMA_ENG_QUEUE die then some (engineQueued s die)
    else none
  else none

def tierRo (s : State) (m : Master) (off : Nat) : Option Nat :=
  let w := selWord s m Off.TIER_SEL
  if Off.TIER_USED_HBM ≤ off && off ≤ Off.TIER_USED_REMOTE then some (usedFrames s (fld w 0 12) ((off - Off.TIER_USED_HBM) / 4))
  else if off = Off.TIER_POOL_FREE_HBM then some (poolFree s (fld w 16 4) 0)
  else if off = Off.TIER_POOL_FREE_BOARD then some (poolFree s (fld w 16 4) 1)
  else if off = Off.TIER_PREFIX_RECORDS then some (s.tier.pfx.countP fun e => e.2.st != .freed)
  else if off = Off.TIER_FLUSH_CTRL then some (2 ^ 16 * b2n s.tier.flushBusy)
  else none

def attnRo (s : State) (off : Nat) : Option Nat :=
  let d := off / 0x10000 - 0x10
  if off = Off.ATTN_CORE_EN d then some (2 ^ 16 * maskOf 16 fun c => coreFenced s (16 * d + c))
  else if off = Off.ATTN_CLUSTER_STATE d then some ((List.range 4).map fun c => 16 ^ c * clusterCode (clusterSt s (4 * d + c))).sum
  else if off = Off.ATTN_DROP_DUP d || off = Off.ATTN_DROP_STALE d || off = Off.ATTN_DROP_BAD d then some (cnt s off)
  else none

/-- A region that an allocated frame lies in: in a COMPUTE region, every one is of placement code 2. -/
def regionHasKv (s : State) (key : Nat) : Bool := s.tier.frames.any fun e => regionOf e.1 == some key

def stackRo (s : State) (m : Master) (off : Nat) : Option Nat :=
  let i := off / 0x10000 - 0x20
  let rk := regionKey i (selNum s m (Off.OSIER_REGION_SEL i))
  let r := regionSt s rk
  let u := unitOf s (256 * (i - 24) + selNum s m (Off.OSIER_UNIT_SEL i))
  if off = Off.HBM_STATE i then some (stackCode (stackSt s i) + 8 * b2n (24 ≤ i))
  else if off = Off.HBM_ECC_PFN i then some (tget 0xFFFFFFFF s.mem.eccPfn i)
  else if off = Off.HBM_SBECC_CNT i || off = Off.HBM_ODECC_CNT i then some (cnt s off)
  else if off = Off.OSIER_REGION_STATE i then
    some (regionCode r.st + 4 * b2n r.owner.isSome + 8 * b2n (r.st = .compute && regionHasKv s rk) + 16 * b2n r.run.isSome +
      32 * b2n r.sealPending + 2 ^ 16 * r.owner.getD 0)
  else if off = Off.OSIER_REGION_RESULT i then some (tget 0 s.osier.result i + 2 ^ 8 * b2n (regionBusy s i))
  else if off = Off.OSIER_PREEMPT_CNT i || off = Off.OSIER_YIELD_CNT i then some (cnt s off)
  else if off = Off.OSIER_UNIT_STATE i then
    some (unitCode u.st + 2 ^ 8 * u.pc + 2 ^ 16 * (u.progOrd % 2 ^ 8) + 2 ^ 24 * (u.progHandle % 2 ^ 8))
  else if 0x4000 ≤ off % 0x10000 && off % 0x10000 < 0x5000 then
    let v := unitOf s (256 * (i - 24) + off % 0x1000 / 0x10)
    if off % 0x10 = 4 then some (unitCode v.st + 2 ^ 8 * v.pc + 2 ^ 16 * v.err)
    else if off % 0x10 = 8 then some v.a0.toNat
    else if off % 0x10 = 0xC then some v.c0.toNat
    else none
  else none

/-- DDR_STATE; a trained channel runs at 8,800 MT/s (18 R460). -/
def ddrRo (s : State) (off : Nat) : Option Nat :=
  let n := off / 0x1000 % 16
  if off = Off.DDR_STATE n then
    some (channelCode (channelSt s n) + 16 * tget 0 s.mem.dimms n + 2 ^ 8 * (if channelSt s n = .ready then 0x58 else 0) +
      2 ^ 16 * tget 0 s.mem.gib n)
  else if off = Off.DDR_ECC_PFN n then some (tget 0xFFFFFFFF s.mem.eccPfn (32 + n))
  else if off = Off.DDR_ECC_CNT n then some (cnt s off)
  else none

def portRo (s : State) (m : Master) (off : Nat) : Option Nat :=
  let p := (off - 0x500000) / 0x4000
  let x := portOf s p
  let c := selNum s m Off.FAB_QUIESCE_SEL
  if off = Off.PORT_STATE p then some (portCode x.st + 2 ^ 4 * x.lanes.toNat + 2 ^ 16 * b2n x.peerSwitch)
  else if off = Off.PORT_PEER p then some x.peerNode
  else if Off.PORT_FEC_CORR_CNT p ≤ off && off ≤ Off.PORT_BAD_FRAME_CNT p then some (cnt s off)
  else if off = Off.FAB_DEAD then some (s.fab.deadNode + 2 ^ 16 * s.fab.deadCtx)
  else if off = Off.FAB_QUIESCE then some (b2n (ctxOf s c).quiesced + 2 ^ 16 * outstanding s fun r => r.ctx == c)
  else if off = Off.FAB_CMD_RESULT then
    some (s.fab.status + 2 ^ 16 * b2n s.fab.busy + 2 ^ 17 * b2n s.fab.poison + 2 ^ 18 * b2n s.fab.combined)
  else if off = Off.FAB_CMD_RDATA_LO then some (fld s.fab.rdata.toNat 0 32)
  else if off = Off.FAB_CMD_RDATA_HI then some (fld s.fab.rdata.toNat 32 32)
  else if off = Off.FAB_OUTSTANDING then some (outstanding s fun _ => true)
  else if off = Off.FAB_LATE_CNT then some (sat32 s.fab.late)
  else none

def qpeRo (s : State) (m : Master) (off : Nat) : Option Nat :=
  let n := selNum s m Off.QPE_QP_SEL
  let p := selNum s m Off.QPE_HOLD_SEL
  if off = Off.QPE_EVT_TAIL then some s.qpe.evtTail
  else if off = Off.QPE_EVT_LOST then some (sat32 s.qpe.evtLost)
  else if off = Off.QPE_QP_STATE then
    some (qpCode (qpOf s n).st + 2 ^ 8 * b2n (isCached s n) + 2 ^ 9 * b2n (isCached s n && pinned' s n) + 2 ^ 16 * s.qpe.cmdStatus)
  else if off = Off.QPE_REG_RESULT then some s.qpe.regStatus
  else if off = Off.QPE_REG_NEWKEY then some s.qpe.newKey
  else if off = Off.QPE_REG_INFLIGHT then some (regionEnt s (keyIndex (regWord s Off.QPE_REG_KEY))).inflight
  else if off = Off.QPE_POST_RESULT then some (s.qpe.postStatus + 2 ^ 16 * b2n s.qpe.postBusy)
  else if off = Off.QPE_HOLD_STATE then some (holdBytes s p + 2 ^ 20 * (heldOn s p).length)
  else none

def egressRo (s : State) (m : Master) (off : Nat) : Option Nat :=
  let p := (off - 0x700000) / 0x2000
  let e := eport s p
  let c := tcSel s m p
  if off = Off.EGR_SHAPE_TOKENS p then some (tokensNow s p c / 2 ^ 24)
  else if off = Off.EGR_DRR_DEFICIT p then some (tget 0 e.deficit c)
  else if off = Off.EGR_GATE_GUARD p then
    some (guardNow s p c + 2 ^ 8 * b2n (gatesOn s p && match e.active with
      | some g => (tget [] g.lists c).any fun x => !x.opened
      | none => false))
  else if off = Off.EGR_GATE_RESULT p then
    some (e.resStatus + 2 ^ 16 * b2n e.pending.isSome + 2 ^ 17 * e.resClass + 2 ^ 24 * (e.resEntry % 2 ^ 8))
  else if off = Off.EGR_POL_DROP_CNT then some (policerOf s (selNum s m Off.EGR_POL_SEL)).drops
  else none

/-- The live state behind the RO fields of a register; none where they hold a constant. -/
def roLive (s : State) (m : Master) (off : Nat) : Option Nat :=
  match off / 0x10000 with
  | 0x0 => globalRo s off
  | 0x1 => commitRo s m off
  | 0x2 => hostqRo s m off
  | 0x3 => ledgerRo s m off
  | 0x4 => clockRo s off
  | 0x5 => securityRo s m off
  | 0x6 => faultRo s m off
  | 0x7 => weftRo s m off
  | 0x8 => compressRo s m off
  | 0x9 => plaitRo s m off
  | 0xA => comaRo s off
  | 0xB => tierRo s m off
  | 0x40 => ddrRo s off
  | 0x60 => qpeRo s m off
  | b =>
    if b < 0x18 then attnRo s off
    else if b < 0x40 then stackRo s m off
    else if b < 0x56 then portRo s m off
    else egressRo s m off

/-! ### Latching pairs (R443, R447) -/

/-- The counter that a selector of a counter block shows. -/
def selCount (s : State) (m : Master) (sel lo : Nat) (ix : Nat) : Nat := cnt s (ckey lo (selNum s m sel) ix)

/-- The 64-bit value whose halves a latching pair shows, by the offset of its LO register. -/
def pairValue (s : State) (m : Master) (lo : Nat) : Option Nat :=
  let b := lo / 0x10000
  if lo = Off.HOSTQ_CNT_LO then some (selCount s m Off.HOSTQ_CNT_SEL lo 0)
  else if lo = Off.LEDGER_DEBIT_LO then some s.ledger.debits
  else if lo = Off.LEDGER_MEAS_LO then some s.ledger.meas
  else if lo = Off.CLK_COUNTER_LO then some s.clk.counter
  else if lo = Off.FAULT_CNT_LO then some (selCount s m Off.FAULT_CNT_SEL lo 0)
  else if lo = Off.WEFT_ADMIT_CNT_LO then some s.weft.admits
  else if lo = Off.COMP_CNT_LO then
    let w := selWord s m Off.COMP_CNT_SEL
    some (cnt s (ckey lo (fld w 8 4) (if fld w 8 4 = 3 then 0 else fld w 0 7)))
  else if lo = Off.PLAIT_CNT_LO then some (selCount s m Off.PLAIT_CNT_SEL lo 0)
  else if lo = Off.QPE_CNT_LO then some (selCount s m Off.QPE_CNT_SEL lo 0)
  else if 0xA1000 ≤ lo && lo < 0xA1800 && lo % 0x100 = 0xC then
    some (selCount s m (Off.COMA_CNT_SEL ((lo - 0xA1000) / 0x100)) lo 0)
  else if 0x10 ≤ b && b < 0x18 && lo % 0x10000 = 0x24 then
    let w := selWord s m (Off.ATTN_CNT_SEL (b - 0x10))
    some (cnt s (ckey lo (fld w 8 4) (fld w 0 4)))
  else if 0x38 ≤ b && b < 0x40 && lo % 0x10000 = 0x1010 then
    some (regionSt s (regionKey (b - 0x20) (selNum s m (Off.OSIER_REGION_SEL (b - 0x20))))).gen
  else if 0x70 ≤ b && b < 0x73 && lo % 0x2000 = 0x44 && (lo < 0x701000 || 0x702000 ≤ lo) then
    let p := (lo - 0x700000) / 0x2000
    some (if tcSel s m p = 0 then 0 else cnt s (ckey lo (selNum s m (Off.EGR_CNT_SEL p)) (tcSel s m p)))
  else none

/-- The high half a master has latched for a LO register. -/
def latchOf (s : State) (m : Master) (lo : Nat) : Nat :=
  (tget 0 (match m with
    | .pcie _ => s.regs.latchPcie
    | .sideband => s.regs.latchSb) lo).toNat

def putLatch (s : State) (m : Master) (lo hi : Nat) : State :=
  let v : Word := BitVec.ofNat 32 hi
  match m with
  | .pcie _ => { s with regs := { s.regs with latchPcie := tset 0 s.regs.latchPcie lo v } }
  | .sideband => { s with regs := { s.regs with latchSb := tset 0 s.regs.latchSb lo v } }

/-! ### Words read -/

def StatusReg.word (x : StatusReg) : Nat := x.seq.toNat + 2 ^ 16 * x.hi.toNat

/-- A register of RC-SEQ fields (R450). -/
def isStatus (r : Reg) : Bool := r.fields.any fun f => f.ty == .rcseq

/-- Class 0 reads zero in every class register of an EGRESS block (13 R332). -/
def classZero (s : State) (m : Master) (off : Nat) : Bool :=
  let b := off / 0x10000
  0x70 ≤ b && b < 0x73 && [0x8, 0xC, 0x10, 0x14, 0x18, 0x1C].contains (off % 0x2000) && tcSel s m ((off - 0x700000) / 0x2000) == 0

def groupCode : GroupState → Nat
  | .idle => 0 | .active => 1 | .sending => 2 | .rebuilding => 3

/-- The path entry that QPE_PATH_SEL names, as the path table holds it (12 R291). -/
def selPath (s : State) (m : Master) : Nat :=
  pathWord s (fld (selWord s m Off.QPE_PATH_SEL) 0 12) (fld (selWord s m Off.QPE_PATH_SEL) 16 14)

/-- The bits behind RW and RW-G fields: as stored, but for fields that show a live state, read as zero or are ignored (16 R419;
11 R288; 13 R332; 14 R357). -/
def rwWord (s : State) (m : Master) (off : Nat) : Nat :=
  let w := storedWord s m off
  let o := off % 0x2000
  if off = Off.FAULT_GROUP_CTX then putFld w 16 2 (groupCode (grpOf s (selNum s m Off.FAULT_GROUP_SEL)).st)
  else if off = Off.FAB_QUIESCE then putFld w 1 1 0
  else if off = Off.THERM_BAND_CFG_0 then putFld w 0 8 0
  else if off = Off.QPE_PATH then under 0x80FFFFFF w (selPath s m)
  else if 0x700000 ≤ off && off < 0x730000 && o = 0x14 && tcSel s m ((off - 0x700000) / 0x2000) < 3 then 0
  else w

/-- What a master reads at a normal-view offset: another master than a privileged one reads guarded fields as zero (00 R10);
before the side effects of the read (R442, R444). -/
def readWord (s : State) (m : Master) (off : Nat) : Nat :=
  match regAt off with
  | none => 0
  | some r =>
    if isStatus r then (statusOf s off).word
    else if classZero s m off then 0
    else match pairValue s m off with
      | some v => v % 2 ^ 32
      | none =>
        if (pairValue s m (off - 4)).isSome then latchOf s m (off - 4)
        else
          let ro := typeMask r (· == .ro)
          let hidden := typeMask r (fun t => t == .wo || (t == .rwg && !privileged s m))
          let live := (roLive s m off).getD (resetWord off)
          if off = Off.SEC_DATA then (if privileged s m then bufWord s (selNum s m Off.SEC_DATA_INDEX) else 0)
          else (rwWord s m off &&& (0xFFFFFFFF ^^^ (ro ||| hidden))) ||| (live &&& ro)

/-! ### Side effects of a read -/

/-- A read of a status register sets the reading master's mark (R450). -/
def markRead (s : State) (m : Master) (off : Nat) : State :=
  let st := statusOf s off
  statusPut s off (match m with
    | .pcie _ => { st with markPcie := true }
    | .sideband => { st with markSb := true })

/-- A read of a region's write generation returns it (07 R173). -/
def readGen (s : State) (m : Master) (off : Nat) : State :=
  let b := off / 0x10000
  if 0x38 ≤ b && b < 0x40 && off % 0x10000 = 0x1010 then
    let k := regionKey (b - 0x20) (selNum s m (Off.OSIER_REGION_SEL (b - 0x20)))
    setRegion s k { regionSt s k with returned := true }
  else s

/-- FAULT_SVC_INDEX.word advances by one (16 R419). -/
def stepSvc (s : State) (m : Master) : State :=
  selPut s m Off.FAULT_SVC_INDEX (putFld (selWord s m Off.FAULT_SVC_INDEX) 0 7 (selWord s m Off.FAULT_SVC_INDEX % 128 + 1))

/-- The state after a master has read a normal-view offset. -/
def afterRead (s : State) (m : Master) (off : Nat) : State :=
  match regAt off with
  | none => s
  | some r =>
    if isStatus r then markRead s m off
    else if off = Off.GLOBAL_PARITY_ADDR then { s with regs := { s.regs with parMore := false, parUnread := false } }
    else if off = Off.FAULT_SVC_DATA then stepSvc s m
    else if off = Off.SEC_DATA then stepIndex s m
    else match pairValue s m off with
      | some v => readGen (putLatch s m off (v / 2 ^ 32 % 2 ^ 32)) m off
      | none => s

/-- A 4-byte read of BAR0: the answer, and its side effects. Blocks that do not serve yet read zero (17 R425); FENCED_SAFE
aborts (16 R412). -/
def busRead (m : Master) (addr : Nat) (s : State) : State :=
  let off := addr % 2 ^ 24
  if !s.pins.por then s
  else if served s m off then afterRead (emit s (.readData (BitVec.ofNat 32 (readWord s m off)))) m off
  else if inSafe s && m != .sideband then emit s .completerAbort
  else emit s (.readData 0)

end Sys2Proof.Machine
end

