-- ==== Sys2Proof/Machine/Bus.lean ====
section
/-! DEFINITION. Register writes in every view, the write-back of status registers, reads with side effects, and the parity
sweep (18 R441 to R455, R459). -/
namespace Sys2Proof.Machine
open Sys2Proof

/-! ### Bits that a register does not take for now -/

/-- Bits of a register that a write leaves alone in the present state. -/
def lockedBits (s : State) (m : Master) (off : Nat) : Nat :=
  let o := off % 0x2000
  let all := 0xFFFFFFFF
  if Off.HOSTQ_RING_SQ_LO ≤ off && off ≤ Off.HOSTQ_RING_CFG then
    (if (ringOf s (ringSel s m)).st = .disabled then 0 else if off = Off.HOSTQ_RING_CFG then 0x1FFFFF else all)
  else if Off.HOSTQ_ADMIN_SQ_LO ≤ off && off ≤ Off.HOSTQ_ADMIN_CFG then
    (if (ringOf s adminRing).st = .disabled then 0 else if off = Off.HOSTQ_ADMIN_CFG then 0xF else all)
  else if off = Off.HOSTQ_FUNC_VECTORS then (if s.hostq.vfsOn then 0xFFF else 0)
  else if off = Off.WEFT_STORE_FRAMES then (if s.weft.handles.any fun e => e.2.st != .free then all else 0)
  else if off = Off.FAB_NODE then (if s.ports.any fun e => e.2.st != .down then 0x3FFF else 0)
  else if off = Off.QPE_CTRL then (if rbit s Off.QPE_CTRL 0 then 2 else 0)
  else if off = Off.THERM_BAND_CFG_0 then 0xFF
  else if off = Off.FAULT_GROUP_CFG || off = Off.FAULT_GROUP_MEMBER then
    (if (grpOf s (selNum s m Off.FAULT_GROUP_SEL)).st = .idle then 0 else all)
  else if off = Off.FAULT_GROUP_CTX then all
  else if 0x700000 ≤ off && off < 0x730000 && [0x8, 0xC, 0x14].contains o && tcSel s m ((off - 0x700000) / 0x2000) = 0 then all
  else 0

/-- The word of an access that leaves the locked bits as stored, in the normal view's terms. -/
def takenWord (s : State) (m : Master) (v : View) (off d : Nat) : Nat :=
  let old := storedWord s m off
  under (lockedBits s m off) (viewWord v old d) old

/-! ### Commands that a register starts -/

/-- A command register that has no command for its op: a status nothing states (PLAIT_RESULT, QPE_QP_STATE, FAB_CMD_RESULT,
SEC_CMD_RESULT). -/
def freeStatus (s : State) : Nat × State :=
  let f := free64 s
  (f.1.toNat % 65536, f.2)

def faultOp (m : Master) (w : Nat) (s : State) : State :=
  let kind := fld w 5 4
  let ix := fld w 9 12
  match fld w 1 4 with
  | 0 => fenceNode m s
  | 1 => unfenceNode m s
  | 2 => fenceUnit m kind ix s
  | 3 =>
    let f := free64 s
    rejoinUnit m kind ix (f.1.getLsbD 0) (f.1.getLsbD 1) (f.1.getLsbD 2) f.2
  | 4 => rebuildSend m s
  | 5 => rebuildRecv m s
  | 6 => shadowStart m s
  | 7 => promote m s
  | 8 => safe m (fld w 16 16) s
  | _ => if s.fault.busy then s else faultEnd s St.FAULT_CMD_INVALID

def secOp (m : Master) (w : Nat) (s : State) : State :=
  match fld w 1 3 with
  | 0 => erase m (bitOf w 16) (bitOf w 17) s
  | 1 => enrolKey m (fld w 8 3) (fld w 12 2) s
  | 2 => removeKey m (fld w 8 3) s
  | 3 => setCredential m s
  | 4 => attest m s
  | 5 => advanceSv m s
  | _ =>
    let f := freeStatus s
    if s.sec.busy then { s with sec := { s.sec with status := St.SEC_BUSY } } else secEnd f.2 f.1

def commitOp (m : Master) (w : Nat) (s : State) : State :=
  match fld w 1 2 with
  | 0 => commitCmd s m 0 fun s => stageAdd s [stagedEntry s]
  | 1 => commitCmd s m 1 checkBank
  | 2 => commitCmd s m 2 commitBank
  | _ => commitCmd s m 3 clearBank

def plaitOp (m : Master) (w : Nat) (s : State) : State :=
  match fld w 1 3 with
  | 0 => plaitCmd m 0 .search (some (fld w 4 12)) (some (fld w 16 16)) s
  | 1 => plaitCmd m 1 .next (some (fld w 4 12)) (some (fld w 16 16)) s
  | 2 => plaitCmd m 2 .insert (some (fld w 4 12)) (some (fld w 16 16)) s
  | 3 => plaitCmd m 3 .insertUnique (some (fld w 4 12)) (some (fld w 16 16)) s
  | 4 => plaitCmd m 4 .delete (some (fld w 4 12)) (some (fld w 16 16)) s
  | _ =>
    let f := freeStatus s
    if s.plait.busy then s else { f.2 with plait := { f.2.plait with res := { status := 6 + f.1 % 10 } } }

def fabOp (m : Master) (w : Nat) (s : State) : State :=
  let op := fld w 1 3
  if op = 7 then
    let f := freeStatus s
    if s.fab.busy then s else fabEnd f.2 f.1
  else fabCmd m op (fld w 16 12) (some (bitOf w 4)) (bitOf w 5) s

def qpOp (m : Master) (w : Nat) (s : State) : State :=
  match fld w 1 2 with
  | 0 => qpCreate m s
  | 1 => qpReset m s
  | 2 => qpDestroy m s
  | _ =>
    let f := freeStatus s
    qpStatus f.2 f.1

def regionOp (m : Master) (stack w : Nat) (s : State) : State :=
  match fld w 1 2 with
  | 0 => unsealPool m stack s
  | 1 => unsealOwned m stack (fld w 16 12) s
  | 2 => sealCmd m stack s
  | _ => releaseCmd m stack s

/-- The command that a written word starts, by the register; `w` holds the WO bits set. None where the register starts
nothing. RECOVERY_LOAD reads host memory and has only its own row. -/
def startOf (m : Master) (off w : Nat) : Option (State → State) :=
  let go := bitOf w 0
  let b := off / 0x10000
  if off = Off.FAULT_CMD then (if go then some (faultOp m w) else none)
  else if off = Off.SEC_CMD then (if go then some (secOp m w) else none)
  else if off = Off.COMMIT_CMD then (if go then some (commitOp m w) else none)
  else if off = Off.PLAIT_CMD then (if go then some (plaitOp m w) else none)
  else if off = Off.FAB_CMD then (if go then some (fabOp m w) else none)
  else if off = Off.QPE_QP_CMD then (if go then some (qpOp m w) else none)
  else if off = Off.QPE_REG_CMD then (if go then some (if bitOf w 1 then revoke m else register m) else none)
  else if off = Off.QPE_POST then (if go then some (qpePost m (fld w 8 24)) else none)
  else if off = Off.TIER_FLUSH_CTRL then (if go then some (tierFlush m (bitOf w 1)) else none)
  else if off = Off.LEDGER_BRAKE then (if bitOf w 8 then some (brakeAck m) else none)
  else if off = Off.FAB_QUIESCE then (if bitOf w 1 then some (quiesceRelease m) else none)
  else if 0x38 ≤ b && b < 0x40 && off % 0x10000 = 0x1008 then (if go then some (regionOp m (b - 0x20) w) else none)
  else if 0x38 ≤ b && b < 0x40 && 0x4000 ≤ off % 0x10000 && off % 0x10 = 0 then
    let u := 256 * (b - 0x38) + off % 0x1000 / 0x10
    some fun s =>
      let s := if go then unitStart m u (fld w 8 8) s else s
      if bitOf w 1 then unitHalt m u s else s
  else if 0x50 ≤ b && b < 0x56 && off % 0x4000 = 8 then
    let p := (off - 0x500000) / 0x4000
    if bitOf w 2 then some fun s => portRetrain m p (followEnable s p) else none
  else if 0x70 ≤ b && b < 0x73 && off % 0x2000 = 0x38 then
    let p := (off - 0x700000) / 0x2000
    some fun s =>
      let s := if go then gateInstall m p s else s
      if bitOf w 1 then gateCancel m p s else s
  else none

/-! ### Effects of a written value -/

/-- FAULT_GROUP_CTX: the state a write asks for (16 R419). -/
def groupCtxWrite (m : Master) (w : Nat) (s : State) : State :=
  let gi := selNum s m Off.FAULT_GROUP_SEL
  let g := grpOf s gi
  if g.st ≠ .idle && g.st ≠ .active then s
  else match fld w 16 2 with
    | 0 =>
      let s := setGrp s gi { g with st := .idle }
      let k := rkey Off.FAULT_GROUP_CTX gi
      if g.st = .idle then regPut s k (putFld (regWord s k) 0 12 (fld w 0 12)) else s
    | 1 => groupActivate m (fld w 0 12) s
    | _ => s

/-- Buckets run at the old rate up to a write of a rate or burst (13 R320, R330). -/
def settleBuckets (s : State) (m : Master) (off : Nat) : State :=
  if 0x700000 ≤ off && off < 0x730000 && [0x0, 0x8, 0xC].contains (off % 0x2000) then accrue s ((off - 0x700000) / 0x2000)
  else if off = Off.EGR_POL_RATE || off = Off.EGR_POL_BURST then polAccrue s (selNum s m Off.EGR_POL_SEL)
  else s

/-- What follows from the value a register now holds. -/
def followWrite (m : Master) (off : Nat) (s : State) : State :=
  if off = Off.HOSTQ_RING_CFG then
    let r := ringSel s m
    if bitOf (ringCfg s r) 31 then startRing s r else drainRing s r
  else if off = Off.HOSTQ_ADMIN_CFG then (if rbit s off 31 then startRing s adminRing else drainRing s adminRing)
  else if off = Off.LEDGER_BUDGET || off = Off.LEDGER_BRAKE_FLOOR then applyFall s
  else if off = Off.LEDGER_SCALE then
    { s with ledger := { s.ledger with scaleWrite := some (clampScale (rf s off 0 16)) } }
  else if off = Off.CLK_CLUSTER_REQ then wakeClusters s
  else if off = Off.HOSTQ_CTRL then (if rbit s off 0 then s else { s with hostq := { s.hostq with interval := 0 } })
  else if off = Off.QPE_PATH then
    nodeWrite s (rf s Off.QPE_PATH_BASE 0 32) (pathAt (fld (selWord s m Off.QPE_PATH_SEL) 0 12) (fld (selWord s m Off.QPE_PATH_SEL) 16 14))
      (putLe 4 (storedWord s m off &&& 0x80FFFFFF))
  else if off = Off.FAB_NODE then (List.range 24).foldl beginTraining s
  else if 0x500000 ≤ off && off < 0x560000 && off % 0x4000 = 8 then followEnable s ((off - 0x500000) / 0x4000)
  else ibiCheck s

/-! ### REGISTER_WRITE (R442 to R445, R448, R449) -/

/-- BAR0 address of a view. -/
def viewAddr (v : View) (off : Nat) : Nat :=
  (match v with
    | .normal => 0 | .set => 1 | .clear => 2 | .toggle => 3) * 2 ^ 24 + off

/-- The write-back of a status register (R450): a normal-view write that gives seq, with the writer's mark set, clears the
flags. -/
def statusWriteBack (s : State) (m : Master) (off d : Nat) : State :=
  let st := statusOf s off
  let mark := match m with
    | .pcie _ => st.markPcie
    | .sideband => st.markSb
  if d % 2 ^ 16 ≠ st.seq.toNat || !mark then s
  else
    let n := flagCount off
    let hi := st.hi.toNat / 2 ^ n * 2 ^ n
    let st' : StatusReg := { st with hi := BitVec.ofNat 16 hi }
    ibiCheck (statusPut s off (match m with
      | .pcie _ => { st' with markPcie := false }
      | .sideband => { st' with markSb := false }))

/-- QPE_PATH shows the entry of the path table, whatever was written through it last (12 R291). -/
def loadPath (s : State) (m : Master) (off : Nat) : State :=
  if off = Off.QPE_PATH then
    let t := regPut s (keyOf s m off) (rwWord s m off)
    { t with regs := { t.regs with badParity := s.regs.badParity } }
  else s

/-- A write of one word to a register that is no status register. -/
def plainWrite (s : State) (m : Master) (v : View) (off d : Nat) (r : Reg) : State :=
  if off = Off.SEC_DATA then
    secDataAccess m (some (viewWord v (bufWord s (selNum s m Off.SEC_DATA_INDEX)) d)) s
  else
    let s := loadPath s m off
    let w := takenWord s m v off d
    let bad := v ≠ .normal && s.regs.badParity.contains (parityKey s m off)
    let wo := writtenWo s m v r d
    let s := if bad then s else settleBuckets s m off
    let s := typedWrite s m v (viewAddr v off) r (match v with
      | .normal => w
      | _ => d &&& (0xFFFFFFFF ^^^ lockedBits s m off))
    if bad || !privileged s m then (if r.fields.any (·.ty == .rwg) || bad then s else ibiCheck s)
    else
      let s := if off = Off.FAULT_GROUP_CTX then groupCtxWrite m (viewWord v (rwWord s m off) d) s else s
      let asked := if off = Off.FAB_QUIESCE then viewWord v 0 d else storedWord s m off
      match startOf m off (asked ||| wo) with
      | some run => run s
      | none => followWrite m off s

/-- A write of one aligned word. GLOBAL_MGMT_RID takes nothing from BAR0 (R445). -/
def writeWord (m : Master) (v : View) (off d : Nat) (s : State) : State :=
  if !served s m off then (if inSafe s && m != .sideband then emit s .completerAbort else s)
  else match regAt off with
    | none => accessError s m (viewAddr v off) 1
    | some r =>
      if isStatus r then (if v = .normal then statusWriteBack s m off d else accessError s m (viewAddr v off) 2)
      else if off = Off.GLOBAL_MGMT_RID && m != .sideband then (if privileged s m then s else guardRefuse s 1 0 (viewAddr v off))
      else plainWrite s m v off d r

/-- The access has a form that R443 allows: 4 or 8 bytes, aligned to its size, every byte enabled. -/
def accessForm (off size be : Nat) : Bool :=
  (size == 4 && off % 4 == 0 && be % 16 == 15) || (size == 8 && off % 8 == 0 && be % 256 == 255)

def registerWrite (m : Master) (v : View) (off d size be : Nat) (s : State) : State :=
  let off := off % 2 ^ 24
  if !s.pins.por then s
  else if inSafe s && m != .sideband then emit s .completerAbort
  else if !accessForm off size be then accessError s m (viewAddr v off) 0
  else
    let s := writeWord m v off (d % 2 ^ 32) s
    if size = 8 then writeWord m v (off + 4) (d / 2 ^ 32 % 2 ^ 32) s else s

/-- REGISTER_WRITE (R442 to R445, R448, R449). -/
def execRegisterWrite (m : Master) (v : View) (addr data size be : Nat) (s : State) : Host.Outcome State Fault Refusal :=
  .next (registerWrite m v addr data size be s)

/-! ### Status registers and reads with side effects (R447, R450, R459; 16 R419) -/

def seqWriteBack (m : Master) (addr d : Nat) (s : State) : State :=
  let off := addr % 2 ^ 24
  match regAt off with
  | none => s
  | some r => if isStatus r && addr % 2 ^ 26 = off then writeWord m .normal off (d % 2 ^ 32) s else s

/-- SEQ_WRITE_BACK (R450). -/
def execSeqWriteBack (m : Master) (addr data : Nat) (s : State) : Host.Outcome State Fault Refusal := .next (seqWriteBack m addr data s)

/-- A read of `size` bytes: each word it touches, the lower first, with the word's full side effects. One longer than 8 bytes or across an
8-byte boundary is aborted and recorded (R443). -/
def sizedRead (m : Master) (addr size : Nat) (s : State) : State :=
  let a := addr / 4 * 4
  if !s.pins.por then s
  else if inSafe s && m != .sideband then emit s .completerAbort
  else if 8 < addr % 8 + size then accessError (emit s .completerAbort) m addr 0
  else if addr % 4 + size ≤ 4 then busRead m a s
  else busRead m (a + 4) (busRead m a s)

def statusRead (m : Master) (addr size : Nat) (s : State) : State :=
  match regAt (addr / 4 * 4 % 2 ^ 24) with
  | none => s
  | some r => if isStatus r then sizedRead m addr size s else s

/-- STATUS_READ (R443, R450). -/
def execStatusRead (m : Master) (addr size : Nat) (s : State) : Host.Outcome State Fault Refusal := .next (statusRead m addr size s)

def loReadLatch (m : Master) (addr size : Nat) (s : State) : State :=
  if (pairValue s m (addr / 4 * 4 % 2 ^ 24)).isSome then sizedRead m addr size s else s

/-- LO_READ_LATCH (R443, R447). -/
def execLoReadLatch (m : Master) (addr size : Nat) (s : State) : Host.Outcome State Fault Refusal := .next (loReadLatch m addr size s)

/-- PARITY_ADDR_READ (R459). -/
def execParityAddrRead (m : Master) (s : State) : Host.Outcome State Fault Refusal := .next (busRead m Off.GLOBAL_PARITY_ADDR s)

/-- SVC_DATA_READ (16 R419). -/
def execSvcDataRead (m : Master) (s : State) : Host.Outcome State Fault Refusal := .next (busRead m Off.FAULT_SVC_DATA s)

/-! ### The parity sweep (R451, R452) -/

/-- Bits of a register that are stored as they are written: its RW and RW-G fields and its reserved bits (R451). -/
def storedMask (r : Reg) : Nat := reservedMask r ||| typeMask r fun t => t == .rw || t == .rwg

/-- Stored bits of an instance have changed by themselves: its parity fails from now on. -/
def corrupt (s : State) (key : Nat) (flips : Word) : State :=
  let off := key % 2 ^ 24
  let mask := match regAt off with
    | some r => flips.toNat &&& storedMask r
    | none => 0
  let s := if perMaster off then
      let m := if key < 2 ^ 24 then Master.pcie 0 else .sideband
      selPut s m off (selWord s m off ^^^ mask)
    else regPut s key (regWord s key ^^^ mask)
  { s with regs := { s.regs with badParity := s.regs.badParity ++ [key] } }

/-- The selector value that names an instance; a master's own copy has none (R452). -/
def parityIndex (key : Nat) : Nat := if perMaster (key % 2 ^ 24) then 0 else key / 2 ^ 24

/-- A mismatch is recorded, counted and raised (R452 steps 1 to 3). -/
def parityRecord (s : State) (key : Nat) : State :=
  let s := { s with regs := { s.regs with parAddr := key % 2 ^ 24, parSel := parityIndex key, parUnread := true,
                                          parMore := s.regs.parUnread } }
  raise (countSat s Off.GLOBAL_PARITY_CNT 1) Off.GLOBAL_STATUS 1

/-- The owning unit is halted (R452 step 4). A die has no unit kind: the record names its first cluster, and all four are
fenced. -/
def parityHalt (s : State) (key : Nat) : State :=
  match blockOwner key with
  | (1, die) => (List.range 4).foldl (fun s c => fenceUnitNow s 2 (4 * die + c)) (unitFault s 0x25 2 (4 * die))
  | (0, _) => nodeFault s 0x30
  | (kind, ix) => unitFault s 0x25 kind ix

/-- An instance carries a parity bit: its register has an RW or RW-G field (R451). -/
def hasParity (key : Nat) : Bool :=
  match regAt (key % 2 ^ 24) with
  | some r => (r.fields.any fun f => f.ty == .rw || f.ty == .rwg) && (!perMaster (key % 2 ^ 24) || key / 2 ^ 24 < 2)
  | none => false

/-- One check of an instance: `bad` names it, with the stored bits that have changed, where its parity fails. A check on use needs no
sweep. -/
def paritySweep (bad : Option (Nat × Word)) (use : Bool) (s : State) : State :=
  match bad with
  | none => s
  | some (key, flips) =>
    if !s.pins.por || !(use || rbit s Off.GLOBAL_PARITY_CTRL 0) || inSafe s || !hasParity key then s
    else parityHalt (parityRecord (corrupt s key flips) key) key

/-- PARITY_SWEEP (R451, R452). -/
def execParitySweep (bad : Option (Nat × Word)) (use : Bool) (s : State) : Host.Outcome State Fault Refusal :=
  whileAlive s (paritySweep bad use s)

end Sys2Proof.Machine
end

