-- ==== Sys2Proof/Machine/Dispatcher.lean ====
section
/-! DEFINITION. The dispatcher's clockwork: Ledger windows with the starvation guard, and waits that run out (05 R139, R142; 14
R340). -/
namespace Sys2Proof.Machine
open Sys2Proof

/-! ### Starvation guard (R142) -/

/-- Change the count of starved windows of a descriptor, fetched or waiting for a portion. -/
def setStarved (s : State) (f : Desc → Nat) : State :=
  { s with hostq := { s.hostq with fetched := s.hostq.fetched.map fun (d : Desc) => { d with starved := f d } },
           weft := { s.weft with steps := s.weft.steps.map fun (t : Step) => { t with desc := { t.desc with starved := f t.desc } } } }

def starvedOf (s : State) (id : Nat) : Nat :=
  match findDesc s id with
  | some d => d.starved
  | none => match findStep s id with
    | some t => t.desc.starved
    | none => 0

/-- Some way to let in the candidate passes tests 8 to 10 at the budget in force: its first portion or one variant. -/
def couldAdmit (s : State) (id : Nat) : Bool :=
  let full := { s with ledger := { s.ledger with remain := s.ledger.refill } }
  (candidates full).any fun c => c.id == id && c.admits

def handleOfCand (s : State) (id : Nat) : Nat :=
  match findDesc s id with
  | some d => d.handle
  | none => match findStep s id with
    | some t => t.handle
    | none => 0

/-- The guard stops at an opening at which none of its variants passes tests 8 to 10. -/
def dropGuard (s : State) : State :=
  match s.weft.guardId with
  | none => s
  | some g => if couldAdmit s g then s else setStarved { s with weft := { s.weft with guardId := none } } fun _ => 0

/-- At an opening the first step in the order that finds no variant is counted; it becomes the guard at the limit. An opening while
the dispatcher is closed counts too (DESIGN CHOICE: R142 names no such exception). -/
def guardStep (s : State) : State :=
  let limit := rf s Off.WEFT_CTRL 4 4
  match (candidates s).head? with
  | none => setStarved s fun _ => 0
  | some c =>
    if c.admits then setStarved s fun _ => 0
    else
      let n := starvedOf s c.id + 1
      let s := setStarved s fun d => if d.id = c.id then n else 0
      if limit != 0 && n ≥ limit && s.weft.guardId.isNone then
        weftEvent { s with weft := { s.weft with guardId := some c.id } } 2 (handleOfCand s c.id)
      else s

/-- A Ledger window opens; the admissions that follow are the dispatcher's own commands. -/
def windowOpen (measured : Nat) (s : State) : State := dropGuard (guardStep (openWindow s measured))

/-- WINDOW_OPEN (14 R340 to R343, 05 R142). -/
def execWindowOpen (measured : Nat) (s : State) : Host.Outcome State Fault Refusal := whileAlive s (windowOpen measured s)

/-! ### Waits (R139) -/

def waitExpired (id : Nat) (s : State) : State :=
  match findDesc s id with
  | none => s
  | some d =>
    if !(1 ≤ d.kind && d.kind ≤ 7) || d.ring = adminRing || !descReady s d || rf s Off.WEFT_WAIT_LIMIT 0 16 = 0 then s
    else weftEvent (refuse s d St.WAIT_EXPIRED) 3 d.handle

/-- WAIT_EXPIRED (R139, R142, 04 R111). -/
def execWaitExpired (id : Nat) (s : State) : Host.Outcome State Fault Refusal := whileAlive s (waitExpired id s)

end Sys2Proof.Machine
end

