-- ==== Sys2Proof/Machine/Sideband.lean ====
section
/-! DEFINITION. The I3C sideband: register commands and responses, and the common command codes (18 R454, R456 to R458). -/
namespace Sys2Proof.Machine
open Sys2Proof

/-! ### Register access (R457) -/

/-- The response to the last command; another one is discarded. -/
def respondSb (s : State) (status : Nat) (data : Bytes) : State :=
  let b := putLe 1 status ++ data
  { s with sb := { s.sb with resp := some (b ++ putLe 1 (crc8 b)) } }

/-- A READ or READ_FIFO of words at addresses, in order. -/
def sbReadWords (s : State) : List Nat → Bytes × State
  | [] => ([], s)
  | off :: rest =>
    let w := putLe 4 (readWord s .sideband off)
    let r := sbReadWords (afterRead s .sideband off) rest
    (w ++ r.1, r.2)

/-- The address field: word aligned, bits [31:26] zero. -/
def sbAddrOk (a : Nat) : Bool := a % 4 == 0 && a < 2 ^ 26

/-- Normal-view offsets of the words a command reads. -/
def sbWords (a count : Nat) (fifo : Bool) : List Nat := (List.range count).map fun i => (if fifo then a else a + 4 * i) % 2 ^ 24

def sbReads (s : State) (a count : Nat) (fifo : Bool) : State :=
  let ws := sbWords a count fifo
  if count = 0 || 64 < count || !(sbAddrOk (a + 4 * (if fifo then 0 else count - 1))) then respondSb s 2 []
  else if !(ws.all (served s .sideband)) then respondSb s 1 []
  else
    let r := sbReadWords s ws
    respondSb r.2 0 r.1

/-- The view an address of BAR0 lies in. -/
def viewOf (a : Nat) : View :=
  match a / 2 ^ 24 % 4 with
  | 0 => .normal | 1 => .set | 2 => .clear | _ => .toggle

def sbPut (s : State) (a w : Nat) : State :=
  if !served s .sideband (a % 2 ^ 24) then respondSb s 1 []
  else respondSb (writeWord .sideband (viewOf a) (a % 2 ^ 24) w s) 0 []

/-- A private write reaches the node: the CRC is checked, then op, length and address, before it does anything. -/
def sbCommand (cmd : Bytes) (s : State) : State :=
  let n := cmd.length - 1
  let op := leAt cmd 0 1
  let a := leAt cmd 1 4
  if !s.pins.por then s
  else if cmd.isEmpty || leAt cmd n 1 ≠ crc8 (cmd.take n) then respondSb s 3 []
  else if !sbAddrOk a then respondSb s 2 []
  else if op = 1 && n = 6 then sbReads s a (leAt cmd 5 1) false
  else if op = 2 && n = 6 then sbReads s a (leAt cmd 5 1) true
  else if op = 3 && n = 9 then sbPut s a (leAt cmd 5 4)
  else respondSb s 2 []

/-- SB_READ (R457, R458). -/
def execSbRead (cmd : Bytes) (s : State) : Host.Outcome State Fault Refusal := .next (sbCommand cmd s)

/-- SB_READ_FIFO (R457, R458). -/
def execSbReadFifo (cmd : Bytes) (s : State) : Host.Outcome State Fault Refusal := .next (sbCommand cmd s)

/-- SB_WRITE (R445, R457, R458). -/
def execSbWrite (cmd : Bytes) (s : State) : Host.Outcome State Fault Refusal := .next (sbCommand cmd s)

def sbResponse (s : State) : State :=
  if !s.pins.por then s
  else match s.sb.resp with
    | some b => { emit s (.sideband b) with sb := { s.sb with resp := none } }
    | none => emit s (.sideband (putLe 1 4 ++ putLe 1 (crc8 (putLe 1 4))))

/-- SB_RESPONSE (R457). -/
def execSbResponse (s : State) : Host.Outcome State Fault Refusal := .next (sbResponse s)

/-! ### Common command codes (R456). The formats are those of MIPI I3C Basic. -/

/-- A CCC acts on a node that is not held in reset. -/
def ccc (s : State) (run : State → State) : State := if s.pins.por then run s else s

/-- ENINT, bit 0 of the events byte: in-band interrupts. -/
def enec (events : Nat) (s : State) : State :=
  ccc s fun s => if bitOf events 0 then { s with sb := { s.sb with events := true } } else s

/-- ENEC (R454, R456). -/
def execEnec (events : Nat) (s : State) : Host.Outcome State Fault Refusal := .next (enec events s)

def disec (events : Nat) (s : State) : State :=
  ccc s fun s => if bitOf events 0 then { s with sb := { s.sb with events := false } } else s

/-- DISEC (R456). -/
def execDisec (events : Nat) (s : State) : Host.Outcome State Fault Refusal := .next (disec events s)

/-- RSTDAA (R456). -/
def execRstdaa (s : State) : Host.Outcome State Fault Refusal :=
  .next (ccc s fun s => { s with sb := { s.sb with dynAddr := none } })

/-- The static address (R456). -/
def staticAddr : Nat := 0x3A

def setdasa (static dynamic : Nat) (s : State) : State :=
  ccc s fun s => if static = staticAddr && s.sb.dynAddr.isNone then { s with sb := { s.sb with dynAddr := some dynamic } } else s

/-- SETDASA (R456). -/
def execSetdasa (static dynamic : Nat) (s : State) : Host.Outcome State Fault Refusal := .next (setdasa static dynamic s)

def serialBytes : Bytes := (List.range 16).map Config.serial

/-- The low 32 bits of the provisional ID: the first four bytes of the SHA-256 of the serial number. -/
def pidLow : Nat := leAt (sha256 serialBytes) 0 4

/-- The provisional ID, 6 bytes, most significant first: the manufacturer's 15 bits, which no rule gives, are free; bit 32 marks
the random-value form. -/
def pidBytes (vendor : Nat) : Bytes := (putLe 6 (vendor % 2 ^ 15 * 2 ^ 33 + 2 ^ 32 + pidLow)).reverse

/-- ENTDAA: the node gives its provisional ID, BCR and DCR and takes the address. -/
def entdaa (dynamic : Nat) (s : State) : State :=
  ccc s fun s =>
    if s.sb.dynAddr.isSome then s
    else
      let s := emit s (.sideband (pidBytes (Config.partId 0) ++ putLe 1 (Config.partId 1) ++ putLe 1 (Config.partId 2)))
      { s with sb := { s.sb with dynAddr := some dynamic } }

/-- ENTDAA (R456). -/
def execEntdaa (dynamic : Nat) (s : State) : Host.Outcome State Fault Refusal := .next (entdaa dynamic s)

/-- A directed GET: answered at a dynamic address. -/
def answerCcc (s : State) (b : State → Bytes × State) : State :=
  ccc s fun s => if s.sb.dynAddr.isNone then s else
    let r := b s
    emit r.2 (.sideband r.1)

/-- GETPID (R456). -/
def execGetpid (s : State) : Host.Outcome State Fault Refusal := .next (answerCcc s fun s => (pidBytes (Config.partId 0), s))

/-- GETBCR (R456). The byte is not stated: free. -/
def execGetbcr (s : State) : Host.Outcome State Fault Refusal := .next (answerCcc s fun s => (putLe 1 (Config.partId 1), s))

/-- GETDCR (R456). The byte is not stated: free. -/
def execGetdcr (s : State) : Host.Outcome State Fault Refusal := .next (answerCcc s fun s => (putLe 1 (Config.partId 2), s))

/-- GETSTATUS (R456). The two bytes are not stated: free. -/
def execGetstatus (s : State) : Host.Outcome State Fault Refusal :=
  .next (answerCcc s fun s =>
    let f := free64 s
    (putLe 2 f.1.toNat, f.2))

end Sys2Proof.Machine
end

