-- ==== Sys2Proof/Machine/Dispatch.lean ====
section
/-! DEFINITION. One arm for each command: a direct call of its meaning. -/
namespace Sys2Proof.Machine
open Sys2Proof

def exec (i : Instr) (s : State) : Host.Outcome State Fault Refusal :=
  match i with
  | .powerOnReset o => Sys2Proof.Machine.execPowerOnReset o s
  | .nodeReset flr o => Sys2Proof.Machine.execNodeReset flr o s
  | .vfFlr f => Sys2Proof.Machine.execVfFlr f s
  | .vfD3hot f => Sys2Proof.Machine.execVfD3hot f s
  | .pf0D3hot => Sys2Proof.Machine.execPf0D3hot s
  | .pf0D0 => Sys2Proof.Machine.execPf0D0 s
  | .recoveryLoad m hv o => Sys2Proof.Machine.execRecoveryLoad m hv o s
  | .doorbellScan hv swaps => Sys2Proof.Machine.execDoorbellScan hv swaps s
  | .doorbellSweep hv => Sys2Proof.Machine.execDoorbellSweep hv s
  | .descriptorFetch hv => Sys2Proof.Machine.execDescriptorFetch hv s
  | .msixModerationTimer vec => Sys2Proof.Machine.execMsixModerationTimer vec s
  | .ringEnable m cfg => Sys2Proof.Machine.execRingEnable m cfg s
  | .ringDisable m cfg => Sys2Proof.Machine.execRingDisable m cfg s
  | .ringDisabled ring => Sys2Proof.Machine.execRingDisabled ring s
  | .attend id hv => Sys2Proof.Machine.execAttend id hv s
  | .slotFill id => Sys2Proof.Machine.execSlotFill id s
  | .corePassEnd id core ecc => Sys2Proof.Machine.execCorePassEnd id core ecc s
  | .attendComplete id => Sys2Proof.Machine.execAttendComplete id s
  | .waitExpired id => Sys2Proof.Machine.execWaitExpired id s
  | .appendKv id hv pick ecc => Sys2Proof.Machine.execAppendKv id hv pick ecc s
  | .appendCommit id => Sys2Proof.Machine.execAppendCommit id s
  | .frameRelease ix => Sys2Proof.Machine.execFrameRelease ix s
  | .scrubDone pfn => Sys2Proof.Machine.execScrubDone pfn s
  | .prefixLookup id hv => Sys2Proof.Machine.execPrefixLookup id hv s
  | .publish id hv pick => Sys2Proof.Machine.execPublish id hv pick s
  | .unpublish id hv => Sys2Proof.Machine.execUnpublish id hv s
  | .move id pick ecc => Sys2Proof.Machine.execMove id pick ecc s
  | .flush id => Sys2Proof.Machine.execFlush id s
  | .flushInvalidate id => Sys2Proof.Machine.execFlushInvalidate id s
  | .free id => Sys2Proof.Machine.execFree id s
  | .handoff id => Sys2Proof.Machine.execHandoff id s
  | .handoffDrained stream => Sys2Proof.Machine.execHandoffDrained stream s
  | .handoffOffer ctx stream counter srcNode srcPool dstPool length digest entries => Sys2Proof.Machine.execHandoffOffer ctx stream counter srcNode srcPool dstPool length digest entries s
  | .handoffAccept stream counter => Sys2Proof.Machine.execHandoffAccept stream counter s
  | .handoffRefuse stream counter cause => Sys2Proof.Machine.execHandoffRefuse stream counter cause s
  | .handoffTimeout stream => Sys2Proof.Machine.execHandoffTimeout stream s
  | .handoffQuery ctx fromNode stream counter => Sys2Proof.Machine.execHandoffQuery ctx fromNode stream counter s
  | .handoffAnswer stream counter outcome => Sys2Proof.Machine.execHandoffAnswer stream counter outcome s
  | .handoffResolve ctx stream recs confirmed => Sys2Proof.Machine.execHandoffResolve ctx stream recs confirmed s
  | .search id hv => Sys2Proof.Machine.execSearch id hv s
  | .searchDone q ecc => Sys2Proof.Machine.execSearchDone q ecc s
  | .comaQueueStart die => Sys2Proof.Machine.execComaQueueStart die s
  | .shardTimeout q => Sys2Proof.Machine.execShardTimeout q s
  | .create id hv pick => Sys2Proof.Machine.execCreate id hv pick s
  | .indexWrite id hv => Sys2Proof.Machine.execIndexWrite id hv s
  | .tombstone id hv => Sys2Proof.Machine.execTombstone id hv s
  | .drop id hv => Sys2Proof.Machine.execDrop id hv s
  | .indexDrained index => Sys2Proof.Machine.execIndexDrained index s
  | .queryIndex id hv => Sys2Proof.Machine.execQueryIndex id hv s
  | .setEntry id hv => Sys2Proof.Machine.execSetEntry id hv s
  | .osierRun id hv => Sys2Proof.Machine.execOsierRun id hv s
  | .osierRunDone id => Sys2Proof.Machine.execOsierRunDone id s
  | .fence id => Sys2Proof.Machine.execFence id s
  | .contextCreate id hv => Sys2Proof.Machine.execContextCreate id hv s
  | .contextRemove id hv => Sys2Proof.Machine.execContextRemove id hv s
  | .slotScrubStart ctx => Sys2Proof.Machine.execSlotScrubStart ctx s
  | .contextRemoveDone ctx => Sys2Proof.Machine.execContextRemoveDone ctx s
  | .imageLoad id hv => Sys2Proof.Machine.execImageLoad id hv s
  | .imageUnload id => Sys2Proof.Machine.execImageUnload id s
  | .retireDrained handle => Sys2Proof.Machine.execRetireDrained handle s
  | .tableSlotFree slot => Sys2Proof.Machine.execTableSlotFree slot s
  | .stageWrite id hv => Sys2Proof.Machine.execStageWrite id hv s
  | .stageCheck id => Sys2Proof.Machine.execStageCheck id s
  | .stageCommit id => Sys2Proof.Machine.execStageCommit id s
  | .stageAppend m => Sys2Proof.Machine.execStageAppend m s
  | .check m => Sys2Proof.Machine.execCheck m s
  | .commit m => Sys2Proof.Machine.execCommit m s
  | .stageClear m => Sys2Proof.Machine.execStageClear m s
  | .commitApply => Sys2Proof.Machine.execCommitApply s
  | .generationRetired gen => Sys2Proof.Machine.execGenerationRetired gen s
  | .partialRec die cluster rec => Sys2Proof.Machine.execPartialRec die cluster rec s
  | .mergeTimeout id head => Sys2Proof.Machine.execMergeTimeout id head s
  | .arrivalTimeout tag attempt => Sys2Proof.Machine.execArrivalTimeout tag attempt s
  | .shadowUnmatched tag attempt head => Sys2Proof.Machine.execShadowUnmatched tag attempt head s
  | .oNop unit => Sys2Proof.Machine.execONop unit s
  | .oYield unit => Sys2Proof.Machine.execOYield unit s
  | .oHalt unit => Sys2Proof.Machine.execOHalt unit s
  | .oLoop unit => Sys2Proof.Machine.execOLoop unit s
  | .oSetc unit => Sys2Proof.Machine.execOSetc unit s
  | .oSeta unit => Sys2Proof.Machine.execOSeta unit s
  | .oAdda unit => Sys2Proof.Machine.execOAdda unit s
  | .oNext unit => Sys2Proof.Machine.execONext unit s
  | .oLd unit => Sys2Proof.Machine.execOLd unit s
  | .oSt unit => Sys2Proof.Machine.execOSt unit s
  | .oLdl unit => Sys2Proof.Machine.execOLdl unit s
  | .oStl unit => Sys2Proof.Machine.execOStl unit s
  | .oAdd unit => Sys2Proof.Machine.execOAdd unit s
  | .oMul unit => Sys2Proof.Machine.execOMul unit s
  | .oFold unit => Sys2Proof.Machine.execOFold unit s
  | .oAct unit => Sys2Proof.Machine.execOAct unit s
  | .oMsk unit => Sys2Proof.Machine.execOMsk unit s
  | .oOut unit => Sys2Proof.Machine.execOOut unit s
  | .oImac unit => Sys2Proof.Machine.execOImac unit s
  | .refreshDue unit => Sys2Proof.Machine.execRefreshDue unit s
  | .yieldWindowExpiry unit => Sys2Proof.Machine.execYieldWindowExpiry unit s
  | .refreshDone unit => Sys2Proof.Machine.execRefreshDone unit s
  | .unsealPool m stack => Sys2Proof.Machine.execUnsealPool m stack s
  | .unsealOwned m stack ctx => Sys2Proof.Machine.execUnsealOwned m stack ctx s
  | .sealRegion m stack => Sys2Proof.Machine.execSealRegion m stack s
  | .sealSweepStart stack region => Sys2Proof.Machine.execSealSweepStart stack region s
  | .sealSweepDone stack region ecc => Sys2Proof.Machine.execSealSweepDone stack region ecc s
  | .release m stack => Sys2Proof.Machine.execRelease m stack s
  | .releaseScrubDone stack region => Sys2Proof.Machine.execReleaseScrubDone stack region s
  | .unitStart m unit entry => Sys2Proof.Machine.execUnitStart m unit entry s
  | .unitHalt m unit => Sys2Proof.Machine.execUnitHalt m unit s
  | .plaitSearch m owner => Sys2Proof.Machine.execPlaitSearch m owner s
  | .plaitNext m owner => Sys2Proof.Machine.execPlaitNext m owner s
  | .plaitInsert m owner prio => Sys2Proof.Machine.execPlaitInsert m owner prio s
  | .plaitInsertUnique m owner prio => Sys2Proof.Machine.execPlaitInsertUnique m owner prio s
  | .plaitDelete m owner prio => Sys2Proof.Machine.execPlaitDelete m owner prio s
  | .plaitIssue => Sys2Proof.Machine.execPlaitIssue s
  | .plaitResult => Sys2Proof.Machine.execPlaitResult s
  | .shiftDone bank => Sys2Proof.Machine.execShiftDone bank s
  | .plaitParitySweep bank o => Sys2Proof.Machine.execPlaitParitySweep bank o s
  | .portEnable m port data => Sys2Proof.Machine.execPortEnable m port data s
  | .portRetrain m port => Sys2Proof.Machine.execPortRetrain m port s
  | .detect port => Sys2Proof.Machine.execDetect port s
  | .equalise port lanes => Sys2Proof.Machine.execEqualise port lanes s
  | .lock port => Sys2Proof.Machine.execLock port s
  | .peerExchange port node kind credits => Sys2Proof.Machine.execPeerExchange port node kind credits s
  | .trainingTimeout port => Sys2Proof.Machine.execTrainingTimeout port s
  | .portRetry port => Sys2Proof.Machine.execPortRetry port s
  | .fecLimitExceeded port codewords => Sys2Proof.Machine.execFecLimitExceeded port codewords s
  | .portDown port => Sys2Proof.Machine.execPortDown port s
  | .flitReceive port flit corrected => Sys2Proof.Machine.execFlitReceive port flit corrected s
  | .replayTimeout port => Sys2Proof.Machine.execReplayTimeout port s
  | .authHello port body => Sys2Proof.Machine.execAuthHello port body s
  | .authProof port body => Sys2Proof.Machine.execAuthProof port body s
  | .sessionOpen port session tenant gen => Sys2Proof.Machine.execSessionOpen port session tenant gen s
  | .sessionAccept port session => Sys2Proof.Machine.execSessionAccept port session s
  | .sessionRefuse port session cause => Sys2Proof.Machine.execSessionRefuse port session cause s
  | .sessionClose port session => Sys2Proof.Machine.execSessionClose port session s
  | .sessionRekey port session => Sys2Proof.Machine.execSessionRekey port session s
  | .load port f ecc => Sys2Proof.Machine.execLoad port f ecc s
  | .store port f => Sys2Proof.Machine.execStore port f s
  | .fetchAdd port f ecc => Sys2Proof.Machine.execFetchAdd port f ecc s
  | .swap port f ecc => Sys2Proof.Machine.execSwap port f ecc s
  | .cmpSwap port f ecc => Sys2Proof.Machine.execCmpSwap port f ecc s
  | .fetchMin port f ecc => Sys2Proof.Machine.execFetchMin port f ecc s
  | .fetchMax port f ecc => Sys2Proof.Machine.execFetchMax port f ecc s
  | .loadResp f => Sys2Proof.Machine.execLoadResp f s
  | .storeResp f => Sys2Proof.Machine.execStoreResp f s
  | .atomicResp f => Sys2Proof.Machine.execAtomicResp f s
  | .requestTimeout rtag => Sys2Proof.Machine.execRequestTimeout rtag s
  | .rtagHoldExpiry rtag => Sys2Proof.Machine.execRtagHoldExpiry rtag s
  | .quiesceRelease m => Sys2Proof.Machine.execQuiesceRelease m s
  | .fabCmdLoad m ctx combinable => Sys2Proof.Machine.execFabCmdLoad m ctx combinable s
  | .fabCmdStore m ctx combinable => Sys2Proof.Machine.execFabCmdStore m ctx combinable s
  | .fabCmdFetchAdd m ctx combinable => Sys2Proof.Machine.execFabCmdFetchAdd m ctx combinable s
  | .fabCmdSwap m ctx combinable => Sys2Proof.Machine.execFabCmdSwap m ctx combinable s
  | .fabCmdCmpSwap m ctx combinable => Sys2Proof.Machine.execFabCmdCmpSwap m ctx combinable s
  | .fabCmdFetchMin m ctx signed combinable => Sys2Proof.Machine.execFabCmdFetchMin m ctx signed combinable s
  | .fabCmdFetchMax m ctx signed combinable => Sys2Proof.Machine.execFabCmdFetchMax m ctx signed combinable s
  | .qpCreate m => Sys2Proof.Machine.execQpCreate m s
  | .qpReset m => Sys2Proof.Machine.execQpReset m s
  | .qpDestroy m => Sys2Proof.Machine.execQpDestroy m s
  | .qpDrained qpn => Sys2Proof.Machine.execQpDrained qpn s
  | .register m => Sys2Proof.Machine.execRegister m s
  | .revoke m => Sys2Proof.Machine.execRevoke m s
  | .revokeDone index => Sys2Proof.Machine.execRevokeDone index s
  | .qpePost m qpn => Sys2Proof.Machine.execQpePost m qpn s
  | .qpSend qpn ecc => Sys2Proof.Machine.execQpSend qpn ecc s
  | .write port f => Sys2Proof.Machine.execWrite port f s
  | .readReq port f ecc => Sys2Proof.Machine.execReadReq port f ecc s
  | .readResp port f => Sys2Proof.Machine.execReadResp port f s
  | .page port f pick => Sys2Proof.Machine.execPage port f pick s
  | .pageRead port f o => Sys2Proof.Machine.execPageRead port f o s
  | .ack port f => Sys2Proof.Machine.execAck port f s
  | .nak port f => Sys2Proof.Machine.execNak port f s
  | .ackTimer qpn => Sys2Proof.Machine.execAckTimer qpn s
  | .retransmitTimeout qpn => Sys2Proof.Machine.execRetransmitTimeout qpn s
  | .nakHintExpiry qpn => Sys2Proof.Machine.execNakHintExpiry qpn s
  | .contextFetchDone qpn ecc => Sys2Proof.Machine.execContextFetchDone qpn ecc s
  | .shardRequest qpn body => Sys2Proof.Machine.execShardRequest qpn body s
  | .shardAnswer q shard body => Sys2Proof.Machine.execShardAnswer q shard body s
  | .parityDelta fromNode body pick => Sys2Proof.Machine.execParityDelta fromNode body pick s
  | .remoteAttend qpn body => Sys2Proof.Machine.execRemoteAttend qpn body s
  | .egressFrameStart port now => Sys2Proof.Machine.execEgressFrameStart port now s
  | .gateEntryEnd port cls => Sys2Proof.Machine.execGateEntryEnd port cls s
  | .gateInstall m port => Sys2Proof.Machine.execGateInstall m port s
  | .gateCancel m port => Sys2Proof.Machine.execGateCancel m port s
  | .gateBase port => Sys2Proof.Machine.execGateBase port s
  | .windowOpen measured => Sys2Proof.Machine.execWindowOpen measured s
  | .budgetWrite m watts => Sys2Proof.Machine.execBudgetWrite m watts s
  | .brakeAssert acts => Sys2Proof.Machine.execBrakeAssert acts s
  | .brakeDeassert held => Sys2Proof.Machine.execBrakeDeassert held s
  | .brakeRelease => Sys2Proof.Machine.execBrakeRelease s
  | .sustainedBrakeEnter => Sys2Proof.Machine.execSustainedBrakeEnter s
  | .sustainedBrakeExit => Sys2Proof.Machine.execSustainedBrakeExit s
  | .brakeAck m => Sys2Proof.Machine.execBrakeAck m s
  | .thermalSample readings => Sys2Proof.Machine.execThermalSample readings s
  | .thermalTrip sensor reading => Sys2Proof.Machine.execThermalTrip sensor reading s
  | .lockLost => Sys2Proof.Machine.execLockLost s
  | .clusterReqWrite m v data => Sys2Proof.Machine.execClusterReqWrite m v data s
  | .clusterSleep cluster => Sys2Proof.Machine.execClusterSleep cluster s
  | .clusterPowerUp cluster tablesOk canaryOk => Sys2Proof.Machine.execClusterPowerUp cluster tablesOk canaryOk s
  | .stackSleep stack => Sys2Proof.Machine.execStackSleep stack s
  | .stackWake stack => Sys2Proof.Machine.execStackWake stack s
  | .drbgReseed => Sys2Proof.Machine.execDrbgReseed s
  | .rngHealthFail => Sys2Proof.Machine.execRngHealthFail s
  | .erase m fullOverwrite keepKeys => Sys2Proof.Machine.execErase m fullOverwrite keepKeys s
  | .enrolKey m entry roles => Sys2Proof.Machine.execEnrolKey m entry roles s
  | .removeKey m entry => Sys2Proof.Machine.execRemoveKey m entry s
  | .setCredential m => Sys2Proof.Machine.execSetCredential m s
  | .attest m => Sys2Proof.Machine.execAttest m s
  | .advanceSv m => Sys2Proof.Machine.execAdvanceSv m s
  | .secDataAccess m w => Sys2Proof.Machine.execSecDataAccess m w s
  | .fenceNode m => Sys2Proof.Machine.execFenceNode m s
  | .unfenceNode m => Sys2Proof.Machine.execUnfenceNode m s
  | .fenceUnit m kind index => Sys2Proof.Machine.execFenceUnit m kind index s
  | .rejoinUnit m kind index epochFree tablesOk canaryOk => Sys2Proof.Machine.execRejoinUnit m kind index epochFree tablesOk canaryOk s
  | .epochWaitTimeout kind index => Sys2Proof.Machine.execEpochWaitTimeout kind index s
  | .rebuildSend m => Sys2Proof.Machine.execRebuildSend m s
  | .rebuildRecv m => Sys2Proof.Machine.execRebuildRecv m s
  | .shadowStart m => Sys2Proof.Machine.execShadowStart m s
  | .promote m => Sys2Proof.Machine.execPromote m s
  | .safe m confirm => Sys2Proof.Machine.execSafe m confirm s
  | .groupActivate m ctx => Sys2Proof.Machine.execGroupActivate m ctx s
  | .canaryDue => Sys2Proof.Machine.execCanaryDue s
  | .canaryDone core pass => Sys2Proof.Machine.execCanaryDone core pass s
  | .watchdogTimeout => Sys2Proof.Machine.execWatchdogTimeout s
  | .lockstepMismatch => Sys2Proof.Machine.execLockstepMismatch s
  | .hourly => Sys2Proof.Machine.execHourly s
  | .tierFlush m invalidate => Sys2Proof.Machine.execTierFlush m invalidate s
  | .paritySweep bad use => Sys2Proof.Machine.execParitySweep bad use s
  | .registerWrite m v addr data size be => Sys2Proof.Machine.execRegisterWrite m v addr data size be s
  | .seqWriteBack m addr data => Sys2Proof.Machine.execSeqWriteBack m addr data s
  | .statusRead m addr size => Sys2Proof.Machine.execStatusRead m addr size s
  | .loReadLatch m addr size => Sys2Proof.Machine.execLoReadLatch m addr size s
  | .parityAddrRead m => Sys2Proof.Machine.execParityAddrRead m s
  | .svcDataRead m => Sys2Proof.Machine.execSvcDataRead m s
  | .sbRead cmd => Sys2Proof.Machine.execSbRead cmd s
  | .sbReadFifo cmd => Sys2Proof.Machine.execSbReadFifo cmd s
  | .sbWrite cmd => Sys2Proof.Machine.execSbWrite cmd s
  | .sbResponse => Sys2Proof.Machine.execSbResponse s
  | .enec events => Sys2Proof.Machine.execEnec events s
  | .disec events => Sys2Proof.Machine.execDisec events s
  | .rstdaa => Sys2Proof.Machine.execRstdaa s
  | .setdasa static dynamic => Sys2Proof.Machine.execSetdasa static dynamic s
  | .entdaa dynamic => Sys2Proof.Machine.execEntdaa dynamic s
  | .getpid => Sys2Proof.Machine.execGetpid s
  | .getbcr => Sys2Proof.Machine.execGetbcr s
  | .getdcr => Sys2Proof.Machine.execGetdcr s
  | .getstatus => Sys2Proof.Machine.execGetstatus s
  | .modPorNAssert => Sys2Proof.Machine.execModPorNAssert s
  | .pciePerstNRelease o => Sys2Proof.Machine.execPciePerstNRelease o s
  | .msixUnmask fn e => Sys2Proof.Machine.execMsixUnmask fn e s
  | .imageLoadComplete handle => Sys2Proof.Machine.execImageLoadComplete handle s
  | .pageMoveStepEnd id => Sys2Proof.Machine.execPageMoveStepEnd id s
  | .tierFlushDone => Sys2Proof.Machine.execTierFlushDone s
  | .eraseDone => Sys2Proof.Machine.execEraseDone s

end Sys2Proof.Machine
end

