-- ==== Sys2Proof/Machine/Step.lean ====
section
/-! DEFINITION. One step: the command at the front of the queue, or, while the queue is empty, a tick of CLK_CTL and the oldest access
that no region holds any more. -/
namespace Sys2Proof.Machine
open Sys2Proof

/-- A CLK_CTL cycle in which no command takes effect: the local cycle counter advances while the clocks run from the root PLL
(14 R336). -/
def tick (s : State) : State :=
  if s.clk.locked && !s.clk.fallback then { s with clk := { s.clk with counter := (s.clk.counter + 1) % 2 ^ 64 } } else s

/-- A held access goes on (07 R168, R175): the command is carried out past the checks that it has passed. -/
def resume (s : State) (i : Nat) (c : Instr) : Host.Outcome State Fault Refusal :=
  match exec c { s with osier := { s.osier with waits := s.osier.waits.eraseIdx i, resuming := true } } with
  | .next t => .next { t with osier := { t.osier with resuming := false } }
  | o => o

/-- Take the command at the front of the queue and answer what exec answers of it on the state with the queue's rest. While the queue
is empty, a cycle passes: an access that controllers have held goes on once it may, the oldest first. -/
def step (s : State) : Host.Outcome State Fault Refusal :=
  match s.pending with
  | [] => match readyAccess s with
    | some (i, c) => resume (tick s) i c
    | none => .next (tick s)
  | c :: rest => exec c { s with pending := rest }

/-- The state with the command a word spells at the front of its queue. -/
def State.withFetchWord (s : State) (nbits w : Nat) : State :=
  match decodeTableWord nbits w with
  | some c => { s with pending := c :: s.pending }
  | none => s

end Sys2Proof.Machine
end

