-- ==== Sys2Proof/Safety.lean ====
section
/-! DEFINITION. What statements are written in: that a command completes, which parts of the state it may have changed, and the
invariants of the node. -/
namespace Sys2Proof.Machine
open Sys2Proof

/-- The command answers a next state, of which `P` holds. -/
def Completes (c : Instr) (s : State) (P : State → Prop) : Prop := ∃ t, exec c s = .next t ∧ P t

/-- The parts of the state. -/
inductive Part where
  | pending | out | freeCtr | rngCtr | pins | boot | clk | regs | hostq | weft | tier | mem | plait | attn
  | osier | coma | ports | fab | qpe | egr | ledger | brake | therm | sec | fault | svc | map | sb
deriving DecidableEq, Repr

/-- A part is the same in two states. -/
def Part.same : Part → State → State → Prop
  | .pending, s, t => t.pending = s.pending
  | .out, s, t => t.out = s.out
  | .freeCtr, s, t => t.freeCtr = s.freeCtr
  | .rngCtr, s, t => t.rngCtr = s.rngCtr
  | .pins, s, t => t.pins = s.pins
  | .boot, s, t => t.boot = s.boot
  | .clk, s, t => t.clk = s.clk
  | .regs, s, t => t.regs = s.regs
  | .hostq, s, t => t.hostq = s.hostq
  | .weft, s, t => t.weft = s.weft
  | .tier, s, t => t.tier = s.tier
  | .mem, s, t => t.mem = s.mem
  | .plait, s, t => t.plait = s.plait
  | .attn, s, t => t.attn = s.attn
  | .osier, s, t => t.osier = s.osier
  | .coma, s, t => t.coma = s.coma
  | .ports, s, t => t.ports = s.ports
  | .fab, s, t => t.fab = s.fab
  | .qpe, s, t => t.qpe = s.qpe
  | .egr, s, t => t.egr = s.egr
  | .ledger, s, t => t.ledger = s.ledger
  | .brake, s, t => t.brake = s.brake
  | .therm, s, t => t.therm = s.therm
  | .sec, s, t => t.sec = s.sec
  | .fault, s, t => t.fault = s.fault
  | .svc, s, t => t.svc = s.svc
  | .map, s, t => t.map = s.map
  | .sb, s, t => t.sb = s.sb

/-- Every part outside the list is as it was: the frame of a command. -/
def OnlyParts (l : List Part) (s t : State) : Prop := ∀ p, p ∉ l → p.same s t

/-- Where the descriptor's ring takes records, the node has sent one for it, with this status and these results (10 R260). -/
def Posted (s : State) (d : Desc) (status : Nat) (results : Bytes) (t : State) : Prop :=
  (ringOf s d.ring).st = .active → ringFn s d.ring ∉ s.hostq.fnStopped → s.hostq.pf0D3 = false →
    ∃ (pos : Nat) (c : Completion) (addr : Nat), Out.completion d.ring pos c (ringFn s d.ring) addr ∈ t.out ∧ c.status = status ∧ c.results = results ∧
      c.cookie = BitVec.ofNat 64 (leAt d.bytes 8 8)

/-- The memory list is in its canonical form. -/
def State.memInv (s : State) : Bool := s.mem.wf

/-- The commands that wait: in the queue, and at the memory controllers. -/
def State.waiting (s : State) : List Instr := s.pending ++ s.osier.waits.map (·.2)

/-- What FENCED_SAFE promises (16 R412): the state itself, no key in any slot, every port idle, and no reset that leaves it
among the waiting commands (a power-on reset begins with MOD_POR_N low). -/
def SafeInv (s : State) : Prop :=
  s.fault.st = .fencedSafe ∧ (∀ e ∈ s.sec.keys, e.2.key = none) ∧ (∀ e ∈ s.ports, e.2.st = .down) ∧
    ∀ c ∈ s.waiting, c ≠ .modPorNAssert ∧ ∀ o, c ≠ .powerOnReset o

/-- What a node held in reset by MOD_POR_N is (17 R421; 19 R466, R468): no key, no context, no byte of memory, no register but at
its reset value, no port up, and no reset waiting. -/
def HeldInv (s : State) : Prop :=
  s.pins.por = false ∧ s.sec.keys = [] ∧ s.sec.ctxs = [] ∧ s.mem = {} ∧ s.regs = {} ∧ s.ports = [] ∧ s.weft = {} ∧ s.fault = {} ∧
    ∀ c ∈ s.waiting, ∀ o, c ≠ .powerOnReset o

end Sys2Proof.Machine
end

