-- ==== Sys2Proof/Certificates/Slice0/Obligations.lean ====
section
/-! DEFINITION. The statements for the provers. -/
open Sys2Proof Sys2Proof.Machine

/-! ### The queue, and the two states a node cannot leave by itself -/

/-- A step takes the command at the front of the queue and answers exec of it on the state with the queue's rest. With nothing waiting a step is
one CLK_CTL cycle: the local counter advances by one, modulo 2^64, while the clocks run from the root PLL, and nothing else changes; but an access
that memory controllers have held goes on in it, the oldest one that no region holds any more. That the tick is the step of an empty queue, and
that a held access goes on at one, is the model's choice (log entries 6 and 80). -/
def Obligations.StepRunsFront : Prop :=
  (∀ (c : Instr) (rest : List Instr) (s : State), step { s with pending := c :: rest } = exec c { s with pending := rest }) ∧
    ∀ s : State, s.pending = [] →
      (readyAccess s = none →
        ∃ t, step s = .next t ∧ OnlyParts [.clk] s t ∧ t.clk.locked = s.clk.locked ∧ t.clk.fallback = s.clk.fallback ∧
          t.clk.counter = if s.clk.locked && !s.clk.fallback then (s.clk.counter + 1) % 2 ^ 64 else s.clk.counter) ∧
      ∀ i c, readyAccess s = some (i, c) →
        let u := tick s
        ∀ t, exec c { u with osier := { u.osier with waits := u.osier.waits.eraseIdx i, resuming := true } } = .next t →
          step s = .next { t with osier := { t.osier with resuming := false } }

/-- R412: only a power-on reset leaves FENCED_SAFE. No step from a node in FENCED_SAFE whose queue holds no such reset leaves it, puts a
key into a slot or brings a port up. -/
def Obligations.FencedSafeHolds : Prop := ∀ s t : State, SafeInv s → step s = .next t → SafeInv t

/-- FENCED_SAFE is reached: THERMAL_TRIP, LOCK_LOST, WATCHDOG_TIMEOUT and LOCKSTEP_MISMATCH on a working node, and SAFE with its confirmation
from a privileged master, enter it; the keys are zeroed, every port is idle, the cause is recorded and a SEAL entry heads the service record. -/
def Obligations.FencedSafeEntered : Prop :=
  let sealed (s t : State) (src : Nat) : Prop :=
    t.fault.st = .fencedSafe ∧ t.fault.cause = src ∧ (∀ e ∈ t.sec.keys, e.2.key = none) ∧ (∀ e ∈ t.ports, e.2.st = .down) ∧
      t.mem = s.mem ∧ t.weft = s.weft ∧ (t.svc.entries.head?.map (·.type)) = some 8 ∧ (s.pins.perst = true → Out.errFatal ∈ t.out)
  ∀ s : State, alive s = true →
    (∀ i r, 460 ≤ r → Completes (.thermalTrip i r) s fun t => sealed s t 0x41 ∧ t.pins.thermTrip = true) ∧
    (s.clk.locked = true → Completes .lockLost s fun t => sealed s t 0x40 ∧ t.clk.fallback = true ∧ t.clk.locked = false) ∧
    Completes .watchdogTimeout s (fun t => sealed s t 0x42) ∧
    Completes .lockstepMismatch s (fun t => sealed s t 0x42) ∧
    ∀ m, served s m Off.FAULT_CMD = true → privileged s m = true → s.fault.busy = false →
      Completes (.safe m 0x5AFE) s fun t => sealed s t 0x43 ∧ t.fault.status = 0

/-- While MOD_POR_N is low the node holds no key, no context, no byte of memory and no register value but those of reset, whatever
commands arrive short of the power-on reset. -/
def Obligations.HeldInResetHolds : Prop := ∀ s t : State, HeldInv s → step s = .next t → HeldInv t

/-- The node as State.reset gives it is held in reset. -/
def Obligations.ResetIsHeld : Prop := HeldInv State.reset ∧ State.reset.pending = [] ∧ State.reset.mem.wf = true ∧ State.reset.out = []

/-! ### Resets -/

/-- MOD_POR_N low, or power removed, clears every key and all volatile state; flash (the service record, the image, the enrolled keys,
the credential) and the fused minimum version stand. -/
def Obligations.PowerLossClears : Prop :=
  ∀ s : State, Completes .modPorNAssert s fun t =>
    t.pins.por = false ∧ t.sec.keys = [] ∧ t.sec.ctxs = [] ∧ t.mem = {} ∧ t.regs = {} ∧ t.weft = {} ∧ t.tier = {} ∧ t.fault = {} ∧ t.ports = [] ∧
      t.qpe = {} ∧ t.coma = {} ∧ t.map = {} ∧ t.svc = s.svc ∧ t.sec.store = s.sec.store ∧ t.sec.cred = s.sec.cred ∧
      t.boot.image = s.boot.image ∧ t.boot.minSv = s.boot.minSv ∧ t.boot.boots = s.boot.boots ∧ t.boot.st = .por ∧ t.pending = s.pending

/-- MOD_POR_N rises with all rails in range: an image that verifies and is not below the fused minimum runs, and the sequence ends in SETUP; any
other image ends in RECOVERY with the cause that COMMIT_BOOT names. An entry left partly written at the head of the service record is discarded. -/
def Obligations.PowerOnSequence : Prop :=
  ∀ (s : State) (o : BootObs), s.pins.por = false → o.rails = true →
    let recovers (c : Nat) (t : State) : Prop :=
      t.boot.st = .recovery ∧ t.boot.cause = c ∧ t.boot.minSv = s.boot.minSv ∧ t.mem.stackSet = [] ∧
        (o.torn = false → t.svc.entries = s.svc.entries) ∧ (o.torn = true → 2 ≤ s.svc.entries.length → t.svc.entries = s.svc.entries.drop 1)
    Completes (.powerOnReset o) s fun t =>
      t.pins.por = true ∧ t.clk.locked = true ∧ t.pending = s.pending ∧
      (o.flashOk = false → recovers 4 t) ∧
      (o.flashOk = true → s.boot.image = [] → recovers 1 t) ∧
      (o.flashOk = true → s.boot.image ≠ [] →
        (Config.vitatuVersion s.boot.image = none → recovers 2 t) ∧
        ∀ v, Config.vitatuVersion s.boot.image = some v →
          (v < s.boot.minSv → recovers 3 t) ∧
          (s.boot.minSv ≤ v → t.boot.st = .setup ∧ t.boot.vitatuSv = v ∧ t.boot.minSv = s.boot.minSv ∧ t.boot.boots = s.boot.boots + 1 ∧
            t.boot.image = s.boot.image))

/-- A node reset: PCIE_PERST_N holds the node at verification with memory, keys of the store, the service record and the fault state kept and
every slot key and register gone; its release, or a PF0 FLR, runs the boot phases to SETUP. -/
def Obligations.NodeResetSequence : Prop :=
  ∀ (s : State) (o : BootObs), alive s = true →
    (s.pins.perst = true → Completes (.nodeReset false o) s fun t =>
      t.pins.perst = false ∧ t.boot.st = .verify ∧ t.boot.resetKind = 1 ∧ t.mem.cells = s.mem.cells ∧ t.svc = s.svc ∧ t.fault.st = s.fault.st ∧
        t.sec.store = s.sec.store ∧ t.sec.cred = s.sec.cred ∧ (∀ e ∈ t.sec.keys, e.2.key = none) ∧ t.ports = [] ∧ t.hostq.rings = [] ∧
        t.weft.handles = [] ∧ t.map = {} ∧ t.pending = s.pending) ∧
    (o.flashOk = true → s.boot.image ≠ [] →
      let verifies (b : Bytes) (v : Nat) : Prop := Config.vitatuVersion b = some v ∧ s.boot.minSv ≤ v
      (s.pins.perst = true → Completes (.nodeReset true o) s fun t => t.pins = s.pins ∧
        ∀ v, verifies s.boot.image v → t.boot.st = .setup ∧ t.boot.resetKind = 2 ∧ t.boot.vitatuSv = v) ∧
      (s.pins.perst = false → s.boot.st = .verify → Completes (.pciePerstNRelease o) s fun t => t.pins.perst = true ∧ t.boot.minSv = s.boot.minSv ∧
        ∀ v, verifies s.boot.image v → t.boot.st = .setup ∧ t.boot.vitatuSv = v) ∧
      (∀ m hv img, served s m Off.COMMIT_RECOVERY_CMD = true → privileged s m = true → m ≠ .sideband → s.boot.st = .recovery →
        recoveryImage s (fnView hv 0) = some img → img ≠ [] → Completes (.recoveryLoad m hv o) s fun t => t.boot.minSv = s.boot.minSv ∧
          ∀ v, verifies img v → t.boot.st = .setup ∧ t.boot.image = img ∧ t.boot.vitatuSv = v ∧ t.map.recStatus = 0))

/-! ### Host rings and vectors -/

/-- An FLR of a VF disables that function's rings at once and stops every write into its memory, and its contexts and streams survive; a VF
that enters D3hot is handled as that FLR. -/
def Obligations.FunctionReset : Prop :=
  ∀ (s : State) (f : Nat), alive s = true → f ≠ 0 →
    (Completes (.vfFlr f) s fun t =>
      (∀ r, r ∈ s.hostq.rings.map (·.1) → r ≠ adminRing → ringFn s r = f → ringOf t r = {}) ∧ f ∈ t.hostq.fnStopped ∧
        t.sec.ctxs = s.sec.ctxs ∧ t.sec.keys = s.sec.keys ∧ t.tier = s.tier ∧ t.mem = s.mem ∧ t.fault.st = s.fault.st) ∧
    exec (.vfD3hot f) s = exec (.vfFlr f) s

/-- PF0 in D3hot stops the doorbell scan and every fetch; its return to D0 lets the held records and writes go, in order, and restarts the scan
at HOSTQ_SCAN_MIN. -/
def Obligations.FunctionPower : Prop :=
  ∀ s : State, alive s = true →
    (Completes .pf0D3hot s fun t => OnlyParts [.hostq] s t ∧ t.hostq.pf0D3 = true ∧
      (∀ hv sw, exec (.doorbellScan hv sw) t = .next t) ∧ (∀ hv, exec (.doorbellSweep hv) t = .next t) ∧
      ∀ hv, exec (.descriptorFetch hv) t = .next t) ∧
    (s.hostq.pf0D3 = true → s.hostq.held = [] → Completes .pf0D0 s fun t =>
      OnlyParts [.hostq, .out] s t ∧ t.out = s.out ++ s.hostq.heldOut ∧ t.hostq.pf0D3 = false ∧ t.hostq.heldOut = [] ∧
        t.hostq.interval = scanMin s ∧ t.hostq.rings = s.hostq.rings)

/-- A ring's life: enabling makes a DISABLED ring ACTIVE with its indices and phase as on a first pass; disabling sets it DRAINING and ends its
descriptors not admitted; with no completion reserved it becomes DISABLED. -/
def Obligations.RingStates : Prop :=
  ∀ (s : State) (m : Master) (cfg : Nat),
    (served s m Off.HOSTQ_RING_CFG = true → privileged s m = true →
      ((ringOf s (ringSel s m)).st = .disabled → Completes (.ringEnable m cfg) s fun t =>
        ringOf t (ringSel s m) = { st := .active } ∧ ringFn t (ringSel s m) ∉ t.hostq.fnStopped ∧
          (∀ q, q ≠ ringSel s m → ringOf t q = ringOf s q) ∧ OnlyParts [.regs, .hostq, .out, .sb] s t) ∧
      ((ringOf s (ringSel s m)).st = .active → Completes (.ringDisable m cfg) s fun t =>
        (ringOf t (ringSel s m)).st = .draining ∧ ∀ d ∈ t.hostq.fetched, d.ring ≠ ringSel s m)) ∧
    ∀ r, alive s = true → (ringOf s r).st = .draining → (ringOf s r).reserved = 0 →
      Completes (.ringDisabled r) s fun t =>
        OnlyParts [.hostq] s t ∧ ringOf t r = { ringOf s r with st := .disabled } ∧ ∀ q, q ≠ r → ringOf t q = ringOf s q

/-- A vector's message leaves when its moderation timer expires with records unsignalled, and when it is unmasked with its PBA bit set, with
the address and the data of its table entry; a masked entry sends none. -/
def Obligations.VectorMessages : Prop :=
  ∀ (s : State) (f : Nat), alive s = true → f ∉ s.hostq.fnStopped → (f = 0 → s.hostq.pf0D3 = false) →
    (∀ pv, fnOfVec s pv = some f → (vecGet s pv).unsignalled ≠ 0 → (vecGet s pv).masked = false →
      Completes (.msixModerationTimer pv) s fun t =>
        t.out = s.out ++ [.msix f (pv - vecFirst s f) (vecGet s pv).addr (vecGet s pv).data] ∧ (vecGet t pv).unsignalled = 0 ∧ OnlyParts [.regs, .hostq, .out] s t) ∧
    ∀ v e, v < vecCount s f → e.vec = v →
      (e.masked = true → Completes (.msixUnmask f e) s fun t => OnlyParts [.hostq] s t ∧
        vecGet t (vecFirst s f + v) = { vecGet s (vecFirst s f + v) with addr := e.addr, data := e.data, masked := true }) ∧
      (e.masked = false → (vecGet s (vecFirst s f + v)).pba = true → Completes (.msixUnmask f e) s fun t =>
        t.out = s.out ++ [.msix f v e.addr e.data] ∧ (vecGet t (vecFirst s f + v)).masked = false ∧
          (vecGet t (vecFirst s f + v)).pba = false ∧ (vecGet t (vecFirst s f + v)).addr = e.addr ∧ OnlyParts [.regs, .hostq, .out] s t)

/-- Doorbells: a sweep, and a scan in polling mode, take the tail and the completion head that the doorbell word of every ACTIVE context ring
holds, a scan with Swaps those of every ACTIVE ring that the Swap of a summary word names (all of the word's, where the Swap fails), and a scan
takes the administrative ring's tail from the doorbell area itself. -/
def Obligations.DoorbellsTaken : Prop :=
  ∀ (s : State) (hv : HostView) (sw : List SwapReply), alive s = true → hostOpen s = true → rbit s Off.HOSTQ_CTRL 0 = true →
    let word (r : Nat) : Option Bytes := hostRead (fnView hv 0) (dbBase s + 0x1000 + 8 * r) 8
    let taken (r : Nat) (t : State) : Prop := (ringOf s r).st = .active → ∀ w, word r = some w →
      (ringOf t r).sqTail = leAt w 0 2 % ringSize s r ∧ (ringOf t r).cqHead = leAt w 4 2 % ringSize s r
    (rf s Off.HOSTQ_SWEEP 0 16 ≠ 0 → Completes (.doorbellSweep hv) s fun t => ∀ r ∈ activeRings s, taken r t) ∧
    ∀ area, hostRead (fnView hv 0) (dbBase s) 0x208 = some area →
      (rbit s Off.HOSTQ_CTRL 1 = false → Completes (.doorbellScan hv sw) s fun t =>
        (∀ r ∈ activeRings s, r < 4096 → taken r t) ∧
        ((ringOf s adminRing).st = .active → (ringOf t adminRing).sqTail = leAt area 0x200 2 % ringSize s adminRing)) ∧
      ∀ i x, rbit s Off.HOSTQ_CTRL 1 = true → ((List.range 64).filter fun i => leAt area (8 * i) 8 != 0) = [i] → sw = [x] →
        Completes (.doorbellScan hv sw) s fun t =>
          ∀ k, k < 64 → (x = .failed ∨ ∃ v, x = .value v ∧ v.getLsbD k = true) → taken (64 * i + k) t

/-- A fetch takes the one descriptor that waits in a ring's submission queue: it stands last among the fetched, the fetch head moves on and one
completion record is reserved for it. -/
def Obligations.DescriptorFetched : Prop :=
  ∀ (s : State) (hv : HostView) (r : Nat) (bs : Bytes), alive s = true → hostOpen s = true → s.fault.st ≠ .fenced →
    hasWork s adminRing = false → serveOrder s = [r] → r ≠ adminRing → freeRecords s r ≠ 0 →
    (ringOf s r).sqTail = ((ringOf s r).fetchHead + 1) % ringSize s r →
    hostRead (fnView hv (ringFn s r)) (sqBase s r + 64 * (ringOf s r).fetchHead) 64 = some bs → 1 ≤ leAt bs 0 1 → leAt bs 0 1 ≤ 8 → (ctxOf s r).st = .active →
      Completes (.descriptorFetch hv) s fun t =>
        t.hostq.fetched = s.hostq.fetched ++
          [{ id := s.hostq.nextId, ring := r, pos := (ringOf s r).fetchHead, bytes := bs, readyAt := s.clk.counter }] ∧
        (ringOf t r).fetchHead = (ringOf s r).sqTail ∧ (ringOf t r).reserved = (ringOf s r).reserved + 1 ∧ t.hostq.lastFirst = r ∧
        OnlyParts [.regs, .hostq] s t

/-- A descriptor's completion record: on an ACTIVE ring it is written in the ring's next slot, at its host address and with the requester ID of
the ring's function, with the ring's phase and the fetch head, the reservation is given back, and the tail moves on. -/
def Obligations.CompletionPosted : Prop :=
  ∀ (s : State) (d : Desc) (status flags : Nat) (results : Bytes), (ringOf s d.ring).st = .active →
    ringFn s d.ring ∉ s.hostq.fnStopped → s.hostq.pf0D3 = false →
      let t := complete s d status flags results
      let g := ringOf s d.ring
      (∃ c : Completion, Out.completion d.ring g.cqTail c (ringFn s d.ring) (cqBase s d.ring + 64 * g.cqTail) ∈ t.out ∧ c.status = status ∧ c.flags = flags ∧ c.results = results ∧
        c.cookie = BitVec.ofNat 64 (leAt d.bytes 8 8) ∧ c.phase = g.phase ∧ c.sqHead = g.fetchHead ∧ c.debit = d.debit ∧
        c.time = s.clk.counter) ∧
      (ringOf t d.ring).cqTail = (g.cqTail + 1) % ringSize s d.ring ∧ (ringOf t d.ring).reserved = g.reserved - 1 ∧
      OnlyParts [.regs, .hostq, .out] s t

/-- A FENCE ends once every earlier descriptor of its ring has completed or faulted: it leaves the fetched descriptors, the faults it counted are
cleared, and its record tells them. -/
def Obligations.FenceCompletes : Prop :=
  ∀ (s : State) (id : Nat) (d : Desc), alive s = true → findDesc s id = some d → d.kind = 8 → fenceMet s d = true →
    (ctxOf s d.ring).quiesced = false → (ringOf s d.ring).st = .active → ringFn s d.ring ∉ s.hostq.fnStopped → s.hostq.pf0D3 = false →
      Completes (.fence id) s fun t =>
        findDesc t id = none ∧ (∀ e ∈ t.hostq.faulted, e.1 ≠ d.ring) ∧
        ∃ c : Completion, Out.completion d.ring (ringOf s d.ring).cqTail c (ringFn s d.ring)
            (cqBase s d.ring + 64 * (ringOf s d.ring).cqTail) ∈ t.out ∧ c.status = 0 ∧
          c.flags = (if s.hostq.faulted.countP (·.1 == d.ring) = 0 then 0 else 8) ∧
          c.results = putLe 4 (s.hostq.faulted.countP (·.1 == d.ring))

/-! ### The Energy Ledger, the brake, thermal bands, sleep -/

/-- R339, R342: at the opening of a window the units left lapse, the effective budget is the least of its terms, and the remaining units are the
refill floor(p_eff x 10 x 16384 / scale) at the scale in force, which a written scale has replaced. -/
def Obligations.WindowRefills : Prop :=
  ∀ (s : State) (measured : Nat), alive s = true → nextWindow s % 100 ≠ 0 →
    Completes (.windowOpen measured) s fun t =>
      t.ledger.window = nextWindow s ∧ t.ledger.scale = s.ledger.scaleWrite.getD s.ledger.scale ∧ t.ledger.scaleWrite = none ∧
        t.ledger.peff = peffTarget s ∧ t.ledger.refill = peffTarget s * 10 * 16384 / t.ledger.scale ∧ t.ledger.remain = t.ledger.refill ∧
        t.ledger.lapsed = min 0xFFFFFFFF (s.ledger.lapsed + s.ledger.remain) ∧ t.ledger.debits = s.ledger.debits ∧
        t.ledger.meas = (s.ledger.meas + measured) % 2 ^ 64 ∧ t.ledger.recs = s.ledger.recs ∧ t.brake = s.brake ∧ t.therm = s.therm

/-- R343: the opening of every hundredth window records the interval. With at least half the refills debited, no written scale and no hold, the
scale moves a quarter of the way to the observed one, each clamped; otherwise the record says skipped. -/
def Obligations.WindowReconciles : Prop :=
  ∀ (s : State) (measured : Nat), alive s = true → nextWindow s % 100 = 0 →
    let d := (s.ledger.debits + 2 ^ 64 - s.ledger.debits0) % 2 ^ 64
    let m := ((s.ledger.meas + measured) % 2 ^ 64 + 2 ^ 64 - s.ledger.meas0) % 2 ^ 64
    let clamp (x : Int) : Int := min 0x7FFF (max 0x2000 x)
    Completes (.windowOpen measured) s fun t =>
      (∃ r, t.ledger.recs = (r :: s.ledger.recs).take 64 ∧ r.index = nextWindow s / 100 ∧ r.d = d ∧ r.m = m ∧ r.scale = t.ledger.scale ∧
        (d = 0 → r.err = 0) ∧
        (r.skipped = false ↔ s.ledger.scaleWrite = none ∧ rbit s Off.LEDGER_SCALE 16 = false ∧ d ≠ 0 ∧ s.ledger.refills ≤ 2 * d) ∧
        (r.skipped = true → t.ledger.scale = s.ledger.scaleWrite.getD s.ledger.scale) ∧
        (r.skipped = false → (t.ledger.scale : Int) = clamp (s.ledger.scale + (clamp ((m * 16384 / d : Nat) : Int) - s.ledger.scale) / 4))) ∧
      t.ledger.remain = t.ledger.refill ∧ t.ledger.refill = peffTarget s * 10 * 16384 / t.ledger.scale

/-- R341, R342: BUDGET_WRITE. A fall of the least term acts at once, on the refill and by the difference on the remaining units, never below
zero; a rise leaves the account until the next opening. -/
def Obligations.BudgetFalls : Prop :=
  ∀ (s : State) (m : Master) (w : Nat), served s m Off.LEDGER_BUDGET = true → privileged s m = true → w < 4096 →
    let terms := min (min 3200 (max 800 w)) (bandCeiling s)
    let p := if inSustained s then min terms (min 3200 (max 800 (rf s Off.LEDGER_BRAKE_FLOOR 0 12))) else terms
    Completes (.budgetWrite m w) s fun t =>
      OnlyParts [.regs, .hostq, .out, .sb, .ledger] s t ∧ rf t Off.LEDGER_BUDGET 0 12 = w ∧
        (s.ledger.peff ≤ p → t.ledger = s.ledger) ∧
        (p < s.ledger.peff → t.ledger.peff = p ∧ t.ledger.refill = p * 10 * 16384 / s.ledger.scale ∧
          t.ledger.remain = s.ledger.remain - (s.ledger.refill - p * 10 * 16384 / s.ledger.scale) ∧ t.ledger.debits = s.ledger.debits)

/-- R345, R346, R348, R349: the brake. An assertion begins one brake state, counted once; a deassertion under 13 cycles is chatter and one under 66 an
aborted release, both leaving it applied; a longer one releases. A millisecond makes it sustained, and the way out takes the
acknowledgement, which a new assertion clears. -/
def Obligations.BrakeStates : Prop :=
  ∀ s : State, alive s = true →
    (s.brake.st = .idle → Completes (.brakeAssert true) s fun t =>
      OnlyParts [.pins, .brake, .svc] s t ∧ braked t = true ∧ t.brake.st = .braked ∧ t.brake.input = true ∧
        t.brake.count = min 0xFFFFFFFF (s.brake.count + 1) ∧ dispatchOpen t = false ∧ t.pins = { s.pins with brake := false }) ∧
    (s.brake.st = .sustainedReleased → Completes (.brakeAssert true) s fun t =>
      t.brake.st = .sustainedBraked ∧ t.brake.ack = false ∧ t.brake.input = true ∧ t.brake.count = min 0xFFFFFFFF (s.brake.count + 1)) ∧
    (∀ held, s.brake.input = true →
      (held < 13 → Completes (.brakeDeassert held) s fun t =>
        t.brake = { s.brake with chatter := min 0xFFFFFFFF (s.brake.chatter + 1) } ∧ (statusOf t Off.LEDGER_STATUS).hi.getLsbD 2 = true) ∧
      (13 ≤ held → held < 66 → Completes (.brakeDeassert held) s fun t =>
        t.brake = { s.brake with aborts := min 0xFFFFFFFF (s.brake.aborts + 1) } ∧ OnlyParts [.brake] s t) ∧
      (66 ≤ held → Completes (.brakeDeassert held) s fun t =>
        t.brake = { s.brake with input := false, releasing := true } ∧ OnlyParts [.pins, .brake] s t)) ∧
    (s.brake.releasing = true → (s.brake.st = .braked → Completes .brakeRelease s fun t => t.brake = { s.brake with st := .idle, releasing := false }) ∧
      (s.brake.st = .sustainedBraked →
        Completes .brakeRelease s fun t => t.brake = { s.brake with st := .sustainedReleased, releasing := false })) ∧
    (s.brake.st = .braked → Completes .sustainedBrakeEnter s fun t =>
      t.brake = { s.brake with st := .sustainedBraked } ∧ (statusOf t Off.LEDGER_STATUS).hi.getLsbD 0 = true ∧
        t.ledger.peff = min s.ledger.peff (peffTarget { s with brake := { s.brake with st := .sustainedBraked } }) ∧
        t.ledger.peff ≤ min 3200 (max 800 (rf s Off.LEDGER_BRAKE_FLOOR 0 12))) ∧
    (∀ m, served s m Off.LEDGER_BRAKE = true → privileged s m = true → inSustained s = true →
      Completes (.brakeAck m) s fun t => t.brake = { s.brake with ack := true } ∧ t.ledger = s.ledger) ∧
    (s.brake.st = .sustainedReleased → s.brake.ack = true → Completes .sustainedBrakeExit s fun t =>
      t.brake = { s.brake with st := .idle, ack := false } ∧ t.ledger = s.ledger ∧ (statusOf t Off.LEDGER_STATUS).hi.getLsbD 1 = true)

/-- R350, R351: a sample in which every sensor reads validly sets the band from the hottest reading, with the hysteresis on
the way down, and its ceiling bounds the effective budget from that cycle on. -/
def Obligations.ThermalBandFollows : Prop :=
  ∀ (s : State) (x : Nat → Nat) (h : Nat), alive s = true → (∀ i, i < 128 → x i ≤ h) → (∃ i, i < 128 ∧ x i = h) → h ≤ 1023 →
    bandCfgOk (bandRegs s) = true →
    let entry (b : Nat) : Nat := 4 * fld (regWord s (Off.THERM_BAND_CFG_0 + 4 * b)) 0 8
    let band (y : Nat) : Nat := ((span 1 7).filter fun b => entry b ≤ y).getLastD 0
    let hyst := 4 * rf s Off.THERM_HYST 0 4
    Completes (.thermalSample ((List.range 128).map fun i => some (x i))) s fun t =>
      (∀ i, i < 128 → tget {} t.therm.sensors i = { temp := x i, misses := 0, failed := false }) ∧ t.therm.hottest = h ∧
        x t.therm.hotSensor = h ∧
        t.therm.band = (if s.therm.band < band h then band h else if band (h + hyst) < s.therm.band then band (h + hyst) else s.therm.band) ∧
        t.therm.cfg = bandRegs s ∧ t.ledger.peff ≤ bandCeiling t ∧ t.ledger.debits = s.ledger.debits ∧ t.brake = s.brake

/-- R354, R355, R356: sleep. A cluster whose request bit is set enters SLEEP once nothing uses it, its merge slots lost; a write that clears the bit of a
sleeping cluster makes it WAKING, and its rejoin READY or FENCED. A stack enabled for sleep enters SLEEP when nothing holds it and
wakes with its data; an access of its controller wakes it too. -/
def Obligations.SleepAndWake : Prop :=
  ∀ (s : State) (c : Nat), alive s = true → c < 32 →
    (∀ m data, served s m Off.CLK_CLUSTER_REQ = true → privileged s m = true → clusterSt s c = .sleep →
      Completes (.clusterReqWrite m .normal data) s fun t =>
        clusterSt t c = (if bitOf data c then .sleep else .waking) ∧ t.mem.cells = s.mem.cells) ∧
    (clusterSt s c = .ready → rbit s Off.CLK_CLUSTER_REQ c = true → clusterIdle s c = true → Completes (.clusterSleep c) s fun t =>
      clusterSt t c = .sleep ∧ tget [] t.attn.rim c = [] ∧ (∀ k, k ≠ c → clusterSt t k = clusterSt s k) ∧
        (statusOf t Off.CLK_EVT_STATUS).hi.getLsbD 2 = true) ∧
    (clusterSt s c = .waking → epochStale s 2 c = false → ∀ tab can, Completes (.clusterPowerUp c tab can) s fun t =>
      clusterSt t c = (if tab && can then .ready else .fenced) ∧ epochOf t 2 c = (epochOf s 2 c + 1) % 256 ∧
        (statusOf t Off.CLK_EVT_STATUS).hi.getLsbD (if tab && can then 3 else 1) = true) ∧
    (stackSt s c = .ready → rbit s Off.CLK_STACK_SLEEP_EN c = true → stackHeld s c = false → stackSweeps s c = false →
      Completes (.stackSleep c) s fun t => stackSt t c = .sleep ∧ OnlyParts [.mem] s t ∧ t.mem.cells = s.mem.cells) ∧
    (stackSt s c = .sleep → Completes (.stackWake c) s fun t => stackSt t c = .ready ∧ OnlyParts [.mem] s t ∧ t.mem.cells = s.mem.cells) ∧
    ∀ slot pfn off bs, isHbm pfn = true → stackOf pfn = c → stackSt s c = .sleep →
      stackSt (putFrame s slot pfn off bs) c = .ready ∧ stackSt (memEvents s [pfn] []) c = .ready

/-! ### Keys, contexts, the random source, erasure -/

/-- SEC_DATA: a privileged master's read answers the word its index names, its write stores it, and either moves the index on by one; another
master reads zero, and its write is refused, logged and counted. -/
def Obligations.SecDataWords : Prop :=
  ∀ (s : State) (m : Master), served s m Off.SEC_DATA = true →
    let i := selNum s m Off.SEC_DATA_INDEX
    (privileged s m = true → Completes (.secDataAccess m none) s fun t =>
      t.out = s.out ++ [.readData (tget 0 s.sec.buf i)] ∧ selNum t m Off.SEC_DATA_INDEX = (i + 1) % 4096 ∧ t.sec = s.sec) ∧
    (privileged s m = true → ∀ v, v < 2 ^ 32 → Completes (.secDataAccess m (some v)) s fun t =>
      tget 0 t.sec.buf i = BitVec.ofNat 32 v ∧ (∀ j, j ≠ i → tget 0 t.sec.buf j = tget 0 s.sec.buf j) ∧
        selNum t m Off.SEC_DATA_INDEX = (i + 1) % 4096 ∧ OnlyParts [.regs, .sec] s t) ∧
    (privileged s m = false → Completes (.secDataAccess m none) s (fun t => t.out = s.out ++ [.readData 0]) ∧
      ∀ v, Completes (.secDataAccess m (some v)) s fun t =>
        t.sec.buf = s.sec.buf ∧ t.sec.guardCnt = min 0xFFFFFFFF (s.sec.guardCnt + 1) ∧ t.sec.guardKind = 1 ∧ t.sec.guardAddr = Off.SEC_DATA)

/-- R380: the enrolled key store. A key with an identifier of the store replaces that entry, a full store refuses, and every change heads the service
record; REMOVE_KEY empties an entry; SET_CREDENTIAL takes a credential of this node. -/
def Obligations.EnrolledKeys : Prop :=
  ∀ (s : State) (m : Master), served s m Off.SEC_CMD = true → privileged s m = true → s.sec.busy = false →
    let logged (t : State) : Prop := (t.svc.entries.head?.map (·.type)) = some 7
    (∀ entry roles, entry < 8 → bitOf (leAt (bufBytes s 384) 0 1) 7 = true →
      (∀ i, i < 8 → (keyEnt s i).valid = true → keyId (keyEnt s i).modulus = keyId (bufBytes s 384) →
        (∀ j, j < i → (keyEnt s j).valid = false ∨ keyId (keyEnt s j).modulus ≠ keyId (bufBytes s 384)) →
        Completes (.enrolKey m entry roles) s fun t =>
          keyEnt t i = { valid := true, roles := roles % 4, modulus := bufBytes s 384 } ∧ (∀ j, j ≠ i → keyEnt t j = keyEnt s j) ∧
            t.sec.status = 0 ∧ logged t) ∧
      ((∀ i, i < 8 → (keyEnt s i).valid = false ∨ keyId (keyEnt s i).modulus ≠ keyId (bufBytes s 384)) →
        ((∃ i, i < 8 ∧ (keyEnt s i).valid = false) → Completes (.enrolKey m entry roles) s fun t =>
          keyEnt t entry = { valid := true, roles := roles % 4, modulus := bufBytes s 384 } ∧ (∀ j, j ≠ entry → keyEnt t j = keyEnt s j) ∧
            t.sec.status = 0 ∧ logged t) ∧
        ((∀ i, i < 8 → (keyEnt s i).valid = true) → Completes (.enrolKey m entry roles) s fun t =>
          t.sec.status = St.KEY_STORE_FULL ∧ t.sec.store = s.sec.store ∧ t.svc = s.svc))) ∧
    (∀ entry, entry < 8 → (keyEnt s entry).valid = true → Completes (.removeKey m entry) s fun t =>
      keyEnt t entry = {} ∧ (∀ j, j ≠ entry → keyEnt t j = keyEnt s j) ∧ t.sec.status = 0 ∧ logged t) ∧
    (leAt (bufBytes s 424) 0 2 % 2 ^ 14 = nodeNum s → Completes (.setCredential m) s fun t =>
      t.sec.cred = bufBytes s 424 ∧ t.sec.status = 0 ∧ t.sec.store = s.sec.store)

/-- R381, R383: ADVANCE_SV burns the minimum up to the running image's version; ATTEST writes the report, signed, to the host address or, where that is
zero, into the SEC_DATA buffer. -/
def Obligations.AttestAndAdvance : Prop :=
  ∀ (s : State) (m : Master), served s m Off.SEC_CMD = true → privileged s m = true → s.sec.busy = false →
    let report := attestBody s ++ (List.range 384).map (Config.identitySign (attestBody s) s.rngCtr)
    (Completes (.advanceSv m) s fun t => t.boot = { s.boot with minSv := max s.boot.minSv s.boot.vitatuSv } ∧ t.sec.status = 0) ∧
    (64 ≤ rpair s Off.SEC_ATTEST_ADDR_LO → s.hostq.pf0D3 = false → 0 ∉ s.hostq.fnStopped → Completes (.attest m) s fun t =>
      Out.hostWrite 0 (rpair s Off.SEC_ATTEST_ADDR_LO / 64 * 64) report false ∈ t.out ∧ t.sec.status = 0 ∧ t.sec.buf = s.sec.buf ∧
        t.rngCtr = s.rngCtr + 1) ∧
    (rpair s Off.SEC_ATTEST_ADDR_LO < 64 → (reportHandles s).length ≤ 256 → Completes (.attest m) s fun t =>
      bufBytes t report.length = report ∧ t.sec.status = 0 ∧ t.rngCtr = s.rngCtr + 1)

/-- R363: a reseed is counted while the source is OK; a failed health test makes it FAILED, raises rng_fail and fences the node with cause 0x31, and from
then on CONTEXT_CREATE draws nothing. -/
def Obligations.RandomSource : Prop :=
  ∀ s : State, alive s = true → s.sec.rng = .ok →
    (Completes .drbgReseed s fun t => OnlyParts [.sec] s t ∧ t.sec = { s.sec with reseeds := min 65535 (s.sec.reseeds + 1) }) ∧
    (Completes .rngHealthFail s fun t => t.sec.rng = .failed ∧ t.fault.st = .fenced ∧ t.fault.cause = 0x31 ∧ t.sec.keys = s.sec.keys ∧
      exec .drbgReseed t = .next t)

/-- R361: CONTEXT_CREATE of a FREE context with an EMPTY slot, on a slice that exists: the slot is drawn LIVE at the generation it holds and the context is ACTIVE
on the slice, with quotas and Coma seed zero and the policer disabled; the checks refuse in their order. -/
def Obligations.ContextCreated : Prop :=
  ∀ (s : State) (id : Nat) (hv : HostView) (d : Desc) (b : Bytes), alive s = true → adminDesc s id 0x40 = some d → d.recLen = 32 →
    hostRead (descView s id hv) d.recAddr 32 = some b →
    let n := leAt b 0 2 % 4096
    let sl := leAt b 2 1 % 16
    ((ctxOf s n).st = .free → (keySlot s n).st = .empty → sliceExists s sl = true → s.sec.rng = .ok →
      Completes (.contextCreate id hv) s fun t =>
        ctxOf t n = { st := .active, slice := sl, tenant := leAt b 4 4, salt := slice b 8 16 } ∧
          keySlot t n = { keySlot s n with st := .live, key := some s.rngCtr } ∧ t.rngCtr = s.rngCtr + 1 ∧
          (∀ c, c ≠ n → ctxOf t c = ctxOf s c ∧ keySlot t c = keySlot s c) ∧
          bitOf (regWord t (rkey Off.EGR_POL_RATE n)) 31 = false ∧
          regWord t (rkey Off.EGR_POL_BURST n) = regWord s (rkey Off.EGR_POL_BURST n) ∧
          (∀ r, r ∈ ctxRegs → regWord t (rkey r n) = 0) ∧ Posted s d 0 (putLe 2 (keySlot s n).gen) t) ∧
    (∀ e, (e = St.CONTEXT_BUSY ∧ ((ctxOf s n).st ≠ .free ∨ (keySlot s n).st ≠ .empty)) ∨
        ((ctxOf s n).st = .free ∧ (keySlot s n).st = .empty ∧
          ((e = St.CONTEXT_SLICE ∧ sliceExists s sl = false) ∨ (e = St.RNG_FAILED ∧ sliceExists s sl = true ∧ s.sec.rng ≠ .ok))) →
      Completes (.contextCreate id hv) s fun t => t.sec = s.sec ∧ t.rngCtr = s.rngCtr ∧ Posted s d e [] t)

/-- R366, R374, R375: CONTEXT_REMOVE makes the context REMOVING and its slot RETIRING, the key zeroed and the generation advanced; with no work outstanding the
slot is SCRUBBING; the scrub leaves nothing the context owned, the slot EMPTY and the context FREE, and then the completion is posted. -/
def Obligations.ContextRemoved : Prop :=
  ∀ (s : State), alive s = true →
    (∀ id hv d b, adminDesc s id 0x41 = some d → d.recLen = 8 → hostRead (descView s id hv) d.recAddr 8 = some b → (ctxOf s (leAt b 0 2 % 4096)).st = .active →
      Completes (.contextRemove id hv) s fun t =>
        (ctxOf t (leAt b 0 2 % 4096)).st = .removing ∧
          keySlot t (leAt b 0 2 % 4096) = { st := .retiring, gen := ((keySlot s (leAt b 0 2 % 4096)).gen + 1) % 2 ^ 16, key := none } ∧
          (∀ x ∈ t.hostq.fetched, x.ring ≠ leAt b 0 2 % 4096) ∧
          ∀ c, c ≠ leAt b 0 2 % 4096 → ctxOf t c = ctxOf s c ∧ keySlot t c = keySlot s c) ∧
    (∀ c, (keySlot s c).st = .retiring → (ctxOf s c).st = .removing → slotWork s c = 0 → Completes (.slotScrubStart c) s fun t =>
      OnlyParts [.sec, .plait] s t ∧ keySlot t c = { keySlot s c with st := .scrubbing } ∧
        (∀ o ∈ residueDeletes s c, o ∈ t.plait.updateQ ++ t.plait.waiting) ∧
        (s.plait.waiting = [] → s.plait.updateQ.length + (residueDeletes s c).length ≤ 64 →
          t.plait.updateQ = s.plait.updateQ ++ residueDeletes s c)) ∧
    (∀ c, (keySlot s c).st = .scrubbing → (ctxOf s c).st = .removing → residueBusy s c = false → Completes (.contextRemoveDone c) s fun t =>
      ctxOf t c = {} ∧ keySlot t c = { st := .empty, gen := (keySlot s c).gen, key := none } ∧
        (∀ e ∈ t.tier.streams, e.2.ctx ≠ c) ∧ (∀ e ∈ t.coma.indexes, e.2.ctx ≠ c) ∧ (∀ e ∈ t.osier.regions, e.2.owner ≠ some c) ∧
        (statusOf t Off.SEC_STATUS).hi.getLsbD 3 = true)

/-- R377: ERASE clears dispatch_en, removes every ACTIVE context and redraws the node slot, busy until it has ended; its end clears the credential, the enrolled
keys unless they are kept, Plait and Coma state and, with a full overwrite, every byte of memory, and heads the service record. -/
def Obligations.EraseCleans : Prop :=
  ∀ (s : State) (full keep : Bool),
    (∀ m, served s m Off.SEC_CMD = true → privileged s m = true → s.sec.busy = false → setUp s = true → s.sec.rng = .ok →
      (∀ e ∈ s.sec.ctxs, e.1 < 4096) →
      Completes (.erase m full keep) s fun t =>
        rbit t Off.WEFT_CTRL 0 = false ∧ (∀ c, (ctxOf t c).st ≠ .active) ∧ t.sec.busy = true ∧
          (keySlot t nodeSlot).st = .live ∧ (keySlot t nodeSlot).gen = ((keySlot s nodeSlot).gen + 1) % 2 ^ 16 ∧
          (keySlot t nodeSlot).key.isSome = true ∧ ∀ h, (handleOf t h).st ≠ .loaded) ∧
    (∀ nc ni, alive s = true → s.sec.erasing = some (full, keep, nc, ni) → (∀ e ∈ s.sec.ctxs, e.2.st ≠ .removing) →
      Completes .eraseDone s fun t =>
        t.sec.erasing = none ∧ t.sec.busy = false ∧ t.sec.status = 0 ∧ t.sec.cred = [] ∧ t.sec.store = (if keep then s.sec.store else []) ∧
          t.plait.banks = [] ∧ t.coma.indexes = [] ∧ t.tier.dirty = [] ∧ (full = true → t.mem.cells = []) ∧
          (t.svc.entries.head?.map (·.type)) = some 6 ∧ (statusOf t Off.SEC_STATUS).hi.getLsbD 4 = true)

/-! ### The stage bank and the map -/

/-- R434: entries are added whole or refused whole, one of the same item and index replaced in its place; a CHECKED or COMMITTING bank is locked; CLEAR
empties a bank that is not COMMITTING. -/
def Obligations.StageBank : Prop :=
  ∀ s : State,
    (∀ m, served s m Off.COMMIT_CMD = true → privileged s m = true →
      (bankHeld s = true → Completes (.stageAppend m) s fun t => t.map = { s.map with status := St.STAGE_LOCKED }) ∧
      (bankHeld s = false → entryOk (stagedEntry s) = false → Completes (.stageAppend m) s fun t =>
        t.map = { s.map with status := St.STAGE_ENTRY_BAD }) ∧
      (bankHeld s = false → entryOk (stagedEntry s) = true → (bankAdd s.map.bank (stagedEntry s)).length ≤ 8192 →
        Completes (.stageAppend m) s fun t =>
          t.map = { s.map with bank := bankAdd s.map.bank (stagedEntry s), bankSt := .opened, status := 0 } ∧
            OnlyParts [.regs, .hostq, .out, .sb, .map] s t) ∧
      (s.map.bankSt ≠ .committing → Completes (.stageClear m) s fun t => t.map = { s.map with bank := [], bankSt := .empty, status := 0 })) ∧
    (∀ id hv d b, alive s = true → adminDesc s id 0x44 = some d → bankHeld s = false → d.recLen ≠ 0 → d.recLen % 16 = 0 →
      hostRead (descView s id hv) d.recAddr d.recLen = some b → ((chunks 16 b).map parseEntry).all entryOk = true →
      (((chunks 16 b).map parseEntry).foldl bankAdd s.map.bank).length ≤ 8192 → chunks 16 b ≠ [] → Completes (.stageWrite id hv) s fun t =>
        t.map = { s.map with bank := ((chunks 16 b).map parseEntry).foldl bankAdd s.map.bank, bankSt := .opened, status := 0 } ∧
          Posted s d 0 [] t)

/-- R435, R437: a CHECK that finds no failing rule makes the bank CHECKED, one that does names what failed and leaves it open; COMMIT of a CHECKED bank that
still passes is COMMITTING, of one that no longer passes is COMMIT_STALE, and of any other is NOT_CHECKED. The descriptor kinds do the same. -/
def Obligations.CheckAndCommit : Prop :=
  ∀ s : State,
    (∀ m, served s m Off.COMMIT_CMD = true → privileged s m = true →
      (s.map.bankSt ≠ .committing →
        (checkMap s = none → Completes (.check m) s fun t =>
          t.map = { s.map with bankSt := .checked, status := 0 }) ∧
        ∀ f, checkMap s = some f → Completes (.check m) s fun t =>
          t.map.status = f.status ∧ t.map.bank = s.map.bank ∧ t.map.bankSt ≠ .checked ∧ t.map.infoKind = f.kind ∧ t.map.infoIndex = f.index ∧
            t.map.ctxNamed = f.ctx) ∧
      (s.map.bankSt = .checked →
        (checkMap s = none → Completes (.commit m) s fun t =>
          t.map = { s.map with bankSt := .committing, status := 0 }) ∧
        ∀ f, checkMap s = some f → Completes (.commit m) s fun t =>
          t.map.status = St.COMMIT_STALE ∧ t.map.bank = s.map.bank ∧ t.map.gen = s.map.gen) ∧
      (s.map.bankSt = .opened → Completes (.commit m) s fun t => t.map = { s.map with status := St.NOT_CHECKED })) ∧
    (∀ id d, alive s = true →
      (adminDesc s id 0x45 = some d → s.map.bankSt ≠ .committing → checkMap s = none → Completes (.stageCheck id) s fun t =>
        t.map = { s.map with bankSt := .checked, status := 0 } ∧ Posted s d 0 [] t) ∧
      (adminDesc s id 0x46 = some d → s.map.bankSt = .checked → checkMap s = none → Completes (.stageCommit id) s fun t =>
        t.map = { s.map with bankSt := .committing, status := 0 } ∧ Posted s d 0 [] t))

/-- R432, R437: in t_c the generation advances, every slice is as staged, the bank is empty, a node in SETUP runs, and committed is raised; an older generation
with no work left is retired. -/
def Obligations.CommitApplies : Prop :=
  ∀ s : State, alive s = true →
    (s.map.bankSt = .committing → Completes .commitApply s fun t =>
      t.map.gen = (s.map.gen + 1) % 2 ^ 16 ∧ t.map.older = s.map.gen :: s.map.older ∧ t.map.bank = [] ∧ t.map.bankSt = .empty ∧
        (∀ n, n < 16 → sliceOf t n = stagedSlice s n) ∧ (s.boot.st = .setup → t.boot.st = .run) ∧
        (statusOf t Off.COMMIT_STATUS).hi.getLsbD 0 = true) ∧
    ∀ g, g ∈ s.map.older → genWork s g = 0 → Completes (.generationRetired g) s fun t =>
      t.map = { s.map with older := s.map.older.filter (· != g) } ∧ (statusOf t Off.COMMIT_STATUS).hi.getLsbD 2 = true ∧
        OnlyParts [.regs, .hostq, .out, .sb, .map] s t

/-! ### Faults, fencing, groups, canaries -/

/-- R391, R392, R409, R410: the fault manager's fences. FENCE_NODE stops admission and completes the fetched descriptors; UNFENCE_NODE lifts it but for a failed
random source or a full retirement table; FENCE_UNIT fences a unit; REJOIN_UNIT, with the unit's next epoch free, advances the epoch and lifts the
fence where tables and canary pass; an epoch that stays in use ends the command EPOCH_BUSY with the unit fenced. -/
def Obligations.Fencing : Prop :=
  ∀ s : State,
    (∀ m, served s m Off.FAULT_CMD = true → privileged s m = true → s.fault.busy = false →
      (s.fault.st ≠ .fenced → Completes (.fenceNode m) s fun t =>
        t.fault.st = .fenced ∧ dispatchOpen t = false ∧ t.fault.status = 0 ∧ t.hostq.fetched = [] ∧ t.sec.keys = s.sec.keys) ∧
      (s.fault.st = .fenced → (∀ k ∈ s.regs.badParity, (blockOwner k).1 ≠ 0) →
        (s.fault.cause ≠ 0x31 → s.fault.cause ≠ 0x32 → Completes (.unfenceNode m) s fun t => t.fault.st = .run ∧ t.fault.status = 0) ∧
        (s.fault.cause = 0x31 ∨ s.fault.cause = 0x32 → Completes (.unfenceNode m) s fun t =>
          t.fault.st = .fenced ∧ t.fault.status = St.FAULT_CMD_INVALID)) ∧
      ∀ kind ix, unitOk kind ix = true →
        (unitFenced s kind ix = false → Completes (.fenceUnit m kind ix) s fun t =>
          unitFenced t kind ix = true ∧ t.fault.status = 0 ∧ (statusOf t Off.FAULT_STATUS).hi.getLsbD 1 = true) ∧
        (unitFenced s kind ix = true → kind ≠ 6 → blockFails s (unitBlock kind ix) = false →
          (hasEpoch kind = true → epochStale s kind ix = false) → ∀ tab can, Completes (.rejoinUnit m kind ix true tab can) s fun t =>
            unitFenced t kind ix = !(!hasTables kind || (tab && can)) ∧
              t.fault.status = (if !hasTables kind || (tab && can) then 0 else St.REJOIN_FAILED) ∧
              epochOf t kind ix = (if hasEpoch kind then (epochOf s kind ix + 1) % 256 else epochOf s kind ix)) ∧
        (unitFenced s kind ix = true → hasEpoch kind = true → blockFails s (unitBlock kind ix) = false →
          ∀ free tab can, free = false ∨ epochStale s kind ix = true → Completes (.rejoinUnit m kind ix free tab can) s fun t =>
            t.fault.busy = true ∧ t.fault.rejoin = some (kind, ix) ∧ unitFenced t kind ix = true)) ∧
    ∀ kind ix, alive s = true → s.fault.rejoin = some (kind, ix) → unitFenced s kind ix = true → Completes (.epochWaitTimeout kind ix) s fun t =>
      t.fault = { s.fault with rejoin := none, status := St.EPOCH_BUSY, busy := false } ∧ OnlyParts [.fault] s t

/-- R394, R398, R399: erasure groups. An IDLE group whose configuration is valid becomes ACTIVE for the context, another is refused; an ACTIVE group with a
path to the spare, whose entry does not lie where the work requests go, sends it a message for each of this node's rows and one that ends them,
and is SENDING; one without a path says NO_PATH and stays ACTIVE; a receiver with no more lost shards than parity shards is REBUILDING; a delta of a data shard reaches the P row by
addition. -/
def Obligations.ErasureGroups : Prop :=
  ∀ s : State,
    (∀ m ctx, served s m Off.FAULT_GROUP_CTX = true → privileged s m = true → ctx < 4096 → (grpOf s (selNum s m Off.FAULT_GROUP_SEL)).st = .idle →
      let gi := selNum s m Off.FAULT_GROUP_SEL
      (groupOk s gi ctx = true → Completes (.groupActivate m ctx) s fun t =>
        (grpOf t gi).st = .active ∧ grpCtx t gi = ctx ∧ (grpCtx s gi ≠ ctx → (grpOf t gi).rows = []) ∧ t.fault.status = s.fault.status) ∧
      (groupOk s gi ctx = false → Completes (.groupActivate m ctx) s fun t =>
        t.fault.status = St.GROUP_INVALID ∧ grpOf t gi = grpOf s gi)) ∧
    (∀ m, served s m Off.FAULT_CMD = true → privileged s m = true → s.fault.busy = false →
      let gi := selNum s m Off.FAULT_GROUP_SEL
      ((grpOf s gi).st = .active → Completes (.rebuildSend m) s fun t =>
        (t.fault.status = 0 ∧ (grpOf t gi).st = .sending) ∨ (t.fault.status = St.NO_PATH ∧ (grpOf t gi).st = .active)) ∧
      (let node := rf s Off.FAULT_REBUILD 18 14
       let entry := rf s Off.QPE_PATH_BASE 0 32 + pathAt (grpCtx s gi) node / 16384
       (grpOf s gi).st = .active →
        (∀ q, pathQp s (grpCtx s gi) node = some q → (qpOf s q).sqPfn ≠ entry → (qpOf s q).sqTail < 256 → (∀ e ∈ s.mem.behind, e.1 / 128 ≠ entry) →
          isBoard entry = true → Completes (.rebuildSend m) s fun t =>
            t.fault.status = 0 ∧ (grpOf t gi).st = .sending ∧ (grpOf t gi).rows = (grpOf s gi).rows ∧
              ∃ ms, (qpOf t q).sq ++ (qpOf t q).sqWait = (qpOf s q).sq ++ (qpOf s q).sqWait ++ ms ∧ ms.length = (heldRows s gi).length + 1 ∧
                (∀ w ∈ ms, w.op = 2 ∧ w.msgType = 0x20) ∧ (ms.getLast?.map (·.wrId)) = some (rebuildId gi)) ∧
        (pathQp s (grpCtx s gi) node = none → Completes (.rebuildSend m) s fun t =>
          t.fault = { s.fault with status := St.NO_PATH, busy := false } ∧ t.qpe = s.qpe ∧ t.mem = s.mem)) ∧
      ((grpOf s gi).st = .idle ∨ (grpOf s gi).st = .active → groupShapeOk s gi (grpCtx s gi) = true →
        ((lostShards s gi).length ≤ grpR s gi → Completes (.rebuildRecv m) s fun t =>
          grpOf t gi = { st := .rebuilding } ∧ t.fault.status = 0) ∧
        (grpR s gi < (lostShards s gi).length → Completes (.rebuildRecv m) s fun t =>
          (grpOf t gi).st = .idle ∧ t.fault.status = St.REBUILD_FAILED ∧ (statusOf t Off.FAULT_STATUS).hi.getLsbD 4 = true))) ∧
    ∀ gi src body pick, alive s = true → groupOfId s (leAt body 0 2) = some gi → (grpOf s gi).st = .active → leAt body 2 1 < grpK s gi →
      grpShard s gi = grpK s gi → grpMember s gi (leAt body 2 1) = src → leAt body 4 4 ≠ 0xFFFFFFFF →
      let key := rowKey (leAt body 4 4 % 2 ^ 24) (leAt body 8 2) (leAt body 10 1) (leAt body 12 4)
      let sum := xorB (fit frameBytes (grpRow (grpOf s gi) key).a0) (fit frameBytes (body.drop 16))
      Completes (.parityDelta src body pick) s fun t =>
        (allZero sum = false → (grpRow (grpOf t gi) key).a0 = sum) ∧ (allZero sum = true → tfind (grpOf t gi).rows key = none) ∧
          ∀ k, k ≠ key → grpRow (grpOf t gi) k = grpRow (grpOf s gi) k

/-- R403, R405, R407, R408: SHADOW is entered with its counts at zero and left by PROMOTE alone; a primary's record without a match counts as unmatched. A canary round makes one
pattern due on every READY core; a canary that passes is debited and counted, one that fails fences its core. HOURLY writes its entry and starts a new hour. -/
def Obligations.ShadowAndCanaries : Prop :=
  ∀ s : State,
    (∀ m, served s m Off.FAULT_CMD = true → privileged s m = true → s.fault.busy = false →
      (s.fault.st = .run → Completes (.shadowStart m) s fun t => t.fault = { s.fault with st := .shadow, shadow := {}, status := 0 }) ∧
      (s.fault.st = .shadow → Completes (.promote m) s fun t => t.fault = { s.fault with st := .run, status := 0 }) ∧
      (s.fault.st ≠ .shadow → Completes (.promote m) s fun t => t.fault = { s.fault with status := St.SHADOW_STATE })) ∧
    (alive s = true →
      (∀ tag att head p, (tag, att, head, p) ∈ s.fault.shadow.prim → Completes (.shadowUnmatched tag att head) s fun t =>
        OnlyParts [.fault] s t ∧ t.fault.shadow.unmatched = min 0xFFFFFFFF (s.fault.shadow.unmatched + 1) ∧
          ∀ x ∈ t.fault.shadow.prim, ¬(x.1 = tag ∧ x.2.1 = att ∧ x.2.2.1 = head)) ∧
      (rbit s Off.FAULT_CTRL 0 = true → Completes .canaryDue s fun t =>
        OnlyParts [.fault] s t ∧ t.fault.canary.next = (s.fault.canary.next + 1) % 8 ∧
          t.fault.canary.due = s.fault.canary.due ++ ((List.range 128).filter (coreReady s)).map fun k => (k, s.fault.canary.next)) ∧
      (∀ core d, (s.fault.canary.due.find? fun d => d.1 == core) = some d → coreBusy s core = false → braked s = false →
        coreFenced s core = false → rf s Off.FAULT_CANARY_COST 0 16 ≤ s.ledger.remain →
        (Completes (.canaryDone core true) s fun t =>
          t.fault.canary.due = s.fault.canary.due.erase d ∧ t.fault.canary.lastCore = core ∧ t.fault.canary.lastPattern = d.2 ∧
            t.fault.canary.lastFail = false ∧ t.ledger.remain = s.ledger.remain - rf s Off.FAULT_CANARY_COST 0 16 ∧
            t.svc.life.canaryRuns = s.svc.life.canaryRuns + 1 ∧ OnlyParts [.regs, .ledger, .svc, .fault] s t) ∧
        Completes (.canaryDone core false) s fun t =>
          coreFenced t core = true ∧ canaryDue t core = false ∧ t.fault.canary.lastFail = true ∧
            (statusOf t Off.FAULT_STATUS).hi.getLsbD 7 = true) ∧
      Completes .hourly s fun t => t.svc.seconds = s.svc.seconds + 3600 ∧ t.svc.hour = {} ∧ t.svc.trail = (s.svc.hour :: s.svc.trail).take 1000 ∧
        (∃ e ∈ t.svc.entries, e.type = 3 ∧ e.body = hourlyBody s.svc.hour) ∧ OnlyParts [.svc, .rngCtr] s t)

/-- R451, R452: a mismatch of a register's hidden parity, found by the sweep where it is enabled and on use always, is recorded, counted and raised, and halts the unit that the register's block belongs to: the node where
the block is the node's own, the port, stack or channel elsewhere, and a die by its four clusters (the model's choice, log entry 24). -/
def Obligations.ParityMismatch : Prop :=
  ∀ (s : State) (key : Nat) (flips : Word) (use : Bool), alive s = true → (use || rbit s Off.GLOBAL_PARITY_CTRL 0) = true → hasParity key = true →
    Completes (.paritySweep (some (key, flips)) use) s (fun t =>
      t.regs.parAddr = key % 2 ^ 24 ∧ t.regs.parSel = (if perMaster (key % 2 ^ 24) then 0 else key / 2 ^ 24) ∧ t.regs.parUnread = true ∧ t.regs.parMore = s.regs.parUnread ∧
        key ∈ t.regs.badParity ∧ ((blockOwner key).1 = 0 → t.fault.st = .fenced ∧ t.fault.cause = 0x30) ∧
        (∀ kind ix, blockOwner key = (kind, ix) → kind = 3 ∨ kind = 5 ∨ kind = 6 → unitFenced t kind ix = true) ∧
        ∀ die, blockOwner key = (1, die) → ∀ c, c < 4 → unitFenced t 2 (4 * die + c) = true) ∧
    Completes (.paritySweep none use) s fun t => t = s

/-! ### Register accesses -/

/-- R444, R445: a write of one word by a privileged master, to a register that starts nothing and that nothing follows, acts on the bits of every RW and RW-G field by its
view, on no other field and on no other register instance; another master's write of a guarded register reaches the RW fields alone, and is logged. -/
def Obligations.RegisterViews : Prop :=
  ∀ (s : State) (m : Master) (v : View) (off d : Nat) (r : Reg), served s m off = true → off < 2 ^ 24 → off % 4 = 0 → d < 2 ^ 32 →
    regAt off = some r → isStatus r = false → perMaster off = false → off ≠ Off.SEC_DATA → off ≠ Off.GLOBAL_MGMT_RID →
    off ≠ Off.FAULT_GROUP_CTX → off ≠ Off.FAB_QUIESCE → (∀ t : State, lockedBits t m off = 0) → (∀ w, startOf m off w = none) →
    (∀ t, followWrite m off t = ibiCheck t) → parityKey s m off ∉ s.regs.badParity →
    let key := keyOf s m off
    let viewed (i : Nat) : Bool := match v with
      | .normal => d.testBit i
      | .set => (regWord s key).testBit i || d.testBit i
      | .clear => (regWord s key).testBit i && !d.testBit i
      | .toggle => (regWord s key).testBit i ^^ d.testBit i
    let reaches (ty : RegTy) : Prop := ty = .rw ∨ (ty = .rwg ∧ privileged s m = true)
    Completes (.registerWrite m v off d 4 15) s fun t =>
      (∀ i, i < 32 → (regWord t key).testBit i =
        if (∃ f ∈ r.fields, reaches f.ty ∧ f.lo ≤ i ∧ i < f.lo + f.w) ∨
            (v = .normal ∧ (hasGuarded r = false ∨ privileged s m = true) ∧ ∀ f ∈ r.fields, ¬(f.lo ≤ i ∧ i < f.lo + f.w))
          then viewed i else (regWord s key).testBit i) ∧
      (∀ k, k ≠ key → regWord t k = regWord s k) ∧
      (hasGuarded r = true → privileged s m = false → t.sec.guardCnt = min 0xFFFFFFFF (s.sec.guardCnt + 1))

/-- R450: an event advances seq by one, modulo 2^16, and clears the read marks of both masters; a read sets the reading master's mark and answers seq and flags;
a normal-view write of a value equal to seq with the writing master's mark set clears every flag, keeps seq and the fields that name the newest event, and clears the
mark, and otherwise nothing changes. -/
def Obligations.StatusSequence : Prop :=
  ∀ (s : State) (m : Master) (off : Nat) (r : Reg), regAt off = some r → isStatus r = true → off < 2 ^ 24 →
    let st := statusOf s off
    let mark (x : StatusReg) : Bool := match m with
      | .pcie _ => x.markPcie
      | .sideband => x.markSb
    (∀ flags puts, (statusOf (raise s off flags puts) off).seq = st.seq + 1 ∧ (statusOf (raise s off flags puts) off).markPcie = false ∧
      (statusOf (raise s off flags puts) off).markSb = false) ∧
    (served s m off = true →
      (∀ n, off % 4 = 0 → 1 ≤ n → n ≤ 4 → Completes (.statusRead m off n) s fun t =>
        mark (statusOf t off) = true ∧ (statusOf t off).seq = st.seq ∧ (statusOf t off).hi = st.hi ∧
          t.out = s.out ++ [.readData (BitVec.ofNat 32 (st.seq.toNat + 2 ^ 16 * st.hi.toNat))] ∧ ∀ o, o ≠ off → statusOf t o = statusOf s o) ∧
      ∀ d, d < 2 ^ 32 →
        (d % 2 ^ 16 = st.seq.toNat → mark st = true → Completes (.seqWriteBack m off d) s fun t =>
          (statusOf t off).seq = st.seq ∧ mark (statusOf t off) = false ∧
            (∀ i, i < 16 → (statusOf t off).hi.getLsbD i = (decide (flagCount off ≤ i) && st.hi.getLsbD i)) ∧
            ∀ o, o ≠ off → statusOf t o = statusOf s o) ∧
        (d % 2 ^ 16 ≠ st.seq.toNat ∨ mark st = false → Completes (.seqWriteBack m off d) s fun t => t = s))

/-- Reads with side effects: a LO register answers the low half and latches the high half for the master that read it, and the other master's latch
stands; GLOBAL_PARITY_ADDR clears its unread mark; FAULT_SVC_DATA answers a word and moves the master's index on. -/
def Obligations.LatchingReads : Prop :=
  ∀ (s : State) (m : Master),
    (∀ lo v r, regAt lo = some r → isStatus r = false → classZero s m lo = false → pairValue s m lo = some v → served s m lo = true →
      lo < 2 ^ 24 → lo ≠ Off.GLOBAL_PARITY_ADDR → lo ≠ Off.FAULT_SVC_DATA → lo ≠ Off.SEC_DATA →
      lo % 4 = 0 → Completes (.loReadLatch m lo 4) s fun t =>
        t.out = s.out ++ [.readData (BitVec.ofNat 32 v)] ∧ latchOf t m lo = v / 2 ^ 32 % 2 ^ 32 ∧
          (∀ k, k ≠ lo → latchOf t m k = latchOf s m k) ∧
          match m with
          | .pcie _ => t.regs.latchSb = s.regs.latchSb
          | .sideband => t.regs.latchPcie = s.regs.latchPcie) ∧
    (served s m Off.GLOBAL_PARITY_ADDR = true → Completes (.parityAddrRead m) s fun t =>
      t.regs.parUnread = false ∧ t.regs.parMore = false ∧ t.regs.parAddr = s.regs.parAddr) ∧
    (served s m Off.FAULT_SVC_DATA = true → Completes (.svcDataRead m) s fun t =>
      fld (selWord t m Off.FAULT_SVC_INDEX) 0 7 = (selWord s m Off.FAULT_SVC_INDEX % 128 + 1) % 128 ∧ t.svc = s.svc)

/-! ### The sideband -/

/-- R456, R457: sideband commands. A good READ answers its words in address order, a READ_FIFO the same address again and again, a WRITE writes its word, each with status 0 and a
CRC; a CRC that does not fit is status 3 and does nothing else; the response is taken once. Address assignment and the event enable follow the common command
codes, and an assigned node answers the directed GETs. -/
def Obligations.SidebandCommands : Prop :=
  ∀ s : State, s.pins.por = true →
    let sealed (b : Bytes) : Bytes := b ++ putLe 1 (crc8 b)
    (∀ a n, a % 4 = 0 → a + 4 * n ≤ 2 ^ 24 → 1 ≤ n → n ≤ 64 →
      ((∀ i, i < n → served s .sideband (a + 4 * i) = true) → Completes (.sbRead (sealed (putLe 1 1 ++ putLe 4 a ++ putLe 1 n))) s fun t =>
        t.sb.resp = some (sealed (putLe 1 0 ++ (sbReadWords s ((List.range n).map fun i => a + 4 * i)).1))) ∧
      (served s .sideband a = true → Completes (.sbReadFifo (sealed (putLe 1 2 ++ putLe 4 a ++ putLe 1 n))) s fun t =>
        t.sb.resp = some (sealed (putLe 1 0 ++ (sbReadWords s (List.replicate n a)).1)))) ∧
    (∀ a w, a % 4 = 0 → a < 2 ^ 24 → w < 2 ^ 32 → served s .sideband a = true →
      Completes (.sbWrite (sealed (putLe 1 3 ++ putLe 4 a ++ putLe 4 w))) s fun t =>
        t = respondSb (writeWord .sideband .normal a w s) 0 []) ∧
    (∀ cmd, 2 ≤ cmd.length → leAt cmd (cmd.length - 1) 1 ≠ crc8 (cmd.take (cmd.length - 1)) → Completes (.sbWrite cmd) s fun t =>
      t.sb = { s.sb with resp := some (sealed (putLe 1 3)) } ∧ OnlyParts [.sb] s t) ∧
    (∀ b, s.sb.resp = some b → Completes .sbResponse s fun t => t.out = s.out ++ [.sideband b] ∧ t.sb.resp = none) ∧
    (Completes (.enec 1) s fun t => t.sb = { s.sb with events := true }) ∧ (Completes (.disec 1) s fun t => t.sb = { s.sb with events := false }) ∧
    (Completes .rstdaa s fun t => t.sb = { s.sb with dynAddr := none }) ∧
    (s.sb.dynAddr = none → ∀ a, (Completes (.setdasa 0x3A a) s fun t => t.sb = { s.sb with dynAddr := some a }) ∧
      Completes (.entdaa a) s fun t => t.sb = { s.sb with dynAddr := some a } ∧ ∃ b, t.out = s.out ++ [.sideband (pidBytes (Config.partId 0) ++ b)]) ∧
    (s.sb.dynAddr.isSome = true → (Completes .getpid s fun t => t.out = s.out ++ [.sideband (pidBytes (Config.partId 0))]) ∧
      (Completes .getbcr s fun t => t.out = s.out ++ [.sideband (putLe 1 (Config.partId 1))]) ∧
      (Completes .getdcr s fun t => t.out = s.out ++ [.sideband (putLe 1 (Config.partId 2))]) ∧
      Completes .getstatus s fun t => ∃ b, b.length = 2 ∧ t.out = s.out ++ [.sideband b])

/-! ### Images and attention -/

/-- R121, R136, R162: an image's life. IMAGE_LOAD takes a FREE handle to LOADING with what the checks found; the load ends LOADED with its tables bound, or
FREE with the first failing check told in the record and in WEFT_LOAD_ERROR; IMAGE_UNLOAD takes it to RETIRING at once, and when its last step has
ended the handle is FREE; a DRAINING table slot with no page and no block in flight left is FREE and keeps its generation. -/
def Obligations.ImageLife : Prop :=
  ∀ (s : State) (h : Nat), alive s = true →
    (∀ id d hv b, findDesc s id = some d → d.kind = 0x42 → descReady s d = true → loadWaits s d = false → d.handle = h →
      (handleOf s h).st = .free → 64 ≤ d.recLen → d.recLen ≤ 2 ^ 31 → hostRead (descView s id hv) d.recAddr d.recLen = some b →
        Completes (.imageLoad id hv) s fun t => OnlyParts [.weft] s t ∧ (handleOf t h).st = .loading ∧
          (loadChecks s b = .ok () → (handleOf t h).loading = some (id, 0, 0, 0) ∧ (handleOf t h).img = parseImage b ∧
            (handleOf t h).frames = cdiv b.length 16384) ∧
          (∀ e, loadChecks s b = .error e → (handleOf t h).loading = some (id, e.code, e.secType, e.record)) ∧
          ∀ k, k ≠ h → handleOf t k = handleOf s k) ∧
    (∀ id sec r d, findDesc s id = some d → d.kind = 0x42 →
      (∀ ts u, (handleOf s h).loading = some (id, 0, sec, r) → bindTables s [] (handleOf s h).img.tables = .ok (ts, u) →
        Completes (.imageLoadComplete h) s fun t =>
          Posted s d St.OK (putLe 1 h ++ zeros 15 ++ (handleOf s h).digest.take 16) t ∧ (handleOf t h).st = .loaded ∧
            (handleOf t h).img.tables = ts ∧ (handleOf t h).loading = none ∧ (∀ k, tslotOf t k = tslotOf u k) ∧
            t.weft.loads = (s.weft.loads + 1) % 2 ^ 64) ∧
      ∀ code, code ≠ 0 → (handleOf s h).loading = some (id, code, sec, r) →
        Completes (.imageLoadComplete h) s fun t =>
          Posted s d code [] t ∧ handleOf t h = {} ∧ t.weft.errSection = sec % 256 ∧ t.weft.errRecord = r % 2 ^ 24 ∧
            t.weft.slots = s.weft.slots ∧ (statusOf t Off.WEFT_STATUS).hi.getLsbD 0 = true) ∧
    (∀ id d, findDesc s id = some d → d.kind = 0x43 → descReady s d = true → d.handle = h → (handleOf s h).st = .loaded →
      Completes (.imageUnload id) s fun t => Posted s d St.OK [] t ∧ handleOf t h = { handleOf s h with st := .retiring } ∧
        t.weft.steps = s.weft.steps ∧
        ∀ e ∈ t.hostq.fetched, namesHandle e = true → e.ring ≠ adminRing → e.handle = h → behindFence s e = true) ∧
    ((handleOf s h).st = .retiring → handleSteps s h = 0 → Completes (.retireDrained h) s fun t =>
      handleOf t h = {} ∧ (∀ k, k ≠ h → handleOf t k = handleOf s k) ∧ (statusOf t Off.WEFT_STATUS).hi.getLsbD 4 = true ∧
        OnlyParts [.regs, .hostq, .out, .sb, .weft, .osier] s t) ∧
    ((tslotOf s h).st = .draining → slotPages s h + slotInflight s h = 0 → Completes (.tableSlotFree h) s fun t =>
      tslotOf t h = { gen := (tslotOf s h).gen } ∧ (∀ k, k ≠ h → tslotOf t k = tslotOf s k) ∧ t.weft.handles = s.weft.handles ∧
        OnlyParts [.weft, .attn] s t)

/-- R18, R110, R139, R140: an ATTEND whose tests pass is admitted: its energy is debited, it is a step of the chosen variant with the positions,
committed lengths and block entries of that cycle, its tag's attempt is recorded; an ATTEND whose rank group's count is out of range ends
RANK_GROUP; one whose context has no eligible variant, or whose rank group
does not fit, completes by name. -/
def Obligations.AttendAdmitted : Prop :=
  (∀ (s : State) (id : Nat) (hv : HostView) (d : Desc) (c : Bytes), alive s = true → findDesc s id = some d → d.kind = 1 → descReady s d = true →
    attendRefusal s d = none → hostRead (descView s id hv) (d.addr 56) 8 = some c → leAt c 0 2 = 0 ∨ 16384 < leAt c 0 2 →
      Completes (.attend id hv) s fun t => Posted s d St.RANK_GROUP [] t ∧ findDesc t id = none ∧ t.ledger = s.ledger ∧ t.weft.steps = s.weft.steps) ∧
  ∀ (s : State) (id : Nat) (hv : HostView) (d : Desc) (a : AttendArgs) (r : StepReq) (e : Sched), alive s = true →
    findDesc s id = some d → d.kind = 1 → descReady s d = true → attendRefusal s d = none →
    attendArgs (descView s id hv) d (imageOf s d.handle).geo = .ok a → (∀ x ∈ a.streams, streamStatus s d.ring x.1 = none) →
    weftReq s d (some (a.streams.map (·.1))) = some (r, e) →
    ((a.streams.map (·.1)).all fun n => (((streamAt s n).map (·.cls)).getD 0) == r.cls) = true →
      (∀ v energy deg, pickVariant s (imageOf s d.handle) r e = .take v energy deg → rankOk s (imageOf s d.handle) a.group = true →
        attendProgramOk (imageOf s d.handle) v = true → mayAdmit s id = true → findStep s id = none →
          Completes (.attend id hv) s fun t => findDesc t id = none ∧
            (∃ u, findStep t id = some u ∧ u.kind = 1 ∧ u.variant = v ∧ u.ctx = d.ring ∧ u.debit = energy ∧ u.query = a.query ∧
              u.rankGroup = a.group ∧ u.streams = a.streams.map fun x =>
                let st := (streamAt s x.1).getD {}
                { stream := x.1, position := if bitOf d.ctl 3 then x.2 else st.len (d.n 16 2), committed := st.len (d.n 16 2),
                  entries := st.layer (d.n 16 2) }) ∧
            t.ledger.remain = s.ledger.remain - energy ∧ t.ledger.debits = (s.ledger.debits + energy) % 2 ^ 64 ∧
            tget 0 t.attn.tags d.tag = max (tget 0 s.attn.tags d.tag) (d.attempt + 1) ∧ t.weft.admits = (s.weft.admits + 1) % 2 ^ 64 ∧
            t.tier = s.tier ∧ t.mem = s.mem) ∧
      (pickVariant s (imageOf s d.handle) r e = .noVariant →
        Completes (.attend id hv) s fun t => Posted s d St.NO_VARIANT [] t ∧ findDesc t id = none ∧ t.ledger = s.ledger ∧
          t.weft.steps = s.weft.steps ∧ (statusOf t Off.WEFT_STATUS).hi.getLsbD 1 = true) ∧
      (pickVariant s (imageOf s d.handle) r e ≠ .noVariant → rankOk s (imageOf s d.handle) a.group = false →
        Completes (.attend id hv) s fun t => Posted s d St.RANK_GROUP [] t ∧ findDesc t id = none ∧ t.ledger = s.ledger ∧
          t.weft.steps = s.weft.steps)

/-- R17, R54, R115, R130, R139: what moves an admitted ATTEND on. Its slots are filled once, in slot order; each core's pass is told off, or meets a bad page
or a read that ECC cannot correct and faults the step; when every pass, merge and frame is done the step completes. A ready weft step that waits too long completes WAIT_EXPIRED. -/
def Obligations.AttendRuns : Prop :=
  ∀ (s : State) (id : Nat), alive s = true →
    (∀ u, findStep s id = some u → u.kind = 1 →
      (u.filled = false → (variantOf s u).osier = false → ((variantOf s u).sparse && braked s) = false → selectionsRun s u = true →
        (let slots := u.streams.zipIdx.flatMap fun x => fillStream s u x.2 x.1.entries
         remoteSlots { u with slots := slots } = [] → Completes (.slotFill id) s fun t =>
          (∃ w, findStep t id = some w ∧ w.slots = slots ∧ w.filled = true ∧ w.streams = u.streams ∧ w.coresDone = u.coresDone ∧
            w.variant = u.variant ∧ w.debit = u.debit ∧ w.awaits = u.awaits) ∧
          t.tier = s.tier ∧ t.mem.cells = s.mem.cells ∧ t.mem.tags = s.mem.tags ∧ t.ledger = s.ledger ∧ t.qpe = s.qpe ∧ t.osier = s.osier)) ∧
      (∀ core, u.filled = true → (coresOf (variantOf s u)).contains core = true → u.coresDone.contains core = false → coreFenced s core = false →
        braked s = false → (variantOf s u).osier = false → awaitsPages s u core = false →
        (∀ ecc, lostFrame s (passFrames s u core) ecc = none →
          (∀ bs, coreRead s u (coreBlocks s u core) = .ok bs → Completes (.corePassEnd id core ecc) s fun t =>
            (∃ w, findStep t id = some w ∧ w.coresDone = u.coresDone ++ [core] ∧ w.slots = u.slots) ∧ t.tier = s.tier ∧
              t.mem.cells = s.mem.cells ∧ t.ledger = s.ledger) ∧
          ∀ b pfn, coreRead s u (coreBlocks s u core) = .error (b, pfn) → Completes (.corePassEnd id core ecc) s fun t =>
            findStep t id = none ∧ ∃ r, t.fault.log.head? = some r ∧ r.cls = 1 ∧ r.source = b.source ∧ r.status = b.status ∧ r.detail = pfn ∧
              r.tag = u.desc.tag ∧ r.attempt = u.desc.attempt) ∧
        ∀ ecc pfn, lostFrame s (passFrames s u core) ecc = some pfn → Completes (.corePassEnd id core ecc) s fun t =>
          findStep t id = none ∧ ∃ r, t.fault.log.head? = some r ∧ r.cls = 1 ∧ r.source = 0x10 ∧ r.detail = pfn ∧
            r.tag = u.desc.tag ∧ r.attempt = u.desc.attempt) ∧
      (attendDone s u = true → Completes (.attendComplete id) s fun t => findStep t id = none ∧
        Posted s u.desc u.status (putLe 4 u.variant ++ putLe 1 u.desc.attempt ++ putLe 1 (variantOf s u).flags) t ∧
        OnlyParts [.regs, .hostq, .out, .weft, .osier] s t)) ∧
    ∀ d, findDesc s id = some d → 1 ≤ d.kind → d.kind ≤ 7 → d.ring ≠ adminRing → descReady s d = true → rf s Off.WEFT_WAIT_LIMIT 0 16 ≠ 0 →
      Completes (.waitExpired id) s fun t => findDesc t id = none ∧ t.weft.steps = s.weft.steps ∧ t.ledger = s.ledger ∧
        Posted s d St.WAIT_EXPIRED (if d.kind = 2 then appendOut s d St.WAIT_EXPIRED else []) t ∧ (statusOf t Off.WEFT_STATUS).hi.getLsbD 3 = true

/-- R108 to R112, R62: partial records at a rim-merge unit. A good record of no admitted step waits in a slot; one of an admitted step fills its slot, and is
merged at once where that was the last input; a bad one is dropped and counted; an arrival that times out frees its slots; a merge that times out faults the
step; a holder answers remote attention out of
its own pages, with a record in a PARTIAL frame to the requester for each input of each head, and changes no page (the slots and the holder's rank
are the model's reading: log entry 35). -/
def Obligations.PartialRecords : Prop :=
  ∀ s : State, alive s = true →
    (∀ die cl rec, die ≤ 7 → cl ≤ 3 → s.fault.st = .run → (rimSlots s (clusterKey die cl)).length < 256 →
      let r := parseRecord rec
      let k := clusterKey die cl
      let x : RimSlot := { tag := r.tag, attempt := r.attempt, head := r.head, level := r.level, slot := r.slot, src := r.src, part := r.part }
      (r.lengthOk = true → r.crcOk = true → r.flagsOk = true → clusterSt s k = .ready → tget 0 s.attn.tags r.tag ≤ r.attempt + 1 →
        (stepOf s r.tag r.attempt = none → slotFilled s k x = false →
          Completes (.partialRec die cl rec) s fun t => rimSlots t k = rimSlots s k ++ [x] ∧ (∀ j, j ≠ k → rimSlots t j = rimSlots s j) ∧
            OnlyParts [.attn] s t) ∧
        ∀ u e, stepOf s r.tag r.attempt = some u → findStep s u.desc.id = some u → u.streams.length = 1 → entryAt s u k r.head r.level = some e → r.d = (imageOf s u.handle).geo.d →
          r.slot < e.inputs.length → slotFilled s k x = false → hasMerged u 0 e = false →
            Completes (.partialRec die cl rec) s fun t => t.tier = s.tier ∧ t.mem = s.mem ∧
              (x ∈ rimSlots t k ∨ ∃ w, findStep t u.desc.id = some w ∧ ∃ m ∈ w.merged, m ∉ u.merged)) ∧
      (r.lengthOk = false ∨ r.flagsOk = false ∨ clusterSt s k ≠ .ready → Completes (.partialRec die cl rec) s fun t =>
        t.attn = s.attn ∧ t.weft = s.weft ∧ cnt t (Off.ATTN_DROP_BAD die) = min 0xFFFFFFFF (cnt s (Off.ATTN_DROP_BAD die) + 1) ∧
          (statusOf t (Off.ATTN_STATUS die)).hi.getLsbD 2 = true)) ∧
    (∀ tag attempt, stepOf s tag attempt = none → Completes (.arrivalTimeout tag attempt) s fun t =>
      (∀ k, ∀ y ∈ rimSlots t k, ¬(y.tag = tag ∧ y.attempt = attempt)) ∧
        (∀ k, ∀ y ∈ rimSlots s k, ¬(y.tag = tag ∧ y.attempt = attempt) → y ∈ rimSlots t k) ∧
        OnlyParts [.regs, .hostq, .out, .sb, .attn] s t) ∧
    (∀ id head u e, findStep s id = some u → u.kind = 1 → openEntry s u head = some e → Completes (.mergeTimeout id head) s fun t =>
      findStep t id = none ∧ t.hostq.faulted = s.hostq.faulted ++ [(u.desc.ring, u.desc.pos)] ∧
        ∃ r, t.fault.log.head? = some r ∧ r.source = 0x13 ∧ r.tag = u.desc.tag ∧ r.attempt = u.desc.attempt) ∧
    ∀ qpn body x e k v, let q := qpOf s qpn
      let d : Desc := { ring := q.ctx, bytes := body.take 64 }
      let img := imageOf s d.handle
      let layer := d.n 16 2
      let blocks (kv : Nat) := (headEntries (x.layer layer) kv).filter fun b => b.2.tier ≤ 1
      let page (kv : Nat) (b : Nat × BlockEntry) := readBlock s img.geo q.ctx layer d.stream kv b.1 b.2
      let part (h : Nat) : Partial := let kv := h / (img.geo.hq / img.geo.hkv)
        ({ geo := img.geo, var := v, limit := x.len layer } : CoreJob).row (queryRow img.geo v d.ctl (body.drop 66) 0 h)
          (if bitOf d.ctl 3 then d.n 28 4 else x.len layer)
          ((blocks kv).filterMap fun b => (page kv b).toOption.map fun y => (b.1, y.rows))
      q.st = .ready → braked s = false → s.fault.st = .run → streamAt s d.stream = some x → x.ctx = q.ctx → x.st = .owned →
        Completes (.remoteAttend qpn body) s (fun t => t.tier = s.tier ∧ t.mem = s.mem ∧ t.attn = s.attn ∧ t.weft.steps = s.weft.steps ∧
          t.weft.handles = s.weft.handles) ∧
        ∀ p n, handleRefusal s d.handle = none → schedOf img 1 x.cls layer = some e →
          (variantsOf img e).find? (fun y => y.2.remote) = some (k, v) → flowPort s q.ctx q.peer 1 = some p → sessionOf (portOf s p) q.ctx = some n →
          (∀ kv, kv < img.geo.hkv → ∀ b ∈ blocks kv, ∃ y, page kv b = .ok y) →
          Completes (.remoteAttend qpn body) s fun t => t.weft = s.weft ∧
            ∀ h, h < img.geo.hq → ∀ m ∈ remoteInputs s img e v d (leAt body 64 2) h, ∃ f ∈ classFrames (eport t p) 1, f.ctx = q.ctx ∧
              f.frame = { op := 0x20, tc := 1, dst := q.peer, src := nodeNum s, session := n,
                          body := (if v.bf16 then (part h).narrow else part h).record d.tag d.attempt h img.geo.d (nodeNum s)
                            (slotIx m.1 (d.n 27 1) m.2) m.1.level }

/-! ### Appends, moves, frames -/

/-- R65, R61, R57, R19: an APPEND_KV that is admitted debits its variant, takes its whole reservation and writes its pages into reserved frames, and the stream's
pages and lengths stay as they are until the commit; one whose reservation fails completes with the tier loop's status and takes nothing; one that reads a frame
ECC cannot correct faults; one that continues a block of another node waits for its pages. The commit updates the stream's entries, table frames and committed
length at once, writes no memory but those table frames, and its record returns the new length; an append that is no longer at the committed length ends
without effect. -/
def Obligations.Appends : Prop :=
  ∀ (s : State) (id : Nat), alive s = true →
    (∀ d hv pick a, findDesc s id = some d → d.kind = 2 → descReady s d = true → appendRefusal s d = none →
      appendIn (descView s id hv) d (imageOf s d.handle).geo = some a → dispatchOpen s = true →
      (schedOf (imageOf s d.handle) 2 (appendStream s d).cls (d.n 16 2)).isSome = true →
        (∀ ecc c, appendPlan s d = .error c → Completes (.appendKv id hv pick ecc) s fun t =>
          Posted s d c (appendOut s d c) t ∧ findDesc t id = none ∧ t.tier = s.tier ∧ t.mem = s.mem ∧ t.ledger = s.ledger ∧
            (c = St.QUOTA_EXCEEDED → (statusOf t Off.TIER_STATUS).hi.getLsbD 0 = true)) ∧
        ∀ ecc p r e v energy deg ts ps s1 u, findStep s id = none → appendPlan s d = .ok p → weftReq s d (some [d.stream]) = some (r, e) →
          pickVariant s (imageOf s d.handle) r e = .take v energy deg → mayAdmit s id = true → reserveAppend s d p pick = some (ts, ps, s1) →
          let img := imageOf s d.handle
          let layer := d.n 16 2
          let x := appendStream s1 d
          let s2 := countAdmit (admitStep s1 d energy { variant := v, reserve := ts ++ ps, newTables := p.tables.zip ts, input := (a.k, a.v),
                                                        streams := [{ stream := d.stream, committed := x.len layer, entries := x.layer layer }] }) deg
          let y := { appendStream s2 d with entries := x.layer layer }
          let blocks := appendBlocks img.geo d
          let frames := appendFrames y layer blocks
          findStep s2 id = some u → remoteParts x layer p.blocks = [] →
            (∀ enc s3, dataGroup s d.ring = none → lostFrame s2 frames ecc = none →
              encodeAll u img.geo (bindingsOf img (variantOf s2 u)) a y (memEvents s2 frames ecc) blocks ((ts ++ ps).drop (p.tables.zip ts).length) {}
                = .ok (enc, s3) →
              Completes (.appendKv id hv pick ecc) s fun t =>
                (let flags := if squashedIn d img.geo a = 0 then 0 else 1
                 findStep t id = some { u with newEntries := enc.entries, input := ([], []), started := true, flags := flags }) ∧
                findDesc t id = none ∧ t.tier.streams = s.tier.streams ∧ t.ledger.remain = s.ledger.remain - energy ∧
                (∀ q ∈ ts ++ ps, (tfind t.tier.frames q).map (·.use) = some .reserved)) ∧
            ∀ pfn, lostFrame s2 frames ecc = some pfn → Completes (.appendKv id hv pick ecc) s fun t =>
              findStep t id = none ∧ (∀ n, (streamAt t n).map (·.committed) = (streamAt s n).map (·.committed)) ∧
                ∃ r, t.fault.log.head? = some r ∧ r.cls = 1 ∧ r.source = 0x10 ∧ r.detail = pfn) ∧
    (∀ u hv pick ecc, findDesc s id = none → findStep s id = some u → u.kind = 2 → u.started = false → u.awaits ≠ [] →
      exec (.appendKv id hv pick ecc) s = .next s) ∧
    ∀ u, findStep s id = some u → u.kind = 2 → u.started = true → u.deltas = 0 → braked s = false →
      (commitRefusal s u = none →
        let x := (appendStream s u.desc).commit u.newEntries u.newTables (u.desc.n 16 2) (u.desc.n 20 4 + u.desc.n 24 4)
        Completes (.appendCommit id) s fun t => streamAt t u.desc.stream = some x ∧
          (∀ n, n ≠ u.desc.stream → streamAt t n = streamAt s n) ∧ findStep t id = none ∧
          Posted s u.desc St.OK (putLe 8 (u.desc.n 20 4 + u.desc.n 24 4)) t ∧ t.ledger = s.ledger ∧
          ∀ b, (∀ e ∈ x.tables, b / 16384 ≠ e.2) → memByte t.mem.cells b = memByte s.mem.cells b) ∧
      ∀ c, commitRefusal s u = some c → Completes (.appendCommit id) s fun t =>
        t.tier.streams = s.tier.streams ∧ findStep t id = none ∧ Posted s u.desc c (appendOut s u.desc c) t ∧
          (u.parity = [] → t.mem.cells = s.mem.cells)

/-- R60, R68, 15 R376, 07 R175: old frames leave once every step admitted before has ended, a retired one to no pool, any other to the scrub; a scrubbed frame
reads as zeros under no key and returns to its pool, and no other byte of memory changes; while a run or a sweep holds the region of a frame its scrub waits. -/
def Obligations.FramesReturn : Prop :=
  ∀ s : State, alive s = true →
    (∀ ix o, s.tier.old[ix]? = some o → (∃ i ∈ o.waits, (findStep s i).isSome = true) → exec (.frameRelease ix) s = .next s) ∧
    (∀ ix o, s.tier.old[ix]? = some o → (∀ i ∈ o.waits, findStep s i = none) → Completes (.frameRelease ix) s fun t =>
      OnlyParts [.tier, .mem] s t ∧ t.mem.cells = s.mem.cells ∧ t.tier.old = s.tier.old.eraseIdx ix ∧ t.tier.streams = s.tier.streams ∧
        (∀ q ∈ o.frames, tfind t.tier.frames q = none ∧ ∀ i, tfind s.tier.frames q = some i →
          (i.retired = false → q ∈ t.tier.scrub) ∧ (i.retired = true → q ∈ t.tier.retired)) ∧
        ∀ q, q ∉ o.frames → tfind t.tier.frames q = tfind s.tier.frames q) ∧
    ∀ pfn ∈ s.tier.scrub,
      (frameHeld s pfn = true → exec (.scrubDone pfn) s = .next s) ∧
      (frameHeld s pfn = false → Completes (.scrubDone pfn) s fun t =>
        OnlyParts [.mem, .tier, .osier] s t ∧ tfind t.mem.tags pfn = none ∧
          (∀ a, memByte t.mem.cells a = if frameAddr pfn ≤ a ∧ a < frameAddr pfn + 16384 then 0 else memByte s.mem.cells a) ∧
          (s.memInv = true → t.memInv = true) ∧
          t.tier = { s.tier with scrub := s.tier.scrub.filter (· != pfn) })

/-- R67, R68, R70, R143, R144, 07 R173, R175: the first portion of a PAGE_MOVE debits its cost; FLUSH and FLUSH_INVALIDATE write the run's dirty lines back, but for
a region that is held, and FLUSH_INVALIDATE lets what an osier unit has written show; a FREE admitted whole takes its blocks from the stream's pages and completes;
a MOVE whose blocks have been copied swaps the entries that still stand, and its record tells the pages; a flush ends when no region of it is held, and returns the
write generation of the region it covers. R86: the set-up flush runs over the registers' run and is busy until its end. -/
def Obligations.PageMoves : Prop :=
  ∀ s : State,
   (∀ id, alive s = true →
    (∀ d n cost, findDesc s id = some d → findStep s id = none → d.kind = 5 → descReady s d = true → moveRefusal s d = none →
      portion s d (moveItems d) true = some (n, cost) → mayAdmit s id = true →
        let s1 := admitStep s d cost { items := n, left := moveItems d - n, portions := [stamp s d.ring n] }
        (∀ pick ecc x u, d.op = 0 → streamAt s d.stream = some x → findStep s1 id = some u →
          let y := x.view s1 d.stream
          let blocks := (spanOf d).blocks y.entries 0 n
          let frames := blocks.flatMap fun b => entryFrames b.2
          (∀ s2, lostFrame s1 frames ecc = none → moveBlocks u y (memEvents s1 frames ecc) blocks pick = .ok s2 →
            Completes (.move id pick ecc) s fun t => t = s2 ∧ t.ledger.remain = s.ledger.remain - cost ∧ t.tier.streams = s.tier.streams ∧
              ((∀ b ∈ blocks, b.2.tier ≠ 2) → ∃ w, findStep t id = some w ∧ w.left = moveItems d - n)) ∧
          ∀ pfn, lostFrame s1 frames ecc = some pfn → Completes (.move id pick ecc) s fun t =>
            findStep t id = none ∧ ∃ r, t.fault.log.head? = some r ∧ r.cls = 1 ∧ r.source = 0x10 ∧ r.detail = pfn) ∧
        (∀ c, (c = .flush id ∧ d.op = 1) ∨ (c = .flushInvalidate id ∧ d.op = 2) → Completes c s fun t =>
          let out (p : Nat) : Bool := inRun (d.n 28 4) n p && !frameHeld s p
          t.ledger.remain = s.ledger.remain - cost ∧ t.tier = { s.tier with dirty := s.tier.dirty.filter fun e => !out e.1 } ∧
            (∃ w, findStep t id = some w ∧ w.left = moveItems d - n) ∧ OnlyParts [.hostq, .ledger, .weft, .tier, .mem] s t ∧
            (d.op = 1 → t.mem.cells = s.mem.cells ∧ t.mem.tags = s.mem.tags) ∧
            (d.op = 2 → (∀ e ∈ t.mem.behind, out (e.1 / 128) = false) ∧
              ∀ l bs, (l, bs) ∈ s.mem.behind → (∀ e ∈ s.mem.behind, e.2.length = 128 ∧ (e.1 = l → e.2 = bs)) → out (l / 128) = true →
                isDirty s l = false → ∀ i, i < 128 → memByte t.mem.cells (l * 128 + i) = bs.getD i 0)) ∧
        (∀ x, d.op = 3 → n = moveItems d → streamAt s d.stream = some x → Completes (.free id) s fun t =>
          let gone := (spanOf d).blocks (x.view s1 d.stream).entries 0 n
          t.ledger.remain = s.ledger.remain - cost ∧ findStep t id = none ∧
            (∀ y, streamAt t d.stream = some y → y.entries = x.entries.filter fun e => !(gone.map (·.1)).contains e.1) ∧
            ((x.entries.filter fun e => !(gone.map (·.1)).contains e.1) = [] → streamAt t d.stream = none) ∧
            Posted s d (if gone.any (fun e => e.2.shared) then St.PAGE_SHARED else St.OK)
              (moveResults ((gone.filter fun e => !e.2.shared).flatMap fun e => entryFrames e.2).length 0) t)) ∧
    ∀ u, findStep s id = some u → u.kind = 5 → u.left = 0 → u.deltas = 0 →
      (∀ x, u.desc.op = 0 → u.awaits = [] → u.fetches = [] → streamAt s u.desc.stream = some x → Completes (.pageMoveStepEnd id) s fun t =>
        findStep t id = none ∧ Posted s u.desc u.status (moveResults u.taken 0) t ∧
          (let live := u.newEntries.filter fun e => (x.view s u.desc.stream).entry e.1 == tget {} ((u.streams.head?.map (·.entries)).getD []) e.1
           streamAt t u.desc.stream = some { x with entries := live.foldl (fun es e => tset {} es e.1 e.2) x.entries }) ∧
          ∀ b, (∀ e ∈ x.tables, b / 16384 ≠ e.2) → memByte t.mem.cells b = memByte s.mem.cells b) ∧
      (u.desc.op = 0 → u.awaits ≠ [] → exec (.pageMoveStepEnd id) s = .next s) ∧
      ∀ k w, u.desc.op = 1 ∨ u.desc.op = 2 → u.regions = [(k, w, 0)] →
        (regionHeld s k = true → exec (.pageMoveStepEnd id) s = .next s) ∧
        (regionHeld s k = false → u.params = [] → Completes (.pageMoveStepEnd id) s fun t =>
          findStep t id = none ∧ Posted s u.desc St.OK (moveResults (u.desc.n 32 4) 1) t ∧ t.tier = s.tier ∧
            regionSt t k = { regionSt s k with
                             gen := if (regionSt s k).writes = w then (regionSt s k).gen else ((regionSt s k).gen + 1) % 2 ^ 48, returned := true })) ∧
    let run := inRun (rf s Off.TIER_FLUSH_BASE 0 32) (rf s Off.TIER_FLUSH_COUNT 0 32)
    (∀ m inv, served s m Off.TIER_FLUSH_CTRL = true → privileged s m = true → Completes (.tierFlush m inv) s fun t =>
      OnlyParts [.regs, .hostq, .out, .sb, .tier, .mem] s t ∧
        t.tier = if s.tier.flushBusy then s.tier
          else { s.tier with flushBusy := true, dirty := s.tier.dirty.filter fun e => !(run e.1 && !frameHeld s e.1) }) ∧
    (alive s = true → s.tier.flushBusy = true →
      (tierFlushHeld s = true → exec .tierFlushDone s = .next s) ∧
      (tierFlushHeld s = false → Completes .tierFlushDone s fun t => OnlyParts [.tier, .mem] s t ∧
        t.tier = { s.tier with flushBusy := false, dirty := s.tier.dirty.filter fun e => !(run e.1 && isHbm e.1 && 24 ≤ stackOf e.1) }))

/-! ### The Plait store and prefixes -/

/-- 09 R228 to R235, R238, R239: the store. A command of the registers joins its queue of 64, or waits for room in it, and sets busy, is ignored while
busy, and as an insert of kind 0 ends with PLAIT_KIND. In its slot a search answers the first match in the order of R230, an insert goes to the masked bank with the fewest entries, and a delete leaves
no match behind. The shift engine keeps a bank in priority order; an entry disturbed since it was written is not returned: the
search that meets it first and the parity sweep put it out; a register command's result is its registers'. -/
def Obligations.PlaitStore : Prop :=
  ∀ s : State,
    (∀ m owner prio, served s m Off.PLAIT_CMD = true → privileged s m = true →
      ∀ c kind, (c, kind) ∈ [(Instr.plaitSearch m owner, PKind.search), (.plaitNext m owner, .next), (.plaitInsert m owner prio, .insert),
        (.plaitInsertUnique m owner prio, .insertUnique), (.plaitDelete m owner prio, .delete)] → Completes c s fun t =>
          OnlyParts [.regs, .hostq, .out, .sb, .plait] s t ∧ (s.plait.busy = true → t.plait = s.plait) ∧
          (s.plait.busy = false → isInsert kind = true → rf s Off.PLAIT_CMD_OPT 1 2 = 0 → t.plait.busy = false ∧ t.plait.res.status = 5 ∧
            t.plait.updateQ = s.plait.updateQ) ∧
          (s.plait.busy = false → (isInsert kind = false ∨ rf s Off.PLAIT_CMD_OPT 1 2 ≠ 0) → t.plait.busy = true ∧
            ∃ o : POp, o.kind = kind ∧ o.owner = owner % 2 ^ 12 ∧ o.src = .regs ∧ o.gen = s.map.gen ∧ o.key = words128 s Off.PLAIT_CMD_KEY_0 ∧
              (s.plait.waiting = [] → (s.plait.queueOf o).length < 64 → t.plait.waiting = [] ∧
                (if kind = .search ∨ kind = .next then t.plait.searchQ = s.plait.searchQ ++ [o] ∧ t.plait.updateQ = s.plait.updateQ
                  else t.plait.updateQ = s.plait.updateQ ++ [o] ∧ t.plait.searchQ = s.plait.searchQ)) ∧
              (64 ≤ (s.plait.queueOf o).length → t.plait.waiting = s.plait.waiting ++ [o] ∧ t.plait.searchQ = s.plait.searchQ ∧
                t.plait.updateQ = s.plait.updateQ))) ∧
    (alive s = true →
      (∀ o os ws, s.plait.searchQ = o :: os → s.plait.updateQ = [] → o.kind = .search → o.banks ≠ 0 → s.plait.waiting = ws →
        (ws = [] ∨ ∃ w, ws = [w] ∧ w.upd = false ∧ os.length < 64) →
        (∀ x ∈ o.bankList.flatMap (bankMatches s o), x.e.parityOk = true) → Completes (.plaitIssue) s fun t =>
          t.plait.searchQ = os ++ ws ∧ t.plait.banks = s.plait.banks ∧ ∃ r, t.plait.inflight = s.plait.inflight ++ [r] ∧ r.op = o ∧
            (r.hit = false ↔ o.bankList.flatMap (bankMatches s o) = []) ∧
            (r.hit = true → (∃ x ∈ o.bankList.flatMap (bankMatches s o), x.bank = r.bank ∧ x.pos = r.pos ∧ x.e.prio = r.prio ∧ x.e.value = r.value) ∧
              ∀ y ∈ o.bankList.flatMap (bankMatches s o), r.prio < y.e.prio ∨ (r.prio = y.e.prio ∧ (r.bank < y.bank ∨ (r.bank = y.bank ∧ r.pos ≤ y.pos))))) ∧
      (∀ o os x, s.plait.searchQ = o :: os → s.plait.updateQ = [] → o.kind = .search → o.banks ≠ 0 → (ranked s o).head? = some x → s.plait.waiting = [] →
        x.e.parityOk = false → (bankOf s x.bank).placed.length ≤ 65536 → Completes (.plaitIssue) s fun t =>
          (∃ r, t.plait.inflight = s.plait.inflight ++ [r] ∧ r.op = o ∧ r.hit = false) ∧ t.plait.errBank = x.bank ∧ t.plait.errPos = x.pos ∧
            (statusOf t Off.PLAIT_STATUS).hi.getLsbD 1 = true) ∧
      (∀ u us, s.plait.searchQ = [] → s.plait.updateQ = u :: us → u.banks ≠ 0 → s.plait.waiting = [] → stalls s u = none →
        (∀ b, u.kind = .insert → insertBank s u = some b → Completes (.plaitIssue) s fun t =>
          t.plait.updateQ = us ∧ some (entryOfOp u) ∈ (bankOf t b).staged ∧ (bankOf t b).placed = (bankOf s b).placed ∧
            (∀ a, a ≠ b → bankOf t a = bankOf s a) ∧ t.plait.updates = (s.plait.updates + 1) % 2 ^ 64 ∧
            (∀ a ∈ u.bankList, bankFull (bankOf s a) = false → bankEntries (bankOf s b) ≤ bankEntries (bankOf s a)) ∧
            ∃ r, t.plait.inflight = s.plait.inflight ++ [r] ∧ r.status = 0 ∧ r.bank = b) ∧
        (u.kind = .delete → u.anyPrio = true → Completes (.plaitIssue) s fun t => t.plait.updateQ = us ∧ ranked t u = [])) ∧
      (∀ b r w e, (bankOf s b).work = .place r :: w → (bankOf s b).staged.getD r none = some e → Completes (.shiftDone b) s fun t =>
        OnlyParts [.plait] s t ∧ e ∈ (bankOf t b).placed ∧ (bankOf t b).work = w ∧ (∀ x ∈ (bankOf s b).placed, x ∈ (bankOf t b).placed) ∧
          ((bankOf s b).placed.Pairwise (fun x y => x.prio ≤ y.prio) → (bankOf t b).placed.Pairwise fun x y => x.prio ≤ y.prio)) ∧
      (∀ b gap w, (bankOf s b).work = .close gap :: w → Completes (.shiftDone b) s fun t =>
        OnlyParts [.plait] s t ∧ bankOf t b = { bankOf s b with placed := (bankOf s b).placed.filter (fun e => !e.closes gap), work := w }) ∧
      (∀ b pos e, pos < 65536 → (bankOf s b).placed[pos]? = some e → e.valid = true →
        (rbit s Off.PLAIT_CTRL 1 = false → Completes (.plaitParitySweep b { pos := pos, upsets := [(b, pos)] }) s fun t =>
          OnlyParts [.plait] s t ∧ (bankOf t b).placed[pos]? = some { e with parityOk := false } ∧ ∀ a, a ≠ b → bankOf t a = bankOf s a) ∧
        ∀ ups, rbit s Off.PLAIT_CTRL 1 = true → (bankOf s b).work = [] → (ups = [(b, pos)] ∨ (ups = [] ∧ e.parityOk = false)) →
          Completes (.plaitParitySweep b { pos := pos, upsets := ups }) s fun t =>
          (bankOf t b).placed[pos]? = some { e with parityOk := false, valid := false } ∧ t.plait.errPos = pos ∧ t.plait.errBank = b ∧ (statusOf t Off.PLAIT_STATUS).hi.getLsbD 1 = true) ∧
      ∀ r rest, s.plait.inflight = r :: rest → r.op.src = .regs → Completes .plaitResult s fun t =>
        OnlyParts [.plait] s t ∧ t.plait = { s.plait with inflight := rest, busy := false, res := r })

/-- 03 R75 to R78, 05 R143, R144: the prefix kinds. A first portion debits its cost and hands its keys to the store, in order, each
to its queue or to wait for room there: PREFIX_LOOKUP a search and UNPUBLISH a delete for each, PUBLISH a search for its first block. -/
def Obligations.Prefixes : Prop :=
  ∀ (s : State) (id : Nat) (d : Desc) (hv : HostView) (b : Bytes) (n cost : Nat), alive s = true → findDesc s id = some d → findStep s id = none →
    descReady s d = true → hostRead (descView s id hv) (d.addr 32) (16 * prefixCount d) = some b → portion s d (prefixCount d) true = some (n, cost) →
    mayAdmit s id = true →
      let admitted (t : State) : Prop := t.ledger.remain = s.ledger.remain - cost ∧ findDesc t id = none ∧ t.tier = s.tier ∧
        (∃ u, findStep t id = some u ∧ u.keys = keysOf b (prefixCount d) ∧ u.left = prefixCount d - n) ∧
        OnlyParts [.hostq, .ledger, .weft, .plait] s t
      (d.kind = 3 → lookupRefusal s d = none → Completes (.prefixLookup id hv) s fun t => admitted t ∧ t.plait.updateQ = s.plait.updateQ ∧
        ∃ os : List POp, t.plait = os.foldl (fun p o => p.offer o) s.plait ∧
          (s.plait.waiting = [] → s.plait.searchQ.length + n ≤ 64 → t.plait.searchQ = s.plait.searchQ ++ os) ∧ os.map (·.key) = (keysOf b (prefixCount d)).take n ∧
          ∀ o ∈ os, o.kind = .search ∧ o.owner = d.ring ∧ o.ekind = 0) ∧
      (d.kind = 4 → d.op = 1 → prefixShared s d = none → Completes (.unpublish id hv) s fun t => admitted t ∧ t.plait.searchQ = s.plait.searchQ ∧
        ∃ os : List POp, t.plait = os.foldl (fun p o => p.offer o) s.plait ∧
          (s.plait.waiting = [] → s.plait.updateQ.length + n ≤ 64 → t.plait.updateQ = s.plait.updateQ ++ os) ∧ os.map (·.key) = (keysOf b (prefixCount d)).take n ∧
          ∀ o ∈ os, o.kind = .delete ∧ o.owner = d.ring ∧ o.anyPrio = true) ∧
      ∀ pick, d.kind = 4 → d.op = 0 → publishRefusal s d = none → 0 < n → Completes (.publish id hv pick) s fun t => admitted t ∧
        t.plait.updateQ = s.plait.updateQ ∧ ∃ o : POp, t.plait = s.plait.offer o ∧ o.kind = .search ∧ o.owner = d.ring ∧
          some o.key = (keysOf b (prefixCount d)).head?

/-! ### Handoff -/

/-- R80 to R85: a stream's handoff. Its first portion sets it DRAINING; drained, its page tables leave, its pages and its offer at
the next counter are queued, and when the offer leaves it is IN_DOUBT; accepted it is FORMER under the new owner and the PAGE_MOVE completes; refused it is OWNED again two counters on and the PAGE_MOVE completes HANDOFF_REFUSED. A target answers an
offer it has answered before with the same answer, refuses a stale one, and owns the stream of one it accepts. Eight unanswered queries raise the doubt; an
unknown offer that is asked for is recorded as refused. The host's records resolve the doubt. While the node is FENCED
a stream in doubt stays so. -/
def Obligations.HandoffStates : Prop :=
  ∀ (s : State) (n : Nat), alive s = true →
    let st (t : State) := (streamAt t n).map (·.st)
    let counter (t : State) := (streamAt t n).map (·.counter)
    let sent (t : State) (q : Nat) := ((qpOf t q).sq ++ (qpOf t q).sqWait).getLast?.map (·.msgType)
    let pagesOnly (t : State) := t.tier = { s.tier with dirty := t.tier.dirty, accesses := t.tier.accesses }
    (∀ id d k cost x, findDesc s id = some d → findStep s id = none → d.kind = 5 → d.op = 4 → d.stream = n → descReady s d = true →
      moveRefusal s d = none → portion s d (moveItems d) true = some (k, cost) → mayAdmit s id = true → streamAt s n = some x → x.st = .owned →
        Completes (.handoff id) s fun t => streamAt t n = some { x with st := .draining, handoffId := some id } ∧
          t.ledger.remain = s.ledger.remain - cost ∧ (∃ w, findStep t id = some w ∧ w.left = moveItems d - k)) ∧
    (∀ id x u, streamAt s n = some x → x.handoffId = some id → findStep s id = some u → u.desc.stream = n → x.st = .draining → u.left = 0 →
      u.handed = false → stepsOn s n id = false → u.desc.target ≠ nodeNum s →
        (∀ q, pathQp s x.ctx u.desc.target = some q → Completes (.handoffDrained n) s fun t => streamAt t n = some x ∧ sent t q = some 1 ∧
          Out.pageTables q n ((x.counter + 1) % 2 ^ 32) (x.entries.map fun e => (e.1, BitVec.ofNat 128 (entryNum e.2))) ∈ t.out ∧
          ∃ w, findStep t id = some w ∧ w.handed = true ∧ exec (.handoffDrained n) t = .next t) ∧
        (pathQp s x.ctx u.desc.target = none → Completes (.handoffDrained n) s fun t => st t = some .owned ∧ counter t = counter s ∧
          Posted s u.desc St.HANDOFF_REFUSED (zeros 8 ++ putLe 2 St.NO_PATH) t)) ∧
    (∀ q ix w id x u p j ecc, currentWr (qpOf s q) = some (ix, w) → w.op = 2 → w.msgType = 1 → w.sent = 0 → w.posted = false → w.wrId = id →
      qpeOn s = true → (qpOf s q).waiting = none → (qpOf s q).st = .ready → isCached s q = true → wrInvalid w = none → bitOf w.flags 1 = false →
      (qpOf s q).inflight = 0 → flowPort s (qpOf s q).ctx (qpOf s q).peer (qpOf s q).tc = some p → sessionOf (portOf s p) (qpOf s q).ctx = some j →
      findStep s id = some u → u.desc.stream = n → streamAt s n = some x → x.st = .draining → x.handoffId = some id →
        Completes (.qpSend q ecc) s fun t => streamAt t n = some { x with
          st := .inDoubt, queries := 0,
          last := { counter := (x.counter + 1) % 2 ^ 32, srcNode := nodeNum s, srcPool := (ctxOf s x.ctx).slice, dstNode := u.desc.target,
                    dstPool := u.desc.targetPool } }) ∧
    (∀ c x id u, offered s n c = some x → x.handoffId = some id → findStep s id = some u →
      (Completes (.handoffAccept n c) s fun t => Posted s u.desc St.OK (moveResults u.taken 0) t ∧ findStep t id = none ∧
        streamAt t n = some { ctx := x.ctx, cls := x.cls, st := .former, counter := c, last := { x.last with outcome := 1 },
                              newOwner := x.last.dstNode }) ∧
      exec (.handoffAnswer n c 0) s = exec (.handoffAccept n c) s ∧
      (∀ cause, Completes (.handoffRefuse n c cause) s fun t => st t = some .owned ∧ counter t = some ((x.counter + 2) % 2 ^ 32) ∧
        findStep t id = none ∧ Posted s u.desc St.HANDOFF_REFUSED (moveResults 0 0 ++ putLe 2 cause) t) ∧
      ∀ o, o ≠ 0 → Completes (.handoffAnswer n c o) s fun t => st t = some .owned ∧ counter t = some ((x.counter + 2) % 2 ^ 32) ∧
        findStep t id = none) ∧
    (∀ x, streamAt s n = some x → x.st = .inDoubt → s.fault.st ≠ .fenced →
      (x.queries < 8 → Completes (.handoffTimeout n) s fun t => streamAt t n = some { x with queries := x.queries + 1 } ∧
        ∀ q, pathQp s x.ctx x.last.dstNode = some q → sent t q = some 4) ∧
      (x.queries = 8 → Completes (.handoffTimeout n) s fun t => st t = some .inDoubt ∧ (statusOf t Off.TIER_STATUS).hi.getLsbD 2 = true)) ∧
    (∀ ctx src c,
      (∀ r, answerOf s n c = some r → Completes (.handoffQuery ctx src n c) s fun t => pagesOnly t ∧
        ∀ q, pathQp s ctx src = some q → sent t q = some 5) ∧
      (answerOf s n c = none → Completes (.handoffQuery ctx src n c) s fun t => (∃ r k, answerOf t n c = some (r, k) ∧ r.outcome = 2) ∧
        t.tier.streams = s.tier.streams ∧ ∀ q, pathQp s ctx src = some q → sent t q = some 5)) ∧
    (∀ ctx c src sp dp len digest es,
      (∀ r cause, answerOf s n c = some (r, cause) → Completes (.handoffOffer ctx n c src sp dp len digest es) s fun t => pagesOnly t ∧
        ∀ q, pathQp s ctx r.srcNode = some q → sent t q = some (if r.outcome = 1 then 2 else 3)) ∧
      (∀ k, answerOf s n c = none → knownCounter s n = some k → newer c k = false →
        Completes (.handoffOffer ctx n c src sp dp len digest es) s fun t => pagesOnly t ∧ ∀ q, pathQp s ctx src = some q → sent t q = some 3) ∧
      (answerOf s n c = none → (∀ k, knownCounter s n = some k → newer c k = true) →
        let r : HandoffRec := { counter := c, srcNode := src, srcPool := sp, dstNode := nodeNum s, dstPool := dp, outcome := 1 }
        (∀ s1, judgeOffer s ctx n c r digest (offeredEntries es) = .ok s1 → Completes (.handoffOffer ctx n c src sp dp len digest es) s fun t =>
          st t = some .owned ∧ counter t = some c ∧ answerOf t n c = some (r, 0)) ∧
        ∀ z, judgeOffer s ctx n c r digest (offeredEntries es) = .error z → Completes (.handoffOffer ctx n c src sp dp len digest es) s fun t =>
          streamAt t n = streamAt s n ∧ (∃ k, answerOf t n c = some ({ r with outcome := 2 }, k) ∧ ∀ w, z = some w → k = w))) ∧
    (∀ x, streamAt s n = some x → x.st = .inDoubt → s.fault.st = .fenced →
      (∀ c cause o, exec (.handoffAccept n c) s = .next s ∧ exec (.handoffRefuse n c cause) s = .next s ∧ exec (.handoffAnswer n c o) s = .next s) ∧
      exec (.handoffTimeout n) s = .next s ∧ ∀ ctx rs confirmed, exec (.handoffResolve ctx n rs confirmed) s = .next s) ∧
    ∀ ctx rs confirmed x, streamAt s n = some x → doubtHeld s n = false →
      (∀ r, governing rs = some r → r.dstNode = nodeNum s → x.counter = r.counter → x.entries ≠ [] →
        Completes (.handoffResolve ctx n rs confirmed) s fun t => st t = some .owned ∧ counter t = counter s) ∧
      (∀ r, governing rs = some r → r.dstNode = nodeNum s → (x.counter ≠ r.counter ∨ x.entries = []) →
        Completes (.handoffResolve ctx n rs confirmed) s fun t => st t = some .lost ∧ (statusOf t Off.TIER_STATUS).hi.getLsbD 3 = true) ∧
      ∀ r, governing rs = some r → r.dstNode ≠ nodeNum s → x.st ≠ .former → x.st ≠ .lost →
        Completes (.handoffResolve ctx n rs confirmed) s fun t =>
          if confirmed then st t = some .former ∧ (streamAt t n).map (·.newOwner) = some r.dstNode
          else st t = some .inDoubt ∧ (streamAt t n).map (·.entries) = some x.entries

/-! ### Coma -/

/-- 08 R195, R209 to R219: tenant searches. A SEARCH of one index that passes its checks is admitted and joins the queue of its home engine; one out of range completes
COMA_PARAM; the engine starts the first waiting search when it has a context free; a search ends with at most k hits, its record in host memory, the entries with
relaxed ordering, and its completion.
A shard request runs under its key or is answered with an error and raised; the answer of a shard is taken once, a late one counted; a timeout closes the query. -/
def Obligations.ComaSearches : Prop :=
  ∀ s : State, alive s = true →
    (∀ id d hv hdr, findDesc s id = some d → findStep s id = none → d.kind = 6 → d.n 16 1 = 0 → descReady s d = true → rbit s Off.COMA_CTRL 0 = true →
      hostRead (descView s id hv) (d.addr 24) 64 = some hdr →
        (hdrOk (searchHdr hdr) = false → Completes (.search id hv) s fun t => Posted s d St.COMA_PARAM [] t ∧ findDesc t id = none ∧
          t.coma = s.coma ∧ t.ledger = s.ledger) ∧
        ∀ x bits m cost, hdrOk (searchHdr hdr) = true → (searchHdr hdr).shards = 0 → searchable s d.ring (searchHdr hdr).index (searchHdr hdr) = .ok x →
          hostRead (descView s id hv) (d.addr 24 + 64) x.queryBytes = some bits → queueFull s x.home = false → mayAdmit s id = true → portion s d 1 true = some (m, cost) →
            Completes (.search id hv) s fun t => t.ledger.remain = s.ledger.remain - cost ∧ t.coma.indexes = s.coma.indexes ∧
              ∃ q, t.coma.queries = s.coma.queries ++ [q] ∧ q.q = s.coma.nextQ ∧ q.id = some id ∧ q.index = (searchHdr hdr).index ∧ q.die = x.home ∧
                q.hdr = hdr ∧ q.bits = bits ∧ (q.running = true → q.updates0 = x.updates ∧ q.entry0 = x.entry ∧ engineRunning s x.home < tenantContexts s x.home)) ∧
    (∀ die q, (engineQueries s die).find? (fun q => !q.running) = some q → engineRunning s die < tenantContexts s die → comaFenced s die = false →
      Completes (.comaQueueStart die) s fun t => OnlyParts [.coma] s t ∧ ∃ p ∈ t.coma.queries, p.q = q.q ∧ p.running = true ∧ p.index = q.index) ∧
    (∀ n q id u x, findQuery s n = some q → q.id = some id → findStep s id = some u →
      (q.shards = [] → q.parent = none → q.running = true → comaFenced s q.die = false → braked s = false → indexOf s q.index = some x →
        ∀ ecc, lostFrame s x.frames ecc = none → Completes (.searchDone n ecc) s fun t =>
          let r := (runSearch s x (searchHdr q.hdr) q.bits q.entry0 q.updates0).1
          findStep t id = none ∧ findQuery t n = none ∧ Posted s u.desc St.OK [] t ∧ r.hits.length ≤ (searchHdr q.hdr).k ∧
            (ringFn s u.desc.ring ∉ s.hostq.fnStopped → s.hostq.pf0D3 = false → u.desc.ring ≠ noRing →
              Out.hostWrite (ringFn s u.desc.ring) (searchHdr q.hdr).result (r.bytes.take 32) false ∈ t.out ∧
              (r.hits ≠ [] → Out.hostWrite (ringFn s u.desc.ring) ((searchHdr q.hdr).result + 32) (r.bytes.drop 32) true ∈ t.out))) ∧
      (∀ ecc pfn, q.shards = [] → q.parent = none → q.running = true → comaFenced s q.die = false → braked s = false → indexOf s q.index = some x →
        lostFrame s x.frames ecc = some pfn → Completes (.searchDone n ecc) s fun t =>
          findStep t id = none ∧ findQuery t n = none ∧ ∃ r, t.fault.log.head? = some r ∧ r.cls = 1 ∧ r.source = 0x10 ∧ r.detail = pfn) ∧
      (q.shards ≠ [] → (q.timedOut = true ∨ q.complete = true) → ∀ ecc, Completes (.searchDone n ecc) s fun t =>
          let r := mergeShards (searchHdr q.hdr).k q.shards.length q.answers
          findStep t id = none ∧ findQuery t n = none ∧ Posted s u.desc St.OK [] t ∧ r.hits.length ≤ (searchHdr q.hdr).k ∧ t.coma.indexes = s.coma.indexes)) ∧
    (∀ n q, findQuery s n = some q → q.shards ≠ [] →
      (q.timedOut = false → q.complete = false → Completes (.shardTimeout n) s fun t => findQuery t n = some { q with timedOut := true } ∧
        (statusOf t Off.COMA_STATUS).hi.getLsbD 0 = true) ∧
      (∀ i body, q.awaits i = true → 32 ≤ body.length → Completes (.shardAnswer n i body) s fun t =>
        OnlyParts [.coma] s t ∧ findQuery t n = some { q with answers := q.answers ++ [(i, some (resultOf body i))] }) ∧
      (∀ i body, q.awaits i = false → Completes (.shardAnswer n i body) s fun t =>
        OnlyParts [.regs] s t ∧ cnt t (ckey (Off.COMA_CNT_LO 0) 6 0) = (cnt s (ckey (Off.COMA_CNT_LO 0) 6 0) + 1) % 2 ^ 64)) ∧
    ∀ qpn body x, (qpOf s qpn).st = .ready → indexOf s (searchHdr (body.take 64)).index = some x →
      (x.ctx ≠ (qpOf s qpn).ctx ∨ x.key ≠ leAt body 64 4 → Completes (.shardRequest qpn body) s fun t => t.coma = s.coma ∧
        (let sends (t : State) := (qpOf t qpn).sq ++ (qpOf t qpn).sqWait
         (sends t).length = (sends s).length + 1 ∧ (sends t).getLast?.map (·.msgType) = some 0x11) ∧
        (statusOf t Off.COMA_STATUS).hi.getLsbD 1 = true) ∧
      (x.ctx = (qpOf s qpn).ctx → x.key = leAt body 64 4 → rbit s Off.COMA_CTRL 0 = true → x.dropping = false →
        hdrOk (searchHdr (body.take 64)) = true → hdrFits x (searchHdr (body.take 64)) = true → queueFull s x.home = false → Completes (.shardRequest qpn body) s fun t =>
          t.ledger.remain = s.ledger.remain - kindPer s 6 ∧
          ∃ q, t.coma.queries = s.coma.queries ++ [q] ∧ q.id = none ∧ q.qpn = qpn ∧ q.die = x.home ∧ q.ctx = x.ctx ∧ q.bits = body.drop 72)

/-- 08 R205 to R208, R219, R220: index operations. Each that passes its checks and is admitted has its effect and completes: CREATE makes the index its block asks
for; INDEX_WRITE writes its section bytes and TOMBSTONE marks its rows dead, as reads show where the section lies in no COMPUTE region; DROP turns new work away and the drained index is gone; QUERY_INDEX changes nothing;
SET_ENTRY sets the entry rows. INDEX_WRITE, TOMBSTONE and SET_ENTRY count in the index's updates. -/
def Obligations.ComaIndexOps : Prop :=
  ∀ s : State, alive s = true →
   (∀ (id : Nat) (d : Desc) (hv : HostView) (r : Bytes) (m cost : Nat), findDesc s id = some d → findStep s id = none →
    d.kind = 6 → descReady s d = true → mayAdmit s id = true → portion s d 1 true = some (m, cost) →
      let n := leAt r 0 2
      let plain (x : Index) (sec : Nat) : Prop := ∀ i, i < x.sectionFrames sec →
        inCompute s (x.sectionFirst sec + i) = false ∧ ∀ e ∈ s.mem.behind, e.1 / 128 ≠ x.sectionFirst sec + i
      let ends (t : State) (results : Bytes) : Prop :=
        Posted s d St.OK results t ∧ findStep t id = none ∧ findDesc t id = none ∧ t.ledger.remain = s.ledger.remain - cost
      (∀ pick k, d.n 16 1 = 1 → hostRead (descView s id hv) (d.addr 24) 64 = some r → createCheck s d r = none → freeIndex s = some k →
        (takeSections (blockIndex d.ring r) (ctxOf s d.ring).slice d.ring pick (admitStep s d cost {}) [0, 1, 2]).isSome = true →
          Completes (.create id hv pick) s fun t => ends t (putLe 2 k) ∧ (∀ j, j ≠ k → indexOf t j = indexOf s j) ∧
            ∃ a b c key fr, indexOf t k = some { blockIndex d.ring r with rows := a, nbrs := b, book := c, key := key, frames := fr }) ∧
      (hostRead (descView s id hv) (d.addr 24) 32 = some r → ∀ x, indexOf s n = some x →
        (d.n 16 1 = 2 → writeCheck (descView s id hv) s d r = none → Completes (.indexWrite id hv) s fun t => ends t [] ∧
          indexOf t n = some { x with updates := (x.updates + 1) % 2 ^ 64 } ∧
          (plain x (leAt r 2 1) → some (runRead t d.ring (x.sectionFirst (leAt r 2 1)) (leAt r 4 4 * (x.section (leAt r 2 1)).2) (leAt r 8 4 * (x.section (leAt r 2 1)).2)) =
            hostRead (descView s id hv) (recBuffer r 16) (leAt r 8 4 * (x.section (leAt r 2 1)).2))) ∧
        (∀ list, d.n 16 1 = 3 → tombCheck (descView s id hv) s d r = none → hostRead (descView s id hv) (recBuffer r 16) (4 * leAt r 8 4) = some list →
          Completes (.tombstone id hv) s fun t => ends t [] ∧ indexOf t n = some { x with updates := (x.updates + 1) % 2 ^ 64 } ∧
            ∀ i, plain x 0 → i < leAt r 8 4 → leAt list (4 * i) 4 < x.capacity → (rowOf t x (leAt list (4 * i) 4)).dead = true) ∧
        (d.n 16 1 = 4 → opIndex s d r = none → Completes (.drop id hv) s fun t => ends t [] ∧ t.mem = s.mem ∧ t.tier = s.tier ∧
          indexOf t n = some { x with dropping := true }) ∧
        (d.n 16 1 = 5 → queryCheck s d r = none → Completes (.queryIndex id hv) s fun t => ends t [] ∧ t.coma = s.coma ∧ t.mem = s.mem ∧
          (ringFn s d.ring ∉ s.hostq.fnStopped → s.hostq.pf0D3 = false → d.ring ≠ noRing →
            Out.hostWrite (ringFn s d.ring) (recBuffer r 16) (indexBlock s n x) false ∈ t.out)) ∧
        (d.n 16 1 = 6 → entryCheck s d r = none → Completes (.setEntry id hv) s fun t => ends t [] ∧ t.mem = s.mem ∧
          indexOf t n = some { x with entry := entryRows r, updates := (x.updates + 1) % 2 ^ 64 }))) ∧
    ∀ k x, indexOf s k = some x → x.dropping = true → (s.coma.queries.any fun q => q.shards.isEmpty && q.index == k) = false →
      Completes (.indexDrained k) s fun t => indexOf t k = none ∧ (∀ j, j ≠ k → indexOf t j = indexOf s j) ∧
        (∀ p ∈ x.frames, tfind t.tier.frames p = none) ∧ (statusOf t Off.COMA_STATUS).hi.getLsbD 4 = true

/-! ### Osier -/

/-- 07 R176 to R181, R184, R187, R191: the 19 instructions of a unit. Each, issued, steps the program counter and changes what the table of R178 says and nothing else of
the node: a control or local-store instruction its own registers; an arithmetic one the register vd, lane by lane, from va and operand b; LD and ST 32 bytes of the
bank's DRAM, or 16 in FP8, and not what the page cache holds; NEXT the walker's streams; OUT the collector's parts; HALT ends the unit's work, or takes up the next of an ATTEND. An operand outside what the unit may touch halts it in ERROR. -/
def Obligations.OsierInstructions : Prop :=
  ∀ (s : State) (ui : Nat), alive s = true →
    let u := unitOf s ui
    let w := u.instr
    let only (t : State) (v : OUnit) : Prop := unitOf t ui = v ∧ ∀ j, j ≠ ui → unitOf t j = unitOf s j
    (∀ c op v, (c, op, v) ∈ [
        (Instr.oNop ui, 0x00, u.step),
        (.oYield ui, 0x01, if u.due then { u.step with st := .parked } else u.step),
        (.oLoop ui, 0x03, if 1 < (u.ctr (iC w)).toNat then { u with c := u.c.set (iC w) (u.ctr (iC w) - 1), pc := iImm w % 256 }
          else { u.step with c := u.c.set (iC w) 0 }),
        (.oSetc ui, 0x04, { u.step with c := u.c.set (iC w) (BitVec.ofNat 16 (iImm w)) }),
        (.oSeta ui, 0x05, { u.step with a := u.a.set (iC w) ((u.p.getD (iImm w % 16) 0).setWidth 28) }),
        (.oAdda ui, 0x06, { u.step with a := u.a.set (iC w) (u.a.getD (iC w) 0 + (BitVec.ofNat 16 (iImm w)).signExtend 28 * 32) }),
        (.oLdl ui, 0x0A, (u.setReg (iVd w) (tget 0 u.rows (w % 64))).step),
        (.oStl ui, 0x0B, { u.step with rows := tset 0 u.rows (w % 64) (u.reg (iVa w)) }),
        (.oMsk ui, 0x14, (u.setReg (iVd w) (maskLanes u w)).step)] →
      issues s ui op = true → Completes c s fun t => OnlyParts [.osier] s t ∧ only t v) ∧
    (∀ c op lane, (c, op, lane) ∈ [(Instr.oAdd ui, 0x10, addLanes), (.oMul ui, 0x11, mulLanes), (.oFold ui, 0x12, foldLanes),
        (.oAct ui, 0x13, actLanes), (.oImac ui, 0x18, imacLanes)] → issues s ui op = true →
      (∀ b u' s', operandB s ui u w = some (b, u', s') → Completes c s fun t => OnlyParts [.osier, .freeCtr] s t ∧
        only t (u'.setReg (iVd w) (ofLanes (lane u' w (lanes (u'.reg (iVa w))) b))).step) ∧
      (operandB s ui u w = none → u.run = none → Completes c s fun t => only t { u.save with st := .error, err := 1 } ∧ t.mem = s.mem ∧
        (statusOf t (Off.OSIER_STATUS (unitStack ui))).hi.getLsbD 1 = true)) ∧
    (∀ x u' s', issues s ui 0x08 = true → bankLanes s ui u (iAn w) (iMf w) (iFp w) = some (x, u', s') → Completes (.oLd ui) s fun t =>
      OnlyParts [.osier, .freeCtr] s t ∧ only t (u'.setReg (iVd w) (ofLanes x)).step) ∧
    (issues s ui 0x09 = true →
      let bs := stBytes w (u.reg (iVa w))
      ((List.range bs.length).all fun i => mayTouch s ui (u.addr (iAn w) + i) u) = true → Completes (.oSt ui) s fun t =>
        OnlyParts [.osier, .mem, .tier] s t ∧ only t (u.advance (iAn w) bs.length).step ∧ t.mem.cells = s.mem.cells ∧
          t.tier = { s.tier with accesses := t.tier.accesses } ∧
          (s.mem.behind.Pairwise (fun x y => x.1 < y.1) → bankRead t ui (u.addr (iAn w)) bs.length u = some bs ∧
            ∀ j, (∀ i, i < bs.length → j ≠ u.addr (iAn w) + i) → bankRead t ui j 1 u = bankRead s ui j 1 u)) ∧
    (issues s ui 0x07 = true →
      (u.attendKind = false → Completes (.oNext ui) s fun t => OnlyParts [.osier] s t ∧ only t u.step) ∧
      (u.attendKind = true → u.walk = [] → Completes (.oNext ui) s fun t => OnlyParts [.osier] s t ∧
        only t { u.step with c := u.c.set 0 0, k := [], vv := [], msk := 0 }) ∧
      ∀ x rest, u.attendKind = true → u.walk = x :: rest →
        (x.bad = none → Completes (.oNext ui) s fun t => OnlyParts [.osier] s t ∧ only t { u.step with k := x.k, vv := x.v, msk := x.msk, walk := rest }) ∧
        ∀ st pfn id v, x.bad = some (st, pfn) → u.run = some id → findStep s id = some v → Completes (.oNext ui) s fun t =>
          findStep t id = none ∧ ∃ r, t.fault.log.head? = some r ∧ r.source = 0x11 ∧ r.status = st ∧ r.detail = pfn) ∧
    (issues s ui 0x02 = true → u.jobs = [] → Completes (.oHalt ui) s fun t => OnlyParts [.osier] s t ∧ only t { u.save with st := .idle }) ∧
    (∀ j rest id v x ws, issues s ui 0x02 = true → u.jobs = j :: rest → u.run = some id → findStep s id = some v → j.2.2 = x :: ws → x.bad = none →
      Completes (.oHalt ui) s fun t => OnlyParts [.osier] s t ∧ ∃ rows, only t { u with
        jobs := rest, rows := rows, job := (j.1, j.2.1), pc := 0, st := .running, walk := ws, k := x.k, vv := x.v, msk := x.msk }) ∧
    (issues s ui 0x15 = true → Completes (.oOut ui) s fun t => OnlyParts [.osier] s t ∧
      (let head := u.job.2 * groupOfUnit s u + iLane w
       only t (if u.attendKind then { u.step with outs := u.outs ++ [(u.job.1, head, outPart u head (iSub w), u.reg (iVa w))] } else u.step)))

/-- 07 R169 to R172, R189 to R193: runs, refresh, and region commands. An OSIER_RUN that passes R189 is admitted and, with its regions and units free,
holds them and starts its units; it completes when they have halted. A refresh due parks or preempts, and its end resumes. UNSEAL opens an empty PROTECTED region; SEAL
waits for its run, is swept and ends PROTECTED; RELEASE scrubs the region to zeros and leaves it unowned; a command while one is busy does nothing. -/
def Obligations.OsierRunsAndRegions : Prop :=
  ∀ s : State,
    (alive s = true →
      (∀ id hv d r, findDesc s id = some d → findStep s id = none → d.kind = 7 → descReady s d = true → runRecord (descView s id hv) d = some r →
        (∀ e, runCheck s d r = some e → Completes (.osierRun id hv) s fun t => Posted s d e [] t ∧ findDesc t id = none ∧ t.osier = s.osier ∧
          t.ledger = s.ledger) ∧
        ∀ m cost, runCheck s d r = none → mayAdmit s id = true → portion s d (maskBits 8 (leAt r 4 1)).length true = some (m, cost) →
          (s.weft.steps.all fun o => o.kind != 7 || o.started) = true → ((recRegions r).all fun x => (regionSt s (regionKey x.1 x.2.1)).run.isNone) = true →
          ((runUnits { stackSet := leAt r 4 1, unitLo := leAt r 6 1, unitHi := leAt r 7 1 }).all fun ui => (unitOf s ui).run.isNone) = true →
            Completes (.osierRun id hv) s fun t => t.ledger.remain = s.ledger.remain - cost ∧ (∃ v, findStep t id = some v ∧ v.started = true) ∧
              (∀ x ∈ recRegions r, (regionSt t (regionKey x.1 x.2.1)).run = some id) ∧
              ∀ v, findStep t id = some v → ∀ ui ∈ runUnits v, (unitOf s ui).st ≠ .fenced → (unitOf t ui).st = .running ∧ (unitOf t ui).run = some id ∧
                (unitOf t ui).pc = 0 ∧ (unitOf t ui).p = (List.range 16).map fun i => BitVec.ofNat 32 (leAt r (144 + 4 * i) 4)) ∧
      (∀ id v, findStep s id = some v → v.kind = 7 → v.started = true → (∀ ui ∈ runUnits v, (unitOf s ui).run = some id →
        (unitOf s ui).st = .idle ∨ (unitOf s ui).st = .error) → Completes (.osierRunDone id) s fun t => findStep t id = none ∧
          (∀ ui, (unitOf t ui).run ≠ some id) ∧
          Posted s v.desc (if v.counts = [] then St.OK else St.OSIER_BOUNDS)
            (match v.counts with
              | [] => []
              | ui :: _ => putLe 1 (unitStack ui) ++ putLe 1 (unitIn ui)) t) ∧
      (∀ ui, ui < 2048 → (unitOf s ui).st ≠ .fenced → Completes (.refreshDue ui) s fun t =>
        OnlyParts [.osier] s t ∧ unitOf t ui = { unitOf s ui with due := true }) ∧
      (∀ ui, (unitOf s ui).st = .running → (unitOf s ui).due = true → Completes (.yieldWindowExpiry ui) s fun t =>
        unitOf t ui = { (unitOf s ui).save with st := .preempted } ∧ (statusOf t (Off.OSIER_STATUS (unitStack ui))).hi.getLsbD 0 = true) ∧
      (∀ ui, (unitOf s ui).st = .parked ∨ (unitOf s ui).st = .preempted → (unitOf s ui).due = true → Completes (.refreshDone ui) s fun t =>
        OnlyParts [.osier, .regs] s t ∧ unitOf t ui = { unitOf s ui with due := false, st := .running }) ∧
      (∀ i r, (regionSt s (regionKey i r)).sealPending = true → (regionSt s (regionKey i r)).run = none → Completes (.sealSweepStart i r) s fun t =>
        OnlyParts [.osier, .tier, .mem] s t ∧ regionSt t (regionKey i r) = { regionSt s (regionKey i r) with st := .sealing, sealPending := false } ∧
          (∀ e ∈ t.tier.dirty, regionOf e.1 ≠ some (regionKey i r)) ∧ ∀ e ∈ t.mem.behind, regionOf (e.1 / 128) ≠ some (regionKey i r)) ∧
      (∀ i r, (regionSt s (regionKey i r)).st = .sealing → ∀ ecc, Completes (.sealSweepDone i r ecc) s fun t =>
        regionSt t (regionKey i r) = { regionSt s (regionKey i r) with st := .prot, owner := none } ∧
          (tget 0 s.osier.busy i = r + 1 → (regionSt s (regionKey i r)).scrubbing = false → regionBusy t i = false) ∧
          (statusOf t (Off.OSIER_STATUS i)).hi.getLsbD 2 = true ∧ t.mem.cells = s.mem.cells) ∧
      ∀ i r, 24 ≤ i → i ≤ 31 → r < 24576 → let g := regionSt s (regionKey i r)
        g.scrubbing = true → g.st = .compute → g.owner.isSome = true → g.sealPending = false → g.run = none → Completes (.releaseScrubDone i r) s fun t =>
          OnlyParts [.osier, .mem, .tier] s t ∧
            regionSt t (regionKey i r) = { g with owner := none, scrubbing := false, writes := g.writes + 1, returned := false,
                                                  gen := if g.returned then (g.gen + 1) % 2 ^ 48 else g.gen } ∧
            (tget 0 s.osier.busy i = r + 1 → regionBusy t i = false) ∧
            ∀ a, memByte t.mem.cells a = if frameAddr (regionBase i r) ≤ a ∧ a < frameAddr (regionBase i r) + 2097152 then 0 else memByte s.mem.cells a) ∧
    (∀ m i c op, 24 ≤ i → i ≤ 31 → served s m (Off.OSIER_REGION_CMD i) = true → privileged s m = true → regionSel s m i < 24576 →
      let k := regionKey i (regionSel s m i)
      let g := regionSt s k
      let result (t : State) := tget 0 t.osier.result i
      (regionBusy s i = true → op ∈ [Instr.unsealPool m i, .unsealOwned m i c, .sealRegion m i, .release m i] → Completes op s fun t =>
        t.osier = s.osier) ∧
      (regionBusy s i = false →
        (g.st = .prot → regionEmpty s i (regionSel s m i) = true → stackMoves s i = false → Completes (.unsealPool m i) s fun t =>
          result t = 0 ∧ regionSt t k = { g with st := .compute, owner := none }) ∧
        (g.st = .prot → regionEmpty s i (regionSel s m i) = true → stackMoves s i = false → c < 4096 → (ctxOf s c).st = .active →
          (sliceOf s (ctxOf s c).slice).stackSet.getLsbD i = true → Completes (.unsealOwned m i c) s fun t =>
            result t = 0 ∧ regionSt t k = { g with st := .compute, owner := some c }) ∧
        (g.st = .compute → kvFrames s i (regionSel s m i) = false → g.scrubbing = false → Completes (.sealRegion m i) s fun t =>
          result t = 0 ∧ regionSt t k = { g with sealPending := true } ∧ tget 0 t.osier.busy i = regionSel s m i + 1) ∧
        (g.st = .compute → g.owner.isSome = true → g.run = none → g.scrubbing = false → Completes (.release m i) s fun t =>
          result t = 0 ∧ regionSt t k = { g with scrubbing := true } ∧ tget 0 t.osier.busy i = regionSel s m i + 1) ∧
        (g.st ≠ .prot → op ∈ [Instr.unsealPool m i, .unsealOwned m i c] → Completes op s fun t => result t = 2 ∧ regionSt t k = g))) ∧
    ∀ m ui entry, ui < 2048 → served s m (Off.OSIER_U_CMD (unitStack ui) (unitIn ui)) = true → privileged s m = true →
      ((unitOf s ui).run = none → ((unitOf s ui).st = .idle ∨ (unitOf s ui).st = .error) → Completes (.unitStart m ui entry) s fun t =>
        unitOf t ui = { unitOf s ui with st := .running, pc := entry % 256, err := 0 } ∧ OnlyParts [.regs, .hostq, .out, .sb, .osier] s t) ∧
      ((unitOf s ui).st = .running → Completes (.unitHalt m ui) s fun t =>
        unitOf t ui = { (unitOf s ui).save with st := .idle, jobs := [] } ∧ OnlyParts [.regs, .hostq, .out, .sb, .osier] s t)

/-! ### Ports and sessions -/

/-- 11 R269 to R273, R288: a port's states. Enabled it trains from DOWN, disabled or down it leaves UP; training runs DETECT, EQUALISE, LOCK, PEER, AUTH, and a lane set
that will not do or a timeout ends it DOWN with one more failure; a retrain by command, by FEC or by replay goes back to DETECT and holds the frames not
acknowledged. A flit with a bad CRC is answered with a nak, in an idle flit where the port has no frame to start; an acknowledgement frees the flits up to it and its credits are added; a data flit in sequence
advances the receive sequence, and its acknowledgement is due or sent. -/
def Obligations.PortStates : Prop :=
  ∀ (s : State) (p : Nat), p < 24 →
    let port := portOf s p
    let st (t : State) := (portOf t p).st
    let event (t : State) (i : Nat) := (statusOf t (Off.PORT_STATUS p)).hi.getLsbD i = true
    let held (t : State) := (portOf t p).held = port.held ++ port.replay.filterMap (fun f => f.frame)
    (∀ m data, served s m (Off.PORT_CTRL p) = true → privileged s m = true →
      (data % 2 = 1 → port.st = .down → numbered s = true → port.fenced = false → inSafe s = false →
        Completes (.portEnable m p data) s fun t => portOf t p = { port with st := .detect }) ∧
      (data % 2 = 0 → portUp port = true → Completes (.portEnable m p data) s fun t => st t = .down ∧ event t 0 ∧ held t ∧ (portOf t p).lanes = 0) ∧
      (portUp port = true → Completes (.portRetrain m p) s fun t => st t = .detect ∧ event t 0 ∧ event t 1 ∧ held t ∧
        (portOf t p).retrain = some 2)) ∧
    (alive s = true →
      (st s = .detect → Completes (.detect p) s fun t => OnlyParts [.ports] s t ∧ portOf t p = { port with st := .equalise }) ∧
      (st s = .equalise → ∀ lanes,
        (∀ l, usableLanes (rbit s (Off.PORT_CTRL p) 1) lanes = some l → Completes (.equalise p lanes) s fun t =>
          OnlyParts [.ports] s t ∧ portOf t p = { port with st := .lock, lanes := l }) ∧
        (usableLanes (rbit s (Off.PORT_CTRL p) 1) lanes = none → Completes (.equalise p lanes) s fun t =>
          st t = .down ∧ (portOf t p).fails = port.fails + 1)) ∧
      (st s = .lock → Completes (.lock p) s fun t => OnlyParts [.ports, .out, .freeCtr] s t ∧ portOf t p = { port with st := .peer } ∧
        ∃ b, t.out = s.out ++ [.flit p b]) ∧
      (st s = .peer → s.sec.rng = .ok → ∀ node kind credits, Completes (.peerExchange p node kind credits) s fun t =>
        st t = .auth ∧ (portOf t p).peerNode = node % 2 ^ 14 ∧ (portOf t p).txCredits = (List.range 8).map (fun c => max (credits.getD c 0) (if c = 0 then 4 else 0)) ∧
          (portOf t p).helloSent = true ∧ t.rngCtr = s.rngCtr + 2) ∧
      (inTraining port = true → Completes (.trainingTimeout p) s fun t => st t = .down ∧ (portOf t p).fails = port.fails + 1) ∧
      (mayTrain s p = true → Completes (.portRetry p) s fun t => OnlyParts [.ports] s t ∧ portOf t p = { port with st := .detect }) ∧
      (portUp port = true →
        (∀ n, rf s (Off.PORT_FEC_LIMIT p) 0 16 ≠ 0 → rf s (Off.PORT_FEC_LIMIT p) 0 16 < n → Completes (.fecLimitExceeded p n) s fun t =>
          st t = .detect ∧ event t 1 ∧ held t ∧ (portOf t p).retrain = some 1) ∧
        (port.replay.any (fun f => 8 ≤ f.resent) = true ∨ replayFull s p = true → Completes (.replayTimeout p) s fun t =>
          st t = .detect ∧ event t 1 ∧ held t ∧ (portOf t p).retrain = some 0) ∧
        (Completes (.portDown p) s fun t => st t = .down ∧ event t 0 ∧ (portOf t p).replay = []) ∧
        ∀ flit : Bytes, flit.length = 256 →
          (∀ n, 0 < n → leAt flit 248 8 ≠ crc64 (flit.take 248) → Completes (.flitReceive p flit n) s fun t =>
            (portOf t p).rxNak = true ∧ cnt t (Off.PORT_FEC_CORR_CNT p) = min 0xFFFFFFFF (cnt s (Off.PORT_FEC_CORR_CNT p) + n)) ∧
          (leAt flit 248 8 ≠ crc64 (flit.take 248) → Completes (.flitReceive p flit 0) s fun t =>
            OnlyParts [.ports, .out] s t ∧ (portOf t p).rxNak = true ∧ (portOf t p).rxSeq = port.rxSeq ∧
              let waits := (List.range 8).any fun c => (headReady (setPort s p { port with rxNak := true, ackDue := 2 }) p c).isSome
              (waits = true → t.out = s.out ∧ (portOf t p).ackDue = 2) ∧
              (waits = false → (portOf t p).ackDue = 0 ∧ ∃ ctc ccnt, t.out = s.out ++
                [.flit p (flitBytes (flitHdr port.txSeq (port.rxSeq + 4095) 2 ctc ccnt 1) [])])) ∧
          (leAt flit 248 8 = crc64 (flit.take 248) →
            let h := leAt flit 0 8
            (∀ i, fld h 37 3 ≠ 0 → fld h 24 2 = 1 → port.replay.findIdx? (fun f => f.seq == fld h 12 12) = some i →
              Completes (.flitReceive p flit 0) s fun t => (portOf t p).replay = port.replay.drop (i + 1) ∧
                (portOf t p).txCredits = port.txCredits.zipIdx.map fun x => if x.2 = fld h 26 3 then x.1 + fld h 29 8 else x.1) ∧
            (fld h 37 3 = 0 → fld h 24 2 = 0 → fld h 0 12 = port.rxSeq → Completes (.flitReceive p flit 0) s fun t =>
              (portOf t p).rxSeq = (port.rxSeq + 1) % 4096 ∧ (portOf t p).rxNak = false ∧
                ((portOf t p).ackDue = 1 ∨ ∃ b, t.out.getLast? = some (.flit p b))))))

/-- 15 R369 to R373: link keys and sessions. A good AUTH_HELLO is answered with a proof, and a good AUTH_PROOF brings the port UP with session 0 open, or, on a port that
is UP, advances its epoch; a bad one ends AUTH. A peer's open for a tenant of the port is accepted, any other refused; acceptance opens, refusal and close remove;
a session whose counter has run to 2^46 is replaced by a new one. -/
def Obligations.LinkSessions : Prop :=
  ∀ (s : State) (p : Nat), alive s = true → p < 24 →
    let port := portOf s p
    let ses (t : State) (n : Nat) := tfind (portOf t p).sessions n
    let queued (t : State) (op : Nat) := (classFrames (eport t p) 0).getLast?.map (·.frame.op) = some op
    let event (t : State) (i : Nat) := (statusOf t Off.SEC_STATUS).hi.getLsbD i = true
    (numbered s = true → ∀ body, (port.st = .auth → helloOk s p body = false → Completes (.authHello p body) s fun t => (portOf t p).st = .down ∧ event t 1) ∧
      (port.st = .auth ∨ portUp port = true ∧ s.sec.rng = .ok → helloOk s p body = true → Completes (.authHello p body) s fun t =>
        (portOf t p).peerHello = fit 948 body ∧ (portOf t p).st = port.st ∧ queued t 0xF3 ∧ OnlyParts [.ports, .egr, .rngCtr] s t)) ∧
    (numbered s = true → ∀ body, port.peerHello ≠ [] →
      let good := pssVerify (helloModulus port.peerHello) (proofMessage s p (helloBody s port.draw) port.peerHello true) (body.take 384)
      (port.st = .auth → Completes (.authProof p body) s fun t =>
        (good = false → (portOf t p).st = .down ∧ event t 1) ∧
        (good = true → (portOf t p).st = (if port.lanes = 0xFF then .up else .degraded) ∧ (portOf t p).epoch = 0 ∧ (portOf t p).fails = 0 ∧
          ∃ k, ses t 0 = some k ∧ k.opened = true ∧ k.ctx = nodeSlot)) ∧
      (portUp port = true → Completes (.authProof p body) s fun t => (portOf t p).st = port.st ∧
        (good = false → event t 1 ∧ (portOf t p).sessions = port.sessions ∧ (portOf t p).epoch = port.epoch) ∧
        (good = true → OnlyParts [.ports] s t ∧ (portOf t p).epoch = (port.epoch + 1) % 2 ^ 16 ∧
          ∃ k, ses t 0 = some k ∧ k.opened = true ∧ k.oldKey = some (tget {} port.sessions 0).rxKey))) ∧
    (portUp port = true →
      (numbered s = true → ∀ n tenant gen, n ≠ 0 → ses s n = none →
        (tenantContext s p tenant = none → Completes (.sessionOpen p n tenant gen) s fun t =>
          (portOf t p).sessions = port.sessions ∧ event t 6 ∧ queued t 0xF6) ∧
        (∀ c, tenantContext s p tenant = some c → (∀ e ∈ port.sessions, e.1 ≠ 0 → e.2.ctx ≠ c) → port.sessions.length + rekeyReserve < sessionLimit →
          Completes (.sessionOpen p n tenant gen) s fun t => queued t 0xF5 ∧ OnlyParts [.ports, .egr] s t ∧
            ∃ k, ses t n = some k ∧ k.ctx = c ∧ k.tenant = tenant ∧ k.opened = true ∧ k.txCtr = 0 ∧ k.rxCtr = 0)) ∧
      (∀ n k, ses s n = some k → k.opened = false → (∀ e ∈ port.sessions, e.2.replaces ≠ some n) → Completes (.sessionAccept p n) s fun t =>
        OnlyParts [.ports, .egr] s t ∧ (∃ x, ses t n = some x ∧ x.opened = true ∧ x.ctx = k.ctx ∧ x.txKey = k.txKey ∧ x.rxKey = k.rxKey) ∧
          ((∀ e ∈ port.sessions, e.2.replaces = none) → t.egr = s.egr ∧ ∀ j, j ≠ n → ses t j = ses s j)) ∧
      (∀ n k, ses s n = some k → k.opened = true → 2 ^ 46 ≤ k.txCtr →
        (n = 0 → port.helloSent = false → s.sec.rng = .ok → Completes (.sessionRekey p n) s fun t =>
          (portOf t p).helloSent = true ∧ queued t 0xF2 ∧ (portOf t p).sessions = port.sessions) ∧
        (n ≠ 0 → (∀ e ∈ port.sessions, e.2.replaces ≠ some n) → port.sessions.length < 4096 → Completes (.sessionRekey p n) s fun t =>
          queued t 0xF4 ∧ ∃ j, ses s j = none ∧ ∃ x, ses t j = some x ∧ x.replaces = some n ∧ x.ctx = k.ctx ∧ x.opened = false))) ∧
    (∀ n k cause, cause < 2 ^ 16 → ses s n = some k → k.opened = false → Completes (.sessionRefuse p n cause) s fun t =>
      ses t n = none ∧ (∀ j, j ≠ n → ses t j = ses s j) ∧ event t 6) ∧
    ∀ n, n ≠ 0 → Completes (.sessionClose p n) s fun t => OnlyParts [.ports] s t ∧ ses t n = none ∧
      ∀ j k, j ≠ n → ses s j = some k → ∃ x, ses t j = some x ∧ x.txKey = k.txKey ∧ x.rxKey = k.rxKey ∧ x.opened = k.opened

/-! ### Loads, stores, atomics -/

/-- 11 R277, R281 to R289: a request that passes its checks is done and answered: a load changes no memory, a store leaves its bytes, an atomic the word of its
operation and answers the old one; no other byte of another frame changes, nor of its own where the owner wrote it last (in a COMPUTE region a line that a unit has
written behind the page cache may show when it is filled, 03 R70). The request is in flight in its region until its response has left. While a run or a sweep holds the region
the request waits at the controller (07 R168, R175) and is carried out when it is resumed. A request that fails a check, finds
the node fenced or is not let by the policer has no effect but its answer, and a read that ECC cannot correct answers DATA_POISON. A response ends its request, or is dropped
when the epoch of the unit that asked has moved on (16 R409); one that finds none is counted late; a timeout poisons,
quiesces the context and holds the tag until a second one. The command registers issue a request, or refuse it locally; a release ends the quiesce of a context that has
no request outstanding. -/
def Obligations.Fabric : Prop :=
  ∀ s : State,
    let event (t : State) (i : Nat) := (statusOf t Off.FAB_STATUS).hi.getLsbD i = true
    (alive s = true → ∀ p c f,
      let k := keyIndex f.key
      let off := frameOffset (regionEnt s k) f.addr
      let resumed := s.osier.resuming
      let atomics (ecc : MemObs) := [(Instr.fetchAdd p f ecc, 0x10), (.swap p f ecc, 0x11), (.cmpSwap p f ecc, 0x12), (.fetchMin p f ecc, 0x13),
        (.fetchMax p f ecc, 0x14)]
      let reads (ecc : MemObs) := (Instr.load p f ecc, 0x01, 0x81) :: (atomics ecc).map fun x => (x.1, x.2, 0x90)
      let reqs (ecc : MemObs) := (Instr.store p f, 0x02, 0x82) :: reads ecc
      let lost (ecc : MemObs) := (lostFrame s [off / 16384] ecc).isSome
      let answered (t : State) (resp st : Nat) (body : Bytes) (region : Option Nat) : Prop :=
        ∀ q n, flowPort s c f.src 2 = some q → sessionOf (portOf s q) c = some n →
          ∃ g, classFrames (eport t q) 2 = classFrames (eport s q) 2 ++ [g] ∧ g.ctx = c ∧ g.region = region ∧ g.frame.op = resp ∧ g.frame.dst = f.src ∧
            g.frame.rtag = f.rtag ∧ g.frame.combine = f.combine ∧ g.frame.key = st ∧ g.frame.body = body
      let inFlight (t : State) : Prop := t.fab.reqs = s.fab.reqs ∧ ∀ j, regionEnt t j = if j = k then
        { regionEnt s k with inflight := (regionEnt s k).inflight + b2n (!resumed) - b2n (flowPort s c f.src 2).isNone } else regionEnt s j
      let others (t : State) (n : Nat) : Prop := ∀ a, a / 16384 ≠ off / 16384 ∨ tget {} s.mem.tags (off / 16384) = frameTag s c (off / 16384) ∧ (a < off ∨ off + n ≤ a) →
        memByte t.mem.cells a = memByte s.mem.cells a ∨ inCompute s (off / 16384) = true ∧ off / 128 ≤ a / 128 ∧ a / 128 ≤ (off + n - 1) / 128 ∧
          ∃ line, tfind s.mem.behind (a / 128) = some line ∧ memByte t.mem.cells a = line.getD (a % 128) 0
      let admitted : Prop := resumed = false ∧ frameCtx s p f = some c ∧ s.fault.st ≠ .fenced ∧ (polOn s c = false ∨ frameLen f * 2 ^ 24 ≤ polTokens s c)
      let passes (op : Nat) : Prop := resumed = true ∧ c = (regionEnt s k).ctx ∧ alignOk { f with op := op } off = true ∨
        admitted ∧ targetCheck s c { f with op := op } = none ∧ mustWait s (regionsOf [off / 16384]) = false
      (∀ ecc, lost ecc = false → passes 0x01 → Completes (.load p f ecc) s fun t =>
        t.mem.cells = s.mem.cells ∧ t.mem.tags = s.mem.tags ∧ t.tier = s.tier ∧ inFlight t ∧ answered t 0x81 0 (spaceRead s c off f.size) (some k)) ∧
      (passes 0x02 → Completes (.store p f) s fun t =>
        spaceRead t c off f.size = fit f.size f.body ∧ others t f.size ∧ inFlight t ∧ answered t 0x82 0 [] (some k)) ∧
      (∀ ecc i op, lost ecc = false → (i, op) ∈ atomics ecc → passes op → Completes i s fun t =>
        let old := BitVec.ofNat 64 (le (spaceRead s c off 8))
        let a := BitVec.ofNat 64 (leAt f.body 0 8)
        let w := if op = 0x10 then old + a else if op = 0x11 then a else if op = 0x12 then (if old = a then BitVec.ofNat 64 (leAt f.body 8 8) else old)
          else if op = 0x13 then (if if frameFlag f 2 then a.toInt < old.toInt else a.toNat < old.toNat then a else old)
          else if if frameFlag f 2 then old.toInt < a.toInt else old.toNat < a.toNat then a else old
        spaceRead t c off 8 = putLe 8 w.toNat ∧ others t 8 ∧ inFlight t ∧ answered t 0x90 0 (putLe 8 old.toNat) (some k)) ∧
      (∀ i op resp, (i, op, resp) ∈ reads [(off / 16384, true)] → passes op → lost [(off / 16384, true)] = true →
        (tget [] s.mem.lostAt (stackOf (off / 16384))).length < 15 → Completes i s fun t =>
          t.mem.cells = s.mem.cells ∧ t.mem.tags = s.mem.tags ∧ t.tier = s.tier ∧ inFlight t ∧ answered t resp St.DATA_POISON [] (some k)) ∧
      ∀ ecc i op resp, (i, op, resp) ∈ reqs ecc →
        (admitted → targetCheck s c { f with op := op } = none → mustWait s (regionsOf [off / 16384]) = true → Completes i s fun t =>
          t.mem = s.mem ∧ t.tier = s.tier ∧ t.osier = { s.osier with waits := s.osier.waits ++ [(regionsOf [off / 16384], i)] } ∧
            t.egr.ports = s.egr.ports ∧ (regionEnt t k).inflight = (regionEnt s k).inflight + 1) ∧
        (∀ st, admitted → targetCheck s c { f with op := op } = some st → Completes i s fun t =>
          t.mem = s.mem ∧ t.tier = s.tier ∧ t.fab = s.fab ∧ answered t resp st [] none ∧ (st = St.KEY_INVALID → event t 3)) ∧
        (resumed = false → frameCtx s p f = some c →
          (s.fault.st = .fenced → Completes i s fun t => t.mem = s.mem ∧ t.tier = s.tier ∧ t.fab = s.fab ∧ answered t resp St.TARGET_FENCED [] none) ∧
          (s.fault.st ≠ .fenced → polOn s c = true → polTokens s c < frameLen f * 2 ^ 24 → Completes i s fun t =>
            t.mem = s.mem ∧ t.tier = s.tier ∧ t.fab = s.fab ∧ answered t resp St.POLICED [] none ∧
              (policerOf t c).drops = min 0xFFFFFFFF ((policerOf s c).drops + 1)))) ∧
    (alive s = true →
      (∀ f i op, (i, op) ∈ [(Instr.loadResp f, 0x01), (.storeResp f, 0x02), (.atomicResp f, 0x10), (.atomicResp f, 0x11), (.atomicResp f, 0x12),
          (.atomicResp f, 0x13), (.atomicResp f, 0x14)] →
        (∀ r, tfind s.fab.reqs f.rtag = some r → r.held = false → r.op = op → (freeTag s).isSome = true →
          let dropped := r.unit.any fun u => epochOf s u.1 u.2 != r.epoch
          (dropped = true → Completes i s fun t => OnlyParts [.fab, .regs] s t ∧
            tfind t.fab.reqs f.rtag = none ∧ t.fab.busy = s.fab.busy ∧
            cnt t (ckey Off.FAULT_CNT_LO 5 0) = (cnt s (ckey Off.FAULT_CNT_LO 5 0) + 1) % 2 ^ 64) ∧
          (dropped = false → f.key % 2 ^ 16 ≠ St.TARGET_FENCED → Completes i s fun t => OnlyParts [.fab, .weft] s t ∧ tfind t.fab.reqs f.rtag = none ∧
            (∀ j, j ≠ f.rtag → tfind t.fab.reqs j = tfind s.fab.reqs j) ∧
            (r.src = .fabCmd → t.weft = s.weft ∧ t.fab.busy = false ∧ t.fab.status = f.key % 2 ^ 16 ∧ t.fab.combined = frameFlag f 1 ∧
              t.fab.rdata = if f.key % 2 ^ 16 = 0 ∧ op ≠ 2 then BitVec.ofNat 64 (leAt f.body 0 8) else s.fab.rdata) ∧
            ∀ id v, r.src = .rim id → findStep s id = some v → t.fab.busy = s.fab.busy ∧ t.fab.status = s.fab.status ∧
              ∃ w, findStep t id = some w ∧ w.status = if f.key % 2 ^ 16 = 0 ∨ v.status ≠ 0 then v.status else f.key % 2 ^ 16) ∧
          (dropped = false → f.key % 2 ^ 16 = St.TARGET_FENCED → r.src = .fabCmd → Completes i s fun t => tfind t.fab.reqs f.rtag = none ∧
            (ctxOf t r.ctx).quiesced = true ∧ t.fab.busy = false ∧ t.fab.status = St.TARGET_FENCED ∧ t.fab.deadNode = r.target ∧ event t 0)) ∧
        ((∀ r, tfind s.fab.reqs f.rtag = some r → r.held = true) → Completes i s fun t =>
          t.fab.reqs = s.fab.reqs ∧ t.fab.late = min 0xFFFFFFFF (s.fab.late + 1) ∧ event t 1)) ∧
      ∀ tag r, tfind s.fab.reqs tag = some r →
        (r.held = false → r.src = .fabCmd → Completes (.requestTimeout tag) s fun t =>
          tfind t.fab.reqs tag = some { r with held := true } ∧ (ctxOf t r.ctx).quiesced = true ∧ t.fab.deadNode = r.target ∧
            t.fab.deadCtx = r.ctx ∧ event t 0 ∧ t.fab.busy = false ∧ t.fab.status = St.TARGET_TIMEOUT ∧
            (r.op = 2 → t.fab.poison = s.fab.poison ∧ t.fab.rdata = s.fab.rdata) ∧
            (r.op ≠ 2 → t.fab.poison = true ∧ t.fab.rdata = BitVec.allOnes 64) ∧
            (t.fault.log.head?.map fun e => (e.source, e.ctx, e.peer)) = some (0x14, r.ctx, r.target)) ∧
        (r.held = true → (freeTag s).isSome = true → Completes (.rtagHoldExpiry tag) s fun t => OnlyParts [.fab] s t ∧
          tfind t.fab.reqs tag = none ∧ ∀ j, j ≠ tag → tfind t.fab.reqs j = tfind s.fab.reqs j)) ∧
    ∀ m,
      (∀ c k sg, c < 4096 → served s m Off.FAB_CMD = true → privileged s m = true →
        let a := rpair s Off.FAB_CMD_ADDR_LO
        let data := putLe 8 (rpair s Off.FAB_CMD_DATA_LO)
        ∀ i op body, (i, op, body) ∈ [(Instr.fabCmdLoad m c k, 0x01, []), (.fabCmdStore m c k, 0x02, data), (.fabCmdFetchAdd m c k, 0x10, data),
            (.fabCmdSwap m c k, 0x11, data), (.fabCmdCmpSwap m c k, 0x12, putLe 8 (rpair s Off.FAB_CMD_CMP_LO) ++ data),
            (.fabCmdFetchMin m c sg k, 0x13, data), (.fabCmdFetchMax m c sg k, 0x14, data)] →
          (s.fab.busy = true → Completes i s fun t => t.fab = s.fab ∧ t.egr = s.egr) ∧
          (s.fab.busy = false →
            (k = true → combines op = false → Completes i s fun t => t.egr = s.egr ∧ t.fab.reqs = s.fab.reqs ∧ t.fab.busy = false ∧
              t.fab.status = St.COMBINE_INVALID) ∧
            ((k = true → combines op = true) →
              ((ctxOf s c).quiesced = true → Completes i s fun t => t.egr = s.egr ∧ t.fab.reqs = s.fab.reqs ∧ t.fab.busy = false ∧
                t.fab.status = St.CONTEXT_QUIESCED) ∧
              ((ctxOf s c).quiesced = false → ∀ tag, freeTag s = some tag →
                (flowPort s c (fld a 48 14) 2 = none → Completes i s fun t => t.egr = s.egr ∧ t.fab.reqs = s.fab.reqs ∧ t.fab.busy = false ∧
                  t.fab.status = St.NO_ROUTE ∧ event t 2) ∧
                ∀ q n, flowPort s c (fld a 48 14) 2 = some q → sessionOf (portOf s q) c = some n → Completes i s fun t =>
                  OnlyParts [.regs, .egr, .fab] s t ∧ t.fab.busy = true ∧ t.fab.poison = false ∧ t.fab.combined = false ∧
                    tfind t.fab.reqs tag = some { ctx := c, target := fld a 48 14, addr := a, op := op } ∧
                    (∀ j, j ≠ tag → tfind t.fab.reqs j = tfind s.fab.reqs j) ∧
                    classFrames (eport t q) 2 = classFrames (eport s q) 2 ++ [{ ctx := c, frame :=
                      { op := op, flags := b2n k + 4 * b2n (sg && decide (0x13 ≤ op)), tc := 2, dst := fld a 48 14, src := nodeNum s, session := n,
                        rtag := tag, key := regWord s Off.FAB_CMD_KEY, size := 8, addr := a, body := body } }])))) ∧
      (served s m Off.FAB_QUIESCE = true → privileged s m = true →
        let c := selNum s m Off.FAB_QUIESCE_SEL
        (ctxOf s c).quiesced = true →
          (outstanding s (fun r => r.ctx == c) = 0 → Completes (.quiesceRelease m) s fun t => (ctxOf t c).quiesced = false ∧
            ∀ j, j ≠ c → (ctxOf t j).quiesced = (ctxOf s j).quiesced) ∧
          (0 < outstanding s (fun r => r.ctx == c) → Completes (.quiesceRelease m) s fun t => OnlyParts [.regs] s t))

/-! ### Page transfer queues -/

/-- 12 R290, R300 to R303, R307, R311: queue pairs and regions through their registers. CREATE makes a FREE queue pair READY with its context, peer, limits and window
from the registers and every sequence number 0; RESET takes an ERROR one back to READY; DESTROY drains a READY one and frees an ERROR one, and a drained one
becomes FREE. REGISTER takes the lowest FREE index at the next generation; REVOKE moves a VALID entry to REVOKING, and it is FREE when nothing is in flight.
An entry and a work request are written into the table and the queue that the registers place in board frames. QPE_POST puts its work request at the tail of the queue,
or leaves it waiting while all 256 entries are taken. Each answers its own status where it does not apply. -/
def Obligations.QueuePairs : Prop :=
  ∀ s : State,
    let written (t : State) (a : Nat) (bs : Bytes) : Prop := isBoard (a / 16384) = true → pfnOk s (a / 16384) = true → spaceRead t nodeSlot a bs.length = bs
    let entry (t : State) (i : Nat) : Prop := written t (rf s Off.QPE_REGION_BASE 0 32 * 16384 + 32 * i) (regionEnt t i).bytes
    (∀ m, served s m Off.QPE_QP_CMD = true → privileged s m = true →
      let n := selNum s m Off.QPE_QP_SEL
      let others (t : State) : Prop := ∀ j, j ≠ n → qpOf t j = qpOf s j
      (qpnOk s n = false → ∀ i ∈ [Instr.qpCreate m, .qpReset m, .qpDestroy m], Completes i s fun t =>
        t.qpe.qps = s.qpe.qps ∧ t.qpe.cmdStatus = St.QP_INVALID) ∧
      (qpnOk s n = true →
        ((qpOf s n).st = .free → Completes (.qpCreate m) s fun t => qpOf t n = createQp s ∧ (qpOf t n).st = .ready ∧ t.qpe.cmdStatus = 0 ∧
          (∀ j, j ≠ n → qpOf t j = { qpOf s j with saved := (qpOf t j).saved }) ∧ (qpOf t n).sq = [] ∧ (qpOf t n).sendPsn = 0 ∧ (qpOf t n).recvPsn = 0 ∧ (qpOf t n).ctx = rf s Off.QPE_QP_OWNER 0 12 ∧
          (qpOf t n).peer = rf s Off.QPE_QP_PEER 0 14 ∧ (qpOf t n).peerQpn = rf s Off.QPE_QP_PEER_QPN 0 24 ∧
          3 ≤ (qpOf t n).tc ∧ 4096 ≤ (qpOf t n).window ∧ (qpOf t n).window ≤ (qpOf t n).winMax ∧ (qpOf t n).winMax ≤ 2 ^ 26) ∧
        ((qpOf s n).st ≠ .free → Completes (.qpCreate m) s fun t => t.qpe.qps = s.qpe.qps ∧ t.qpe.cmdStatus = St.QP_STATE) ∧
        ((qpOf s n).st = .error → Completes (.qpReset m) s fun t => qpOf t n = resetQp (qpOf s n) ∧ (qpOf t n).st = .ready ∧
          (qpOf t n).sendPsn = 0 ∧ (qpOf t n).recvPsn = 0 ∧ (qpOf t n).window = (qpOf s n).window ∧ others t ∧ t.qpe.cmdStatus = 0 ∧
          OnlyParts [.regs, .qpe] s t) ∧
        ((qpOf s n).st ≠ .error → Completes (.qpReset m) s fun t => t.qpe.qps = s.qpe.qps ∧ t.qpe.cmdStatus = St.QP_STATE) ∧
        ((qpOf s n).st = .ready → Completes (.qpDestroy m) s fun t => qpOf t n = { qpOf s n with st := .draining } ∧ others t ∧
          t.qpe.cmdStatus = 0 ∧ OnlyParts [.regs, .qpe] s t) ∧
        ((qpOf s n).st = .error → Completes (.qpDestroy m) s fun t => qpOf t n = {} ∧ n ∉ t.qpe.cache ∧ t.qpe.cmdStatus = 0 ∧
          ∀ x ∈ t.qpe.hold, pktQpn x.frame ≠ n) ∧
        ((qpOf s n).st = .free ∨ (qpOf s n).st = .draining → Completes (.qpDestroy m) s fun t =>
          t.qpe.qps = s.qpe.qps ∧ t.qpe.cmdStatus = St.QP_STATE))) ∧
    (∀ m, served s m Off.QPE_REG_CMD = true → privileged s m = true →
      let base := regPair48 s Off.QPE_REG_BASE_LO
      let len := regPair48 s Off.QPE_REG_LEN_LO
      let freeOne (i : Nat) : Prop := i < regionCount s ∧ (regionEnt s i).st = .free
      ((∀ i, ¬ freeOne i) → Completes (.register m) s fun t => t.fab = s.fab ∧ t.qpe.regStatus = St.REGION_FULL) ∧
      (∀ i, freeOne i → (∀ j, j < i → ¬ freeOne j) →
        ((len = 0 ∨ ∃ q, base / 16384 ≤ q ∧ q ≤ (base + len - 1) / 16384 ∧ pfnOk s q = false) → Completes (.register m) s fun t =>
          t.fab = s.fab ∧ t.qpe.regStatus = St.PFN_INVALID) ∧
        (len ≠ 0 → (∀ q, base / 16384 ≤ q → q ≤ (base + len - 1) / 16384 → pfnOk s q = true) → Completes (.register m) s fun t =>
          OnlyParts [.regs, .fab, .qpe, .mem, .tier] s t ∧ t.qpe.regStatus = 0 ∧ entry t i ∧ (∀ j, j ≠ i → regionEnt t j = regionEnt s j) ∧
            (let gen := ((regionEnt s i).gen + 1) % 4096
             regionEnt t i = { base := base, len := len, ctx := rf s Off.QPE_REG_OWNER 0 12, pd := rf s Off.QPE_REG_OWNER 16 12, gen := gen, st := .valid,
                               rights := rf s Off.QPE_REG_OWNER 28 3 } ∧
              t.qpe.newKey = gen * 2 ^ 20 + i))) ∧
      (let key := regWord s Off.QPE_REG_KEY
       let e := regionEnt s (keyIndex key)
       let good := keyIndex key < regionCount s ∧ e.gen = keyGen key ∧ e.st = .valid
       (good → Completes (.revoke m) s fun t => OnlyParts [.regs, .fab, .qpe, .mem, .tier] s t ∧ t.qpe.regStatus = 0 ∧ entry t (keyIndex key) ∧
          regionEnt t (keyIndex key) = { e with st := .revoking } ∧ ∀ j, j ≠ keyIndex key → regionEnt t j = regionEnt s j) ∧
       (¬ good → Completes (.revoke m) s fun t => t.fab = s.fab ∧ t.qpe.regStatus = St.REGION_NOT_VALID))) ∧
    (∀ m n, served s m Off.QPE_POST = true → privileged s m = true → s.qpe.postBusy = false → n < 2 ^ 24 →
      (qpnOk s n = false ∨ (qpOf s n).st = .free → Completes (.qpePost m n) s fun t => t.qpe.qps = s.qpe.qps ∧ t.qpe.postStatus = St.QP_INVALID) ∧
      (qpnOk s n = true → (qpOf s n).st = .error ∨ (qpOf s n).st = .draining → Completes (.qpePost m n) s fun t =>
        t.qpe.qps = s.qpe.qps ∧ t.qpe.postStatus = St.QP_STATE) ∧
      (qpnOk s n = true → (qpOf s n).st = .ready → Completes (.qpePost m n) s fun t => OnlyParts [.regs, .qpe, .mem, .tier] s t ∧ t.qpe.postBusy = true ∧
        (∀ j, j ≠ n → qpOf t j = qpOf s j) ∧
        let q := qpOf s n
        let w := parseWr (spaceRead s nodeSlot (rpair s Off.QPE_POST_LO % 2 ^ 48) 64)
        (q.sq.length < 256 → q.sqWait = [] → qpOf t n = { q with sq := q.sq ++ [w], sqTail := (q.sqTail + 1) % 256 } ∧
          written t (q.sqPfn * 16384 + 64 * q.sqTail) w.bytes) ∧
        (256 ≤ q.sq.length ∨ q.sqWait ≠ [] → t.mem = s.mem ∧ qpOf t n = { q with sqWait := q.sqWait ++ [w] }))) ∧
    (alive s = true → ∀ n,
      ((qpOf s n).st = .draining → (qpOf s n).unacked = [] → (qpOf s n).recvMsg = 0 → Completes (.qpDrained n) s fun t =>
        qpOf t n = {} ∧ n ∉ t.qpe.cache) ∧
      ((qpOf s n).st ≠ .draining ∨ (qpOf s n).unacked ≠ [] ∨ (qpOf s n).recvMsg ≠ 0 → exec (.qpDrained n) s = .next s) ∧
      ((regionEnt s n).st = .revoking → (regionEnt s n).inflight = 0 → Completes (.revokeDone n) s fun t =>
        regionEnt t n = { gen := (regionEnt s n).gen } ∧ (∀ j, j ≠ n → regionEnt t j = regionEnt s j) ∧
          (statusOf t Off.QPE_STATUS).hi.getLsbD 4 = true) ∧
      ((regionEnt s n).inflight ≠ 0 → exec (.revokeDone n) s = .next s))

/-- 12 R290 to R300, R304 to R311: packets. The current work request sends its next packet inside the window, at the next PSN; one that no packet can carry, or whose
page does not decode for a plain push, completes with its status. A packet in sequence is placed or executed and moves the expected PSN on; a later one draws one NAK and an earlier one
its acknowledgement again, and neither changes memory; one that fails its region check takes the queue pair to ERROR with a fatal NAK, one for a region that a run or a sweep holds
waits at the controller (07 R168, R175), and a FENCED node answers RECEIVER_BUSY (16 R392). A PAGE_READ is answered with the page and its spill. Read and page responses are placed
at the requester. An acknowledgement frees the packets it covers and both retry counts; PSN_SEQUENCE sends again, a busy cause waits, a fatal one or the retry limit ends in ERROR.
The acknowledgement timer, the hint and the end of a context's fetch have their effects. What a PAGE_READ asks for stands beside its packet, and a message of another length than a
page and its trailer was pushed plain: both are the model's reading (log entries 59 and 60). -/
def Obligations.QueueTraffic : Prop :=
  ∀ s : State, alive s = true → qpeOn s = true →
    let event (t : State) (i : Nat) := (statusOf t Off.QPE_STATUS).hi.getLsbD i = true
    let sentAll (t : State) (q : Qp) (k : Nat) (P : List Frame → Prop) : Prop :=
      ∀ p n, flowPort s q.ctx q.peer q.tc = some p → sessionOf (portOf s p) q.ctx = some n →
        ∃ l : List QFrame, classFrames (eport t p) q.tc = classFrames (eport s p) q.tc ++ l ∧ l.length = k ∧
          (∀ g ∈ l, g.ctx = q.ctx ∧ g.frame.dst = q.peer) ∧ P (l.map (·.frame))
    let sent (t : State) (q : Qp) (P : Frame → Prop) : Prop := sentAll t q 1 fun l => ∀ f ∈ l, P f
    let resent (q : Qp) (psn : Nat) : List SentPkt := q.unacked.map fun x => if psnLater psn x.psn then x else
      { x with resent := true, sentAt := s.clk.counter }
    (∀ n ix w ecc, currentWr (qpOf s n) = some (ix, w) → (qpOf s n).waiting = none →
      (qpOf s n).st = .ready ∨ (qpOf s n).st = .draining ∧ w.sent ≠ 0 →
        let q := qpOf s n
        let ends (t : State) (st : Nat) : Prop := (qpOf t n).sq = q.sq.tail ++ (if q.sq.length ≤ 256 then q.sqWait.take 1 else []) ∧
          t.qpe.postStatus = st ∧ t.qpe.postBusy = false ∧ t.egr = s.egr
        (isCached s n = false → q.fetching = false → Completes (.qpSend n ecc) s fun t => qpOf t n = { q with fetching := true } ∧ t.egr = s.egr) ∧
        (isCached s n = true →
          (∀ st, wrInvalid w = some st → ix = 0 → w.posted = true → Completes (.qpSend n ecc) s fun t => ends t st) ∧
          (wrInvalid w = none → (bitOf w.flags 1 = true → w.sent = 0 → (q.sq.take ix).all (·.op != 1) = true) →
            mustWait s (regionsOf (sourceFrames w 4096)) = false →
            (∀ e, decodePush s q w = .error e → ix = 0 → w.posted = true → Completes (.qpSend n ecc) s fun t => ends t e.1.status) ∧
            ∀ v d, decodePush s q w = .ok (v, d) →
              let u := useContext d n
              let k := nextPkt u q v
              let size := frameLen { body := zeros 32 ++ k.payload }
              q.inflight = 0 ∨ q.inflight + size ≤ q.window → ∀ p j, flowPort s q.ctx q.peer q.tc = some p → sessionOf (portOf s p) q.ctx = some j →
                Completes (.qpSend n ecc) s fun t => (sourceFrames v k.payload.length = [] → t.mem = u.mem) ∧ (qpOf t n).sendPsn = (q.sendPsn + k.psns) % 2 ^ 24 ∧
                  (qpOf t n).inflight = q.inflight + size ∧ (qpOf t n).unacked.length = q.unacked.length + 1 ∧
                  ((qpOf t n).sq[ix]?).map (·.sent) = some k.sent ∧
                  sent t q fun f => f.op = [0xA0, 0xA1, 0xA3, 0xA4, 0xA5].getD w.op 0 ∧ f.rtag = 0 ∧ f.combine = 0 ∧ f.flags = 0 ∧
                    leAt f.body 0 4 % 2 ^ 24 = q.peerQpn % 2 ^ 24 ∧ leAt f.body 8 4 = q.sendPsn % 2 ^ 24 ∧
                    (w.op ≤ 1 → f.key = w.key) ∧ (2 ≤ w.op → f.key = 0 ∧ f.addr = 0) ∧
                    (w.op = 0 → f.addr = w.remote + w.sent) ∧
                    (w.op = 0 → lostFrame u (sourceFrames w k.payload.length) ecc = none →
                      f.body.drop 32 = spaceRead u q.ctx (w.loc + w.sent) (chunkAt w.remote w.sent w.length)) ∧
                    (w.plain = true → w.sent = 0 → lostFrame u [w.loc % 2 ^ 32] ecc = none →
                      f.body.drop 32 = ((pushedPage s (frameBytesOf s q.ctx (w.loc % 2 ^ 32))).2).take 4096) ∧
                    (w.op = 1 → f.addr = w.remote ∧ f.size = 0)))) ∧
    (∀ p f,
      let h := tpOf f.body
      let n := h.dst
      let q := qpOf s n
      let off := frameOffset (regionEnt s (keyIndex f.key)) f.addr
      let payload := f.body.drop 32
      let u := if s.osier.resuming then s else useContext (police (qpeCount s 1 1) q.ctx f).2 n
      let turn (frames : List Nat) : Bool := !mustWait u (regionsOf frames ++ [qpKey n])
      let acks := h.last || h.ackNow || decide (max 1 (rf s Off.QPE_RETRY 24 8) ≤ q.sinceAck + 1)
      frameCtx s p f = some q.ctx → polOn s q.ctx = false ∨ frameLen f * 2 ^ 24 ≤ polTokens s q.ctx → qpnOk s n = true → q.st = .ready ∨ q.st = .draining → q.peer = f.src → q.peerQpn = h.src →
        q.dropTo = none → isCached s n = true → heldFor s n = false → f.tc = q.tc →
          (s.fault.st = .fenced → f.op = 0xA0 → turn (framesAt off f.size) = true → Completes (.write p f) s fun t => t.mem = u.mem ∧
            qpOf t n = { q with dropTo := some h.psn } ∧ sent t q fun g => g.op = 0xA9 ∧ leAt g.body 24 4 = h.psn ∧ leAt g.body 28 2 = St.RECEIVER_BUSY) ∧
          (f.op = 0xA0 → turn (framesAt off f.size) = false → Completes (.write p f) s fun t =>
            t = { u with osier := { u.osier with waits := u.osier.waits ++ [(regionsOf (framesAt off f.size) ++ [qpKey n], .write p f)] } }) ∧
          (s.fault.st ≠ .fenced → f.op = 0xA0 → turn (framesAt off f.size) = true →
            (psnLater h.psn q.recvPsn = true → q.nakSent = false → Completes (.write p f) s fun t => t.mem = u.mem ∧ t.fab = s.fab ∧
              (qpOf t n).recvPsn = q.recvPsn ∧ (qpOf t n).nakSent = true ∧
              sent t q fun g => g.op = 0xA9 ∧ leAt g.body 24 4 = q.recvPsn % 2 ^ 32 ∧ leAt g.body 28 2 = St.PSN_SEQUENCE) ∧
            (psnLater q.recvPsn h.psn = true → Completes (.write p f) s fun t => t.mem = u.mem ∧ t.fab = s.fab ∧ (qpOf t n).recvPsn = q.recvPsn ∧
              sent t q fun g => g.op = 0xA8) ∧
            (h.psn = q.recvPsn → (h.first = true → lengthOk h.len = true) → dataLengthOk q h h.len f.size payload.length = true →
              let bad := packetRegion s q f 1 f.size h.first (off % 8 == 0 && off % 4096 + f.size ≤ 4096)
              (bad = none → Completes (.write p f) s fun t => (qpOf t n).recvPsn = (q.recvPsn + 1) % 2 ^ 24 ∧
                spaceRead t q.ctx off f.size = payload ∧
                (∀ a, a / 16384 ≠ off / 16384 ∨ tget {} u.mem.tags (off / 16384) = frameTag u q.ctx (off / 16384) ∧ (a < off ∨ off + f.size ≤ a) →
                  memByte t.mem.cells a = memByte u.mem.cells a ∨ inCompute u (off / 16384) = true ∧ off / 128 ≤ a / 128 ∧ a / 128 ≤ (off + f.size - 1) / 128 ∧
                    ∃ line, tfind u.mem.behind (a / 128) = some line ∧ memByte t.mem.cells a = line.getD (a % 128) 0) ∧
                (h.last = true ∨ h.ackNow = true → sent t q fun g => g.op = 0xA8 ∧ leAt g.body 24 4 = h.psn ∧ leAt g.body 16 8 = h.tSend)) ∧
              ∀ st, bad = some st → Completes (.write p f) s fun t => (qpOf t n).st = .error ∧ (accessCause st = true → event t 0) ∧
                (q.sq = [] → rf s Off.QPE_EVT_BASE 0 32 = 0xFFFFFFFF → t.mem = u.mem ∧
                  sent t q fun g => g.op = 0xA9 ∧ leAt g.body 24 4 = h.psn ∧ leAt g.body 28 2 = st))) ∧
          (s.fault.st ≠ .fenced → f.op = 0xA3 → turn [] = true → h.psn = q.recvPsn → lengthOk (if h.first then h.len else 8) = true →
            dataLengthOk q h h.len f.size payload.length = true → (h.first = true → msgTypeOk (leAt payload 0 2) = true) →
              let buf := (if h.first then [] else q.recvBuf) ++ payload
              (h.last = true → leAt buf 0 2 ≠ 0x10 ∧ leAt buf 0 2 ≠ 0x20) → Completes (.write p f) s fun t => t.mem = u.mem ∧
                (qpOf t n).recvPsn = (q.recvPsn + 1) % 2 ^ 24 ∧ (qpOf t n).recvBuf = (if h.last then [] else buf) ∧
                (qpOf t n).recvMsg = (if h.first then h.len else q.recvMsg) - f.size) ∧
          (h.psn = q.recvPsn →
            (lengthOk h.len = true → f.size = 0 → packetRegion s q { f with op := 0xA1 } 0 h.len true (off % 8 == 0) = none → turn (framesAt off h.len) = true → ∀ ecc,
              (lostFrame u (framesAt off h.len) ecc = none → Completes (.readReq p f ecc) s fun t => t.mem.cells = u.mem.cells ∧
                (qpOf t n).recvPsn = (q.recvPsn + readCount off h.len) % 2 ^ 24 ∧
                sentAll t q (readCount off h.len + b2n acks) fun l => let d := l.take (readCount off h.len)
                  (∀ x ∈ d, x.op = 0xA2) ∧ d.flatMap (fun x => x.body.drop 32) = spaceRead u q.ctx off h.len ∧ ∀ x ∈ l.drop (readCount off h.len), x.op = 0xA8) ∧
              (lostFrame u (framesAt off h.len) ecc ≠ none → Completes (.readReq p f ecc) s fun t => (qpOf t n).st = .error)) ∧
            (∀ ask, let frames := askedFrames u q.ctx ask
             let pages := frames.map (askedPage u q.ctx)
             let good := pages.all fun b => pageShapeOk b && pagePlaceOk b (askedPlace q.ctx ask.page ask.block)
             f.size = 0 → turn frames = true → ∀ ecc, lostFrame u frames ecc = none →
               (good = true → Completes (.pageRead p f { ask := ask, ecc := ecc }) s fun t => t.mem.cells = u.mem.cells ∧ (qpOf t n).recvPsn = (q.recvPsn + 10) % 2 ^ 24 ∧
                 sentAll t q (5 * pages.length + b2n acks) fun l => let d := l.take (5 * pages.length)
                   (∀ x ∈ d, x.op = 0xA4) ∧ d.flatMap (fun x => x.body.drop 32) = pages.flatMap (pageWire u) ∧ ∀ x ∈ l.drop (5 * pages.length), x.op = 0xA8) ∧
               (good = false → Completes (.pageRead p f { ask := ask, ecc := ecc }) s fun t => (qpOf t n).st = .error)) ∧
            (s.fault.st ≠ .fenced → readWr q 4 h.psn = none → turn [] = true → dataLengthOk q h h.len f.size payload.length = true →
              let buf := (if h.first then [] else q.recvBuf) ++ payload
              let v := setQp u n { q with nakSent := false }
              (h.last = false → ∀ pick, Completes (.page p f pick) s fun t => t.mem = u.mem ∧ (qpOf t n).recvBuf = buf ∧
                (qpOf t n).recvPsn = (q.recvPsn + 1) % 2 ^ 24) ∧
              (h.last = true → buf.length ≠ pageLen → ∀ pick, Completes (.page p f pick) s fun t => t.mem = u.mem ∧ Out.plainPage n buf ∈ t.out ∧
                (qpOf t n).recvMsg = 0 ∧ (qpOf t n).recvPsn = (q.recvPsn + 1) % 2 ^ 24) ∧
              (h.last = true → buf.length = pageLen →
                (∀ pick e, remapPage v buf = .error e → Completes (.page p f pick) s fun t => (qpOf t n).st = .error) ∧
                ∀ pick bs refs x w, remapPage v buf = .ok (bs, refs) → 1 ≤ quotaLeft v q.ctx 0 →
                  takeFrames v (ctxOf v q.ctx).slice 0 q.ctx .reserved anyFrame 1 pick = some ([x], w) → Completes (.page p f pick) s fun t =>
                    getFrame t q.ctx x 0 16384 = bs ∧ (tfind t.tier.frames x).map (·.tabs) = some refs ∧ (qpOf t n).recvMsg = 0 ∧
                      (qpOf t n).recvPsn = (q.recvPsn + 1) % 2 ^ 24)))) ∧
    (∀ p f n q h, answerQp s p f = some (n, q, h) →
      let u := useContext s n
      let alone : Prop := q.sqWait = [] ∧ ∀ x ∈ q.sq.tail, x.endPsn = none
      (∀ ix w first, readWr q 1 h.psn = some (ix, w, first) → h.psn = psnAdd first ((w.remote % 4096 + w.placed) / 4096) → w.placed < w.length →
        mustWait s (regionsOf (framesAt (w.loc + w.placed) (f.body.length - 32)) ++ [qpKey n]) = false →
          let size := chunkAt w.remote w.placed w.length
          (w.placed + size ≠ w.length → Completes (.readResp p f) s fun t => spaceRead t q.ctx (w.loc + w.placed) size = fit size (f.body.drop 32) ∧
            ((qpOf t n).sq[ix]?).map (·.placed) = some (w.placed + size)) ∧
          (w.placed + size = w.length → ix = 0 → w.posted = true → alone → Completes (.readResp p f) s fun t =>
            spaceRead t q.ctx (w.loc + w.placed) size = fit size (f.body.drop 32) ∧ (qpOf t n).sq = q.sq.tail ∧
              t.qpe.postStatus = w.failed ∧ t.qpe.postBusy = false)) ∧
      (∀ ix w first pick, readWr q 4 h.psn = some (ix, w, first) → h.psn = psnAdd first w.placed → w.placed < 10 →
        mustWait s (regionsOf (if w.posted then framesAt w.loc 32768 else []) ++ [qpKey n]) = false →
          let body := w.body ++ f.body.drop 32
          (h.last = false → Completes (.page p f pick) s fun t => (s.osier.resuming = false → t.mem = u.mem) ∧
            (qpOf t n).sq[ix]? = some { w with placed := w.placed + 1, body := body }) ∧
          (h.last = true → ix = 0 → w.posted = true → alone → body.length = pageLen →
            (∀ a, remapPage s body = .ok a → Completes (.page p f pick) s fun t => spaceRead t q.ctx w.loc 16384 = a.1 ∧ (qpOf t n).sq = q.sq.tail ∧
              t.qpe.postStatus = w.failed ∧ t.qpe.postBusy = false) ∧
            ∀ e, remapPage s body = .error e → Completes (.page p f pick) s fun t => (qpOf t n).sq = q.sq.tail ∧ t.qpe.postStatus = e ∧ t.qpe.postBusy = false)) ∧
      (let r := ackedPkts h.len q.unacked
       (r.1 ≠ [] → Completes (.ack p f) s fun t => (qpOf t n).unacked = r.2 ∧ (qpOf t n).retries = 0 ∧ (qpOf t n).busyUsed = 0 ∧
         (qpOf t n).inflight = q.inflight - (r.1.map fun x => frameLen x.frame).sum ∧ (q.sqWait = [] → (∀ x ∈ q.sq, x.failed = 0) → t.mem = u.mem)) ∧
       (r.1 = [] → Completes (.ack p f) s fun t => qpOf t n = q ∧ t.mem = u.mem)) ∧
      (q.unacked ≠ [] →
        (h.nak = St.PSN_SEQUENCE → Completes (.nak p f) s fun t => (qpOf t n).unacked = resent q h.len ∧ (qpOf t n).st = q.st ∧ t.mem = u.mem) ∧
        (busyCause h.nak = true →
          (q.busyMax = 15 ∨ q.busyUsed + 1 ≤ q.busyMax → Completes (.nak p f) s fun t =>
            qpOf t n = { q with busyUsed := q.busyUsed + 1, waiting := some h.len }) ∧
          (q.busyMax ≠ 15 → q.busyMax < q.busyUsed + 1 → Completes (.nak p f) s fun t => (qpOf t n).st = .error ∧ event t 2)) ∧
        (h.nak ≠ St.PSN_SEQUENCE → busyCause h.nak = false → Completes (.nak p f) s fun t => (qpOf t n).st = .error ∧ event t 1))) ∧
    ∀ n, let q := qpOf s n
      (q.st = .ready ∨ q.st = .draining →
        (q.sinceAck ≠ 0 → Completes (.ackTimer n) s fun t => qpOf t n = { q with sinceAck := 0 } ∧
          sent t q fun g => g.op = 0xA8 ∧ leAt g.body 24 4 = (q.recvPsn + (2 ^ 24 - 1)) % 2 ^ 24) ∧
        (q.unacked ≠ [] →
          (q.retries + 1 ≤ q.retryMax → Completes (.retransmitTimeout n) s fun t => (qpOf t n).retries = q.retries + 1 ∧ (qpOf t n).window = 4096 ∧
            (qpOf t n).unacked = resent q (una q) ∧ (qpOf t n).st = q.st) ∧
          (q.retryMax < q.retries + 1 → Completes (.retransmitTimeout n) s fun t => (qpOf t n).st = .error ∧ event t 2))) ∧
      (∀ psn, q.waiting = some psn → Completes (.nakHintExpiry n) s fun t => qpOf t n = { q with waiting := none, unacked := resent q psn }) ∧
      (q.fetching = true → ∀ ecc,
        (rbit s Off.QPE_CTRL 1 = true → s.hostq.pf0D3 = true → exec (.contextFetchDone n ecc) s = .next s) ∧
        (rbit s Off.QPE_CTRL 1 = false ∨ s.hostq.pf0D3 = false →
          (∀ u, cacheIn s n = some u → heldFor s n = false → Completes (.contextFetchDone n ecc) s fun t => n ∈ t.qpe.cache ∧
            qpOf t n = { q with fetching := false } ∧ ∀ j, j ≠ n → qpOf t j = qpOf u j) ∧
          (cacheIn s n = none → Completes (.contextFetchDone n ecc) s fun t => qpOf t n = q ∧ event t 6)))

/-! ### Egress -/

/-- 13 R314 to R329: at a frame start the lowest strict class whose head may start sends it: the head leaves its queue, its session's counter and its flits advance, and the
port's credits for the class fall, the frame is counted, and the in-flight count of a response's region falls; with nothing ready an acknowledgement or credits that are due leave in an idle
flit, and else no flit leaves. A session whose counter reaches 2^47 is reported. An install takes the lists and the base of the registers or is refused with its status;
a cancel drops it; at its base it becomes the set in force. The end of an entry only advances time, and the gate follows its list. -/
def Obligations.Egress : Prop :=
  ∀ s : State,
    (alive s = true → ∀ p now, p < 24 →
      let u := accrue { s with clk := { s.clk with counter := max s.clk.counter now } } p
      let starts (c : Nat) (f : Frame) (q : QFrame) (qs : List QFrame) (k : Session) (t : State) : Prop :=
        classFrames (eport t p) c = qs ∧ (∀ j, j ≠ c → classFrames (eport t p) j = classFrames (eport s p) j) ∧
          (∀ i, regionEnt t i = if q.region = some i then { regionEnt s i with inflight := (regionEnt s i).inflight - 1 } else regionEnt s i) ∧
          cnt t (ckey (Off.EGR_CNT_LO p) 0 c) = (cnt s (ckey (Off.EGR_CNT_LO p) 0 c) + 1) % 2 ^ 64 ∧
          (tfind (portOf t p).sessions f.session).map (·.txCtr) = some (k.txCtr + 1) ∧
          (portOf t p).replay.length = (portOf s p).replay.length + cdiv (frameLen f) 240 ∧
          ((portOf t p).replay.getLast?.bind (·.frame)).map (fun x => (x.frame.op, x.frame.rtag, x.frame.counter)) =
            some (q.frame.op, q.frame.rtag, k.txCtr + 1) ∧
          (portOf t p).txCredits.getD c 0 = (portOf s p).txCredits.getD c 0 - cdiv (frameLen f) 256 ∧ t.mem = s.mem ∧ t.weft = s.weft ∧ t.qpe = s.qpe ∧
          (k.txCtr + 1 ≠ 2 ^ 47 → t.out.length = s.out.length + cdiv (frameLen f) 240) ∧
          (k.txCtr + 1 = 2 ^ 47 → (statusOf t (Off.PORT_STATUS p)).hi.getLsbD 3 = true)
      (∀ e ∈ (portOf s p).sessions, e.2.closing = false) →
        (∀ c f q qs k, headReady u p c = some f → classFrames (eport s p) c = q :: qs → tfind (portOf s p).sessions f.session = some k →
          (c < 3 → (∀ j, j < c → headReady u p j = none) → Completes (.egressFrameStart p now) s (starts c f q qs k)) ∧
          (3 ≤ c → c < 8 → (∀ j, j < 3 → headReady u p j = none) → (eport s p).turn = c →
            let left := (if (eport s p).inTurn then 0 else quantumOf s p c) + tget 0 (eport s p).deficit c
            counted s p f ≤ left → Completes (.egressFrameStart p now) s fun t => starts c f q qs k t ∧
              tget 0 (eport t p).deficit c = if qs = [] then 0 else left - counted s p f)) ∧
        ((∀ c, c < 8 → headReady u p c = none) →
          let port := portOf s p
          let due := linked port && (port.ackDue != 0 || (creditOut s p).2 != 0)
          (due = false → Completes (.egressFrameStart p now) s fun t => OnlyParts [.clk, .egr, .regs] s t ∧ ∀ c, classFrames (eport t p) c = classFrames (eport s p) c) ∧
          (due = true → Completes (.egressFrameStart p now) s fun t => OnlyParts [.clk, .egr, .regs, .ports, .out] s t ∧ (portOf t p).ackDue = 0 ∧
            (∀ c, classFrames (eport t p) c = classFrames (eport s p) c) ∧
            t.out = s.out ++ [.flit p (flitBytes (flitHdr port.txSeq (if port.ackDue = 0 then 0 else port.rxSeq + 4095) port.ackDue (creditOut s p).1 (creditOut s p).2 1) [])]))) ∧
    (∀ m p, p < 24 → served s m (Off.EGR_GATE_CMD p) = true → privileged s m = true →
      let cycle := rf s (Off.EGR_GATE_CYCLE p) 0 32
      let base := rpair s (Off.EGR_GATE_BASE_LO p)
      let refused (t : State) (st : Nat) : Prop := (eport t p).pending = (eport s p).pending ∧ (eport t p).active = (eport s p).active ∧
        (eport t p).resStatus = st ∧ (statusOf t (Off.EGR_STATUS p)).hi.getLsbD 2 = true
      ((eport s p).pending.isSome = true → Completes (.gateInstall m p) s fun t => refused t St.GATE_BUSY) ∧
      ((eport s p).pending = none →
        (cycle = 0 → Completes (.gateInstall m p) s fun t => refused t St.GATE_LIST_BAD) ∧
        (∀ c st i, cycle ≠ 0 → 1 ≤ c → c ≤ 7 → (∀ j, 1 ≤ j → j < c → listRefusal s p cycle j = none) → listRefusal s p cycle c = some (st, i) →
          Completes (.gateInstall m p) s fun t => refused t st ∧ (eport t p).resClass = c ∧ ∀ k, i = some k → (eport t p).resEntry = k) ∧
        (cycle ≠ 0 → (∀ c, 1 ≤ c → c ≤ 7 → listRefusal s p cycle c = none) →
          (base < s.clk.counter + 1024 → Completes (.gateInstall m p) s fun t => refused t St.GATE_LATE) ∧
          (s.clk.counter + 1024 ≤ base → Completes (.gateInstall m p) s fun t => OnlyParts [.regs, .egr] s t ∧
            (eport t p).active = (eport s p).active ∧ (eport t p).resStatus = 0 ∧
              ∃ g, (eport t p).pending = some g ∧ g.cycle = cycle ∧ g.base = base ∧ ∀ c, 1 ≤ c → c ≤ 7 → tget [] g.lists c = adminList s p c))) ∧
      (∀ g, (eport s p).pending = some g → s.clk.counter < g.base → Completes (.gateCancel m p) s fun t => OnlyParts [.regs, .egr] s t ∧
        eport t p = { eport s p with pending := none })) ∧
    (alive s = true → ∀ p,
      (∀ g, (eport s p).pending = some g → Completes (.gateBase p) s fun t =>
        eport t p = { eport s p with active := some g, pending := none, tokens := (eport t p).tokens, stamp := t.clk.counter } ∧
          (∀ c, 1 ≤ c → c ≤ 7 → tget 0 (eport t p).tokens c = tokensNow { s with clk := { s.clk with counter := max s.clk.counter g.base } } p c) ∧ (∀ j, j ≠ p → eport t j = eport s j) ∧ g.base ≤ t.clk.counter ∧
          s.clk.counter ≤ t.clk.counter ∧ (statusOf t (Off.EGR_STATUS p)).hi.getLsbD 0 = true) ∧
      ∀ g c, (eport s p).active = some g → c ≠ 0 → g.cycle ≠ 0 → tget [] g.lists c ≠ [] → Completes (.gateEntryEnd p c) s fun t =>
        OnlyParts [.clk] s t ∧ t.clk.counter = s.clk.counter + (gateState g c s.clk.counter).2.1)
end

