-- ==== Sys2Proof/Laws/State.lean ====
section
/-! SUPPORT. What each update of the state leaves alone, field by field, so that no proof unfolds a record update. -/
namespace Sys2Proof.Machine

@[simp] theorem regPut_pending (s : State) (key w : Nat) : (regPut s key w).pending = s.pending := rfl
@[simp] theorem regPut_out (s : State) (key w : Nat) : (regPut s key w).out = s.out := rfl
@[simp] theorem regPut_freeCtr (s : State) (key w : Nat) : (regPut s key w).freeCtr = s.freeCtr := rfl
@[simp] theorem regPut_rngCtr (s : State) (key w : Nat) : (regPut s key w).rngCtr = s.rngCtr := rfl
@[simp] theorem regPut_pins (s : State) (key w : Nat) : (regPut s key w).pins = s.pins := rfl
@[simp] theorem regPut_boot (s : State) (key w : Nat) : (regPut s key w).boot = s.boot := rfl
@[simp] theorem regPut_clk (s : State) (key w : Nat) : (regPut s key w).clk = s.clk := rfl
@[simp] theorem regPut_hostq (s : State) (key w : Nat) : (regPut s key w).hostq = s.hostq := rfl
@[simp] theorem regPut_weft (s : State) (key w : Nat) : (regPut s key w).weft = s.weft := rfl
@[simp] theorem regPut_tier (s : State) (key w : Nat) : (regPut s key w).tier = s.tier := rfl
@[simp] theorem regPut_mem (s : State) (key w : Nat) : (regPut s key w).mem = s.mem := rfl
@[simp] theorem regPut_plait (s : State) (key w : Nat) : (regPut s key w).plait = s.plait := rfl
@[simp] theorem regPut_attn (s : State) (key w : Nat) : (regPut s key w).attn = s.attn := rfl
@[simp] theorem regPut_osier (s : State) (key w : Nat) : (regPut s key w).osier = s.osier := rfl
@[simp] theorem regPut_coma (s : State) (key w : Nat) : (regPut s key w).coma = s.coma := rfl
@[simp] theorem regPut_ports (s : State) (key w : Nat) : (regPut s key w).ports = s.ports := rfl
@[simp] theorem regPut_fab (s : State) (key w : Nat) : (regPut s key w).fab = s.fab := rfl
@[simp] theorem regPut_qpe (s : State) (key w : Nat) : (regPut s key w).qpe = s.qpe := rfl
@[simp] theorem regPut_egr (s : State) (key w : Nat) : (regPut s key w).egr = s.egr := rfl
@[simp] theorem regPut_ledger (s : State) (key w : Nat) : (regPut s key w).ledger = s.ledger := rfl
@[simp] theorem regPut_brake (s : State) (key w : Nat) : (regPut s key w).brake = s.brake := rfl
@[simp] theorem regPut_therm (s : State) (key w : Nat) : (regPut s key w).therm = s.therm := rfl
@[simp] theorem regPut_sec (s : State) (key w : Nat) : (regPut s key w).sec = s.sec := rfl
@[simp] theorem regPut_fault (s : State) (key w : Nat) : (regPut s key w).fault = s.fault := rfl
@[simp] theorem regPut_svc (s : State) (key w : Nat) : (regPut s key w).svc = s.svc := rfl
@[simp] theorem regPut_map (s : State) (key w : Nat) : (regPut s key w).map = s.map := rfl
@[simp] theorem regPut_sb (s : State) (key w : Nat) : (regPut s key w).sb = s.sb := rfl

@[simp] theorem selPut_pending (s : State) (m : Master) (off w : Nat) : (selPut s m off w).pending = s.pending := by
  unfold selPut; (try dsimp only); (repeat' split) <;> simp
@[simp] theorem selPut_out (s : State) (m : Master) (off w : Nat) : (selPut s m off w).out = s.out := by
  unfold selPut; (try dsimp only); (repeat' split) <;> simp
@[simp] theorem selPut_freeCtr (s : State) (m : Master) (off w : Nat) : (selPut s m off w).freeCtr = s.freeCtr := by
  unfold selPut; (try dsimp only); (repeat' split) <;> simp
@[simp] theorem selPut_rngCtr (s : State) (m : Master) (off w : Nat) : (selPut s m off w).rngCtr = s.rngCtr := by
  unfold selPut; (try dsimp only); (repeat' split) <;> simp
@[simp] theorem selPut_pins (s : State) (m : Master) (off w : Nat) : (selPut s m off w).pins = s.pins := by
  unfold selPut; (try dsimp only); (repeat' split) <;> simp
@[simp] theorem selPut_boot (s : State) (m : Master) (off w : Nat) : (selPut s m off w).boot = s.boot := by
  unfold selPut; (try dsimp only); (repeat' split) <;> simp
@[simp] theorem selPut_clk (s : State) (m : Master) (off w : Nat) : (selPut s m off w).clk = s.clk := by
  unfold selPut; (try dsimp only); (repeat' split) <;> simp
@[simp] theorem selPut_hostq (s : State) (m : Master) (off w : Nat) : (selPut s m off w).hostq = s.hostq := by
  unfold selPut; (try dsimp only); (repeat' split) <;> simp
@[simp] theorem selPut_weft (s : State) (m : Master) (off w : Nat) : (selPut s m off w).weft = s.weft := by
  unfold selPut; (try dsimp only); (repeat' split) <;> simp
@[simp] theorem selPut_tier (s : State) (m : Master) (off w : Nat) : (selPut s m off w).tier = s.tier := by
  unfold selPut; (try dsimp only); (repeat' split) <;> simp
@[simp] theorem selPut_mem (s : State) (m : Master) (off w : Nat) : (selPut s m off w).mem = s.mem := by
  unfold selPut; (try dsimp only); (repeat' split) <;> simp
@[simp] theorem selPut_plait (s : State) (m : Master) (off w : Nat) : (selPut s m off w).plait = s.plait := by
  unfold selPut; (try dsimp only); (repeat' split) <;> simp
@[simp] theorem selPut_attn (s : State) (m : Master) (off w : Nat) : (selPut s m off w).attn = s.attn := by
  unfold selPut; (try dsimp only); (repeat' split) <;> simp
@[simp] theorem selPut_osier (s : State) (m : Master) (off w : Nat) : (selPut s m off w).osier = s.osier := by
  unfold selPut; (try dsimp only); (repeat' split) <;> simp
@[simp] theorem selPut_coma (s : State) (m : Master) (off w : Nat) : (selPut s m off w).coma = s.coma := by
  unfold selPut; (try dsimp only); (repeat' split) <;> simp
@[simp] theorem selPut_ports (s : State) (m : Master) (off w : Nat) : (selPut s m off w).ports = s.ports := by
  unfold selPut; (try dsimp only); (repeat' split) <;> simp
@[simp] theorem selPut_fab (s : State) (m : Master) (off w : Nat) : (selPut s m off w).fab = s.fab := by
  unfold selPut; (try dsimp only); (repeat' split) <;> simp
@[simp] theorem selPut_qpe (s : State) (m : Master) (off w : Nat) : (selPut s m off w).qpe = s.qpe := by
  unfold selPut; (try dsimp only); (repeat' split) <;> simp
@[simp] theorem selPut_egr (s : State) (m : Master) (off w : Nat) : (selPut s m off w).egr = s.egr := by
  unfold selPut; (try dsimp only); (repeat' split) <;> simp
@[simp] theorem selPut_ledger (s : State) (m : Master) (off w : Nat) : (selPut s m off w).ledger = s.ledger := by
  unfold selPut; (try dsimp only); (repeat' split) <;> simp
@[simp] theorem selPut_brake (s : State) (m : Master) (off w : Nat) : (selPut s m off w).brake = s.brake := by
  unfold selPut; (try dsimp only); (repeat' split) <;> simp
@[simp] theorem selPut_therm (s : State) (m : Master) (off w : Nat) : (selPut s m off w).therm = s.therm := by
  unfold selPut; (try dsimp only); (repeat' split) <;> simp
@[simp] theorem selPut_sec (s : State) (m : Master) (off w : Nat) : (selPut s m off w).sec = s.sec := by
  unfold selPut; (try dsimp only); (repeat' split) <;> simp
@[simp] theorem selPut_fault (s : State) (m : Master) (off w : Nat) : (selPut s m off w).fault = s.fault := by
  unfold selPut; (try dsimp only); (repeat' split) <;> simp
@[simp] theorem selPut_svc (s : State) (m : Master) (off w : Nat) : (selPut s m off w).svc = s.svc := by
  unfold selPut; (try dsimp only); (repeat' split) <;> simp
@[simp] theorem selPut_map (s : State) (m : Master) (off w : Nat) : (selPut s m off w).map = s.map := by
  unfold selPut; (try dsimp only); (repeat' split) <;> simp
@[simp] theorem selPut_sb (s : State) (m : Master) (off w : Nat) : (selPut s m off w).sb = s.sb := by
  unfold selPut; (try dsimp only); (repeat' split) <;> simp

@[simp] theorem count_pending (s : State) (key n : Nat) : (count s key n).pending = s.pending := rfl
@[simp] theorem count_out (s : State) (key n : Nat) : (count s key n).out = s.out := rfl
@[simp] theorem count_freeCtr (s : State) (key n : Nat) : (count s key n).freeCtr = s.freeCtr := rfl
@[simp] theorem count_rngCtr (s : State) (key n : Nat) : (count s key n).rngCtr = s.rngCtr := rfl
@[simp] theorem count_pins (s : State) (key n : Nat) : (count s key n).pins = s.pins := rfl
@[simp] theorem count_boot (s : State) (key n : Nat) : (count s key n).boot = s.boot := rfl
@[simp] theorem count_clk (s : State) (key n : Nat) : (count s key n).clk = s.clk := rfl
@[simp] theorem count_hostq (s : State) (key n : Nat) : (count s key n).hostq = s.hostq := rfl
@[simp] theorem count_weft (s : State) (key n : Nat) : (count s key n).weft = s.weft := rfl
@[simp] theorem count_tier (s : State) (key n : Nat) : (count s key n).tier = s.tier := rfl
@[simp] theorem count_mem (s : State) (key n : Nat) : (count s key n).mem = s.mem := rfl
@[simp] theorem count_plait (s : State) (key n : Nat) : (count s key n).plait = s.plait := rfl
@[simp] theorem count_attn (s : State) (key n : Nat) : (count s key n).attn = s.attn := rfl
@[simp] theorem count_osier (s : State) (key n : Nat) : (count s key n).osier = s.osier := rfl
@[simp] theorem count_coma (s : State) (key n : Nat) : (count s key n).coma = s.coma := rfl
@[simp] theorem count_ports (s : State) (key n : Nat) : (count s key n).ports = s.ports := rfl
@[simp] theorem count_fab (s : State) (key n : Nat) : (count s key n).fab = s.fab := rfl
@[simp] theorem count_qpe (s : State) (key n : Nat) : (count s key n).qpe = s.qpe := rfl
@[simp] theorem count_egr (s : State) (key n : Nat) : (count s key n).egr = s.egr := rfl
@[simp] theorem count_ledger (s : State) (key n : Nat) : (count s key n).ledger = s.ledger := rfl
@[simp] theorem count_brake (s : State) (key n : Nat) : (count s key n).brake = s.brake := rfl
@[simp] theorem count_therm (s : State) (key n : Nat) : (count s key n).therm = s.therm := rfl
@[simp] theorem count_sec (s : State) (key n : Nat) : (count s key n).sec = s.sec := rfl
@[simp] theorem count_fault (s : State) (key n : Nat) : (count s key n).fault = s.fault := rfl
@[simp] theorem count_svc (s : State) (key n : Nat) : (count s key n).svc = s.svc := rfl
@[simp] theorem count_map (s : State) (key n : Nat) : (count s key n).map = s.map := rfl
@[simp] theorem count_sb (s : State) (key n : Nat) : (count s key n).sb = s.sb := rfl

@[simp] theorem countSat_pending (s : State) (key n : Nat) : (countSat s key n).pending = s.pending := rfl
@[simp] theorem countSat_out (s : State) (key n : Nat) : (countSat s key n).out = s.out := rfl
@[simp] theorem countSat_freeCtr (s : State) (key n : Nat) : (countSat s key n).freeCtr = s.freeCtr := rfl
@[simp] theorem countSat_rngCtr (s : State) (key n : Nat) : (countSat s key n).rngCtr = s.rngCtr := rfl
@[simp] theorem countSat_pins (s : State) (key n : Nat) : (countSat s key n).pins = s.pins := rfl
@[simp] theorem countSat_boot (s : State) (key n : Nat) : (countSat s key n).boot = s.boot := rfl
@[simp] theorem countSat_clk (s : State) (key n : Nat) : (countSat s key n).clk = s.clk := rfl
@[simp] theorem countSat_hostq (s : State) (key n : Nat) : (countSat s key n).hostq = s.hostq := rfl
@[simp] theorem countSat_weft (s : State) (key n : Nat) : (countSat s key n).weft = s.weft := rfl
@[simp] theorem countSat_tier (s : State) (key n : Nat) : (countSat s key n).tier = s.tier := rfl
@[simp] theorem countSat_mem (s : State) (key n : Nat) : (countSat s key n).mem = s.mem := rfl
@[simp] theorem countSat_plait (s : State) (key n : Nat) : (countSat s key n).plait = s.plait := rfl
@[simp] theorem countSat_attn (s : State) (key n : Nat) : (countSat s key n).attn = s.attn := rfl
@[simp] theorem countSat_osier (s : State) (key n : Nat) : (countSat s key n).osier = s.osier := rfl
@[simp] theorem countSat_coma (s : State) (key n : Nat) : (countSat s key n).coma = s.coma := rfl
@[simp] theorem countSat_ports (s : State) (key n : Nat) : (countSat s key n).ports = s.ports := rfl
@[simp] theorem countSat_fab (s : State) (key n : Nat) : (countSat s key n).fab = s.fab := rfl
@[simp] theorem countSat_qpe (s : State) (key n : Nat) : (countSat s key n).qpe = s.qpe := rfl
@[simp] theorem countSat_egr (s : State) (key n : Nat) : (countSat s key n).egr = s.egr := rfl
@[simp] theorem countSat_ledger (s : State) (key n : Nat) : (countSat s key n).ledger = s.ledger := rfl
@[simp] theorem countSat_brake (s : State) (key n : Nat) : (countSat s key n).brake = s.brake := rfl
@[simp] theorem countSat_therm (s : State) (key n : Nat) : (countSat s key n).therm = s.therm := rfl
@[simp] theorem countSat_sec (s : State) (key n : Nat) : (countSat s key n).sec = s.sec := rfl
@[simp] theorem countSat_fault (s : State) (key n : Nat) : (countSat s key n).fault = s.fault := rfl
@[simp] theorem countSat_svc (s : State) (key n : Nat) : (countSat s key n).svc = s.svc := rfl
@[simp] theorem countSat_map (s : State) (key n : Nat) : (countSat s key n).map = s.map := rfl
@[simp] theorem countSat_sb (s : State) (key n : Nat) : (countSat s key n).sb = s.sb := rfl

@[simp] theorem emit_pending (s : State) (o : Out) : (emit s o).pending = s.pending := rfl
@[simp] theorem emit_freeCtr (s : State) (o : Out) : (emit s o).freeCtr = s.freeCtr := rfl
@[simp] theorem emit_rngCtr (s : State) (o : Out) : (emit s o).rngCtr = s.rngCtr := rfl
@[simp] theorem emit_pins (s : State) (o : Out) : (emit s o).pins = s.pins := rfl
@[simp] theorem emit_boot (s : State) (o : Out) : (emit s o).boot = s.boot := rfl
@[simp] theorem emit_clk (s : State) (o : Out) : (emit s o).clk = s.clk := rfl
@[simp] theorem emit_regs (s : State) (o : Out) : (emit s o).regs = s.regs := rfl
@[simp] theorem emit_hostq (s : State) (o : Out) : (emit s o).hostq = s.hostq := rfl
@[simp] theorem emit_weft (s : State) (o : Out) : (emit s o).weft = s.weft := rfl
@[simp] theorem emit_tier (s : State) (o : Out) : (emit s o).tier = s.tier := rfl
@[simp] theorem emit_mem (s : State) (o : Out) : (emit s o).mem = s.mem := rfl
@[simp] theorem emit_plait (s : State) (o : Out) : (emit s o).plait = s.plait := rfl
@[simp] theorem emit_attn (s : State) (o : Out) : (emit s o).attn = s.attn := rfl
@[simp] theorem emit_osier (s : State) (o : Out) : (emit s o).osier = s.osier := rfl
@[simp] theorem emit_coma (s : State) (o : Out) : (emit s o).coma = s.coma := rfl
@[simp] theorem emit_ports (s : State) (o : Out) : (emit s o).ports = s.ports := rfl
@[simp] theorem emit_fab (s : State) (o : Out) : (emit s o).fab = s.fab := rfl
@[simp] theorem emit_qpe (s : State) (o : Out) : (emit s o).qpe = s.qpe := rfl
@[simp] theorem emit_egr (s : State) (o : Out) : (emit s o).egr = s.egr := rfl
@[simp] theorem emit_ledger (s : State) (o : Out) : (emit s o).ledger = s.ledger := rfl
@[simp] theorem emit_brake (s : State) (o : Out) : (emit s o).brake = s.brake := rfl
@[simp] theorem emit_therm (s : State) (o : Out) : (emit s o).therm = s.therm := rfl
@[simp] theorem emit_sec (s : State) (o : Out) : (emit s o).sec = s.sec := rfl
@[simp] theorem emit_fault (s : State) (o : Out) : (emit s o).fault = s.fault := rfl
@[simp] theorem emit_svc (s : State) (o : Out) : (emit s o).svc = s.svc := rfl
@[simp] theorem emit_map (s : State) (o : Out) : (emit s o).map = s.map := rfl
@[simp] theorem emit_sb (s : State) (o : Out) : (emit s o).sb = s.sb := rfl

@[simp] theorem vecPut_pending (s : State) (pv : Nat) (v : Vec) : (vecPut s pv v).pending = s.pending := rfl
@[simp] theorem vecPut_out (s : State) (pv : Nat) (v : Vec) : (vecPut s pv v).out = s.out := rfl
@[simp] theorem vecPut_freeCtr (s : State) (pv : Nat) (v : Vec) : (vecPut s pv v).freeCtr = s.freeCtr := rfl
@[simp] theorem vecPut_rngCtr (s : State) (pv : Nat) (v : Vec) : (vecPut s pv v).rngCtr = s.rngCtr := rfl
@[simp] theorem vecPut_pins (s : State) (pv : Nat) (v : Vec) : (vecPut s pv v).pins = s.pins := rfl
@[simp] theorem vecPut_boot (s : State) (pv : Nat) (v : Vec) : (vecPut s pv v).boot = s.boot := rfl
@[simp] theorem vecPut_clk (s : State) (pv : Nat) (v : Vec) : (vecPut s pv v).clk = s.clk := rfl
@[simp] theorem vecPut_regs (s : State) (pv : Nat) (v : Vec) : (vecPut s pv v).regs = s.regs := rfl
@[simp] theorem vecPut_weft (s : State) (pv : Nat) (v : Vec) : (vecPut s pv v).weft = s.weft := rfl
@[simp] theorem vecPut_tier (s : State) (pv : Nat) (v : Vec) : (vecPut s pv v).tier = s.tier := rfl
@[simp] theorem vecPut_mem (s : State) (pv : Nat) (v : Vec) : (vecPut s pv v).mem = s.mem := rfl
@[simp] theorem vecPut_plait (s : State) (pv : Nat) (v : Vec) : (vecPut s pv v).plait = s.plait := rfl
@[simp] theorem vecPut_attn (s : State) (pv : Nat) (v : Vec) : (vecPut s pv v).attn = s.attn := rfl
@[simp] theorem vecPut_osier (s : State) (pv : Nat) (v : Vec) : (vecPut s pv v).osier = s.osier := rfl
@[simp] theorem vecPut_coma (s : State) (pv : Nat) (v : Vec) : (vecPut s pv v).coma = s.coma := rfl
@[simp] theorem vecPut_ports (s : State) (pv : Nat) (v : Vec) : (vecPut s pv v).ports = s.ports := rfl
@[simp] theorem vecPut_fab (s : State) (pv : Nat) (v : Vec) : (vecPut s pv v).fab = s.fab := rfl
@[simp] theorem vecPut_qpe (s : State) (pv : Nat) (v : Vec) : (vecPut s pv v).qpe = s.qpe := rfl
@[simp] theorem vecPut_egr (s : State) (pv : Nat) (v : Vec) : (vecPut s pv v).egr = s.egr := rfl
@[simp] theorem vecPut_ledger (s : State) (pv : Nat) (v : Vec) : (vecPut s pv v).ledger = s.ledger := rfl
@[simp] theorem vecPut_brake (s : State) (pv : Nat) (v : Vec) : (vecPut s pv v).brake = s.brake := rfl
@[simp] theorem vecPut_therm (s : State) (pv : Nat) (v : Vec) : (vecPut s pv v).therm = s.therm := rfl
@[simp] theorem vecPut_sec (s : State) (pv : Nat) (v : Vec) : (vecPut s pv v).sec = s.sec := rfl
@[simp] theorem vecPut_fault (s : State) (pv : Nat) (v : Vec) : (vecPut s pv v).fault = s.fault := rfl
@[simp] theorem vecPut_svc (s : State) (pv : Nat) (v : Vec) : (vecPut s pv v).svc = s.svc := rfl
@[simp] theorem vecPut_map (s : State) (pv : Nat) (v : Vec) : (vecPut s pv v).map = s.map := rfl
@[simp] theorem vecPut_sb (s : State) (pv : Nat) (v : Vec) : (vecPut s pv v).sb = s.sb := rfl

@[simp] theorem emitAs_pending (s : State) (fn : Nat) (o : Out) : (emitAs s fn o).pending = s.pending := by
  unfold emitAs; (try dsimp only); (repeat' split) <;> simp
@[simp] theorem emitAs_freeCtr (s : State) (fn : Nat) (o : Out) : (emitAs s fn o).freeCtr = s.freeCtr := by
  unfold emitAs; (try dsimp only); (repeat' split) <;> simp
@[simp] theorem emitAs_rngCtr (s : State) (fn : Nat) (o : Out) : (emitAs s fn o).rngCtr = s.rngCtr := by
  unfold emitAs; (try dsimp only); (repeat' split) <;> simp
@[simp] theorem emitAs_pins (s : State) (fn : Nat) (o : Out) : (emitAs s fn o).pins = s.pins := by
  unfold emitAs; (try dsimp only); (repeat' split) <;> simp
@[simp] theorem emitAs_boot (s : State) (fn : Nat) (o : Out) : (emitAs s fn o).boot = s.boot := by
  unfold emitAs; (try dsimp only); (repeat' split) <;> simp
@[simp] theorem emitAs_clk (s : State) (fn : Nat) (o : Out) : (emitAs s fn o).clk = s.clk := by
  unfold emitAs; (try dsimp only); (repeat' split) <;> simp
@[simp] theorem emitAs_regs (s : State) (fn : Nat) (o : Out) : (emitAs s fn o).regs = s.regs := by
  unfold emitAs; (try dsimp only); (repeat' split) <;> simp
@[simp] theorem emitAs_weft (s : State) (fn : Nat) (o : Out) : (emitAs s fn o).weft = s.weft := by
  unfold emitAs; (try dsimp only); (repeat' split) <;> simp
@[simp] theorem emitAs_tier (s : State) (fn : Nat) (o : Out) : (emitAs s fn o).tier = s.tier := by
  unfold emitAs; (try dsimp only); (repeat' split) <;> simp
@[simp] theorem emitAs_mem (s : State) (fn : Nat) (o : Out) : (emitAs s fn o).mem = s.mem := by
  unfold emitAs; (try dsimp only); (repeat' split) <;> simp
@[simp] theorem emitAs_plait (s : State) (fn : Nat) (o : Out) : (emitAs s fn o).plait = s.plait := by
  unfold emitAs; (try dsimp only); (repeat' split) <;> simp
@[simp] theorem emitAs_attn (s : State) (fn : Nat) (o : Out) : (emitAs s fn o).attn = s.attn := by
  unfold emitAs; (try dsimp only); (repeat' split) <;> simp
@[simp] theorem emitAs_osier (s : State) (fn : Nat) (o : Out) : (emitAs s fn o).osier = s.osier := by
  unfold emitAs; (try dsimp only); (repeat' split) <;> simp
@[simp] theorem emitAs_coma (s : State) (fn : Nat) (o : Out) : (emitAs s fn o).coma = s.coma := by
  unfold emitAs; (try dsimp only); (repeat' split) <;> simp
@[simp] theorem emitAs_ports (s : State) (fn : Nat) (o : Out) : (emitAs s fn o).ports = s.ports := by
  unfold emitAs; (try dsimp only); (repeat' split) <;> simp
@[simp] theorem emitAs_fab (s : State) (fn : Nat) (o : Out) : (emitAs s fn o).fab = s.fab := by
  unfold emitAs; (try dsimp only); (repeat' split) <;> simp
@[simp] theorem emitAs_qpe (s : State) (fn : Nat) (o : Out) : (emitAs s fn o).qpe = s.qpe := by
  unfold emitAs; (try dsimp only); (repeat' split) <;> simp
@[simp] theorem emitAs_egr (s : State) (fn : Nat) (o : Out) : (emitAs s fn o).egr = s.egr := by
  unfold emitAs; (try dsimp only); (repeat' split) <;> simp
@[simp] theorem emitAs_ledger (s : State) (fn : Nat) (o : Out) : (emitAs s fn o).ledger = s.ledger := by
  unfold emitAs; (try dsimp only); (repeat' split) <;> simp
@[simp] theorem emitAs_brake (s : State) (fn : Nat) (o : Out) : (emitAs s fn o).brake = s.brake := by
  unfold emitAs; (try dsimp only); (repeat' split) <;> simp
@[simp] theorem emitAs_therm (s : State) (fn : Nat) (o : Out) : (emitAs s fn o).therm = s.therm := by
  unfold emitAs; (try dsimp only); (repeat' split) <;> simp
@[simp] theorem emitAs_sec (s : State) (fn : Nat) (o : Out) : (emitAs s fn o).sec = s.sec := by
  unfold emitAs; (try dsimp only); (repeat' split) <;> simp
@[simp] theorem emitAs_fault (s : State) (fn : Nat) (o : Out) : (emitAs s fn o).fault = s.fault := by
  unfold emitAs; (try dsimp only); (repeat' split) <;> simp
@[simp] theorem emitAs_svc (s : State) (fn : Nat) (o : Out) : (emitAs s fn o).svc = s.svc := by
  unfold emitAs; (try dsimp only); (repeat' split) <;> simp
@[simp] theorem emitAs_map (s : State) (fn : Nat) (o : Out) : (emitAs s fn o).map = s.map := by
  unfold emitAs; (try dsimp only); (repeat' split) <;> simp
@[simp] theorem emitAs_sb (s : State) (fn : Nat) (o : Out) : (emitAs s fn o).sb = s.sb := by
  unfold emitAs; (try dsimp only); (repeat' split) <;> simp

@[simp] theorem fireVec_pending (s : State) (fn pv : Nat) : (fireVec s fn pv).pending = s.pending := by
  unfold fireVec; (try dsimp only); (repeat' split) <;> simp
@[simp] theorem fireVec_freeCtr (s : State) (fn pv : Nat) : (fireVec s fn pv).freeCtr = s.freeCtr := by
  unfold fireVec; (try dsimp only); (repeat' split) <;> simp
@[simp] theorem fireVec_rngCtr (s : State) (fn pv : Nat) : (fireVec s fn pv).rngCtr = s.rngCtr := by
  unfold fireVec; (try dsimp only); (repeat' split) <;> simp
@[simp] theorem fireVec_pins (s : State) (fn pv : Nat) : (fireVec s fn pv).pins = s.pins := by
  unfold fireVec; (try dsimp only); (repeat' split) <;> simp
@[simp] theorem fireVec_boot (s : State) (fn pv : Nat) : (fireVec s fn pv).boot = s.boot := by
  unfold fireVec; (try dsimp only); (repeat' split) <;> simp
@[simp] theorem fireVec_clk (s : State) (fn pv : Nat) : (fireVec s fn pv).clk = s.clk := by
  unfold fireVec; (try dsimp only); (repeat' split) <;> simp
@[simp] theorem fireVec_weft (s : State) (fn pv : Nat) : (fireVec s fn pv).weft = s.weft := by
  unfold fireVec; (try dsimp only); (repeat' split) <;> simp
@[simp] theorem fireVec_tier (s : State) (fn pv : Nat) : (fireVec s fn pv).tier = s.tier := by
  unfold fireVec; (try dsimp only); (repeat' split) <;> simp
@[simp] theorem fireVec_mem (s : State) (fn pv : Nat) : (fireVec s fn pv).mem = s.mem := by
  unfold fireVec; (try dsimp only); (repeat' split) <;> simp
@[simp] theorem fireVec_plait (s : State) (fn pv : Nat) : (fireVec s fn pv).plait = s.plait := by
  unfold fireVec; (try dsimp only); (repeat' split) <;> simp
@[simp] theorem fireVec_attn (s : State) (fn pv : Nat) : (fireVec s fn pv).attn = s.attn := by
  unfold fireVec; (try dsimp only); (repeat' split) <;> simp
@[simp] theorem fireVec_osier (s : State) (fn pv : Nat) : (fireVec s fn pv).osier = s.osier := by
  unfold fireVec; (try dsimp only); (repeat' split) <;> simp
@[simp] theorem fireVec_coma (s : State) (fn pv : Nat) : (fireVec s fn pv).coma = s.coma := by
  unfold fireVec; (try dsimp only); (repeat' split) <;> simp
@[simp] theorem fireVec_ports (s : State) (fn pv : Nat) : (fireVec s fn pv).ports = s.ports := by
  unfold fireVec; (try dsimp only); (repeat' split) <;> simp
@[simp] theorem fireVec_fab (s : State) (fn pv : Nat) : (fireVec s fn pv).fab = s.fab := by
  unfold fireVec; (try dsimp only); (repeat' split) <;> simp
@[simp] theorem fireVec_qpe (s : State) (fn pv : Nat) : (fireVec s fn pv).qpe = s.qpe := by
  unfold fireVec; (try dsimp only); (repeat' split) <;> simp
@[simp] theorem fireVec_egr (s : State) (fn pv : Nat) : (fireVec s fn pv).egr = s.egr := by
  unfold fireVec; (try dsimp only); (repeat' split) <;> simp
@[simp] theorem fireVec_ledger (s : State) (fn pv : Nat) : (fireVec s fn pv).ledger = s.ledger := by
  unfold fireVec; (try dsimp only); (repeat' split) <;> simp
@[simp] theorem fireVec_brake (s : State) (fn pv : Nat) : (fireVec s fn pv).brake = s.brake := by
  unfold fireVec; (try dsimp only); (repeat' split) <;> simp
@[simp] theorem fireVec_therm (s : State) (fn pv : Nat) : (fireVec s fn pv).therm = s.therm := by
  unfold fireVec; (try dsimp only); (repeat' split) <;> simp
@[simp] theorem fireVec_sec (s : State) (fn pv : Nat) : (fireVec s fn pv).sec = s.sec := by
  unfold fireVec; (try dsimp only); (repeat' split) <;> simp
@[simp] theorem fireVec_fault (s : State) (fn pv : Nat) : (fireVec s fn pv).fault = s.fault := by
  unfold fireVec; (try dsimp only); (repeat' split) <;> simp
@[simp] theorem fireVec_svc (s : State) (fn pv : Nat) : (fireVec s fn pv).svc = s.svc := by
  unfold fireVec; (try dsimp only); (repeat' split) <;> simp
@[simp] theorem fireVec_map (s : State) (fn pv : Nat) : (fireVec s fn pv).map = s.map := by
  unfold fireVec; (try dsimp only); (repeat' split) <;> simp
@[simp] theorem fireVec_sb (s : State) (fn pv : Nat) : (fireVec s fn pv).sb = s.sb := by
  unfold fireVec; (try dsimp only); (repeat' split) <;> simp

@[simp] theorem armVec_pending (s : State) (fn pv : Nat) (now : Bool) : (armVec s fn pv now).pending = s.pending := by
  unfold armVec; (try dsimp only); (repeat' split) <;> simp
@[simp] theorem armVec_freeCtr (s : State) (fn pv : Nat) (now : Bool) : (armVec s fn pv now).freeCtr = s.freeCtr := by
  unfold armVec; (try dsimp only); (repeat' split) <;> simp
@[simp] theorem armVec_rngCtr (s : State) (fn pv : Nat) (now : Bool) : (armVec s fn pv now).rngCtr = s.rngCtr := by
  unfold armVec; (try dsimp only); (repeat' split) <;> simp
@[simp] theorem armVec_pins (s : State) (fn pv : Nat) (now : Bool) : (armVec s fn pv now).pins = s.pins := by
  unfold armVec; (try dsimp only); (repeat' split) <;> simp
@[simp] theorem armVec_boot (s : State) (fn pv : Nat) (now : Bool) : (armVec s fn pv now).boot = s.boot := by
  unfold armVec; (try dsimp only); (repeat' split) <;> simp
@[simp] theorem armVec_clk (s : State) (fn pv : Nat) (now : Bool) : (armVec s fn pv now).clk = s.clk := by
  unfold armVec; (try dsimp only); (repeat' split) <;> simp
@[simp] theorem armVec_weft (s : State) (fn pv : Nat) (now : Bool) : (armVec s fn pv now).weft = s.weft := by
  unfold armVec; (try dsimp only); (repeat' split) <;> simp
@[simp] theorem armVec_tier (s : State) (fn pv : Nat) (now : Bool) : (armVec s fn pv now).tier = s.tier := by
  unfold armVec; (try dsimp only); (repeat' split) <;> simp
@[simp] theorem armVec_mem (s : State) (fn pv : Nat) (now : Bool) : (armVec s fn pv now).mem = s.mem := by
  unfold armVec; (try dsimp only); (repeat' split) <;> simp
@[simp] theorem armVec_plait (s : State) (fn pv : Nat) (now : Bool) : (armVec s fn pv now).plait = s.plait := by
  unfold armVec; (try dsimp only); (repeat' split) <;> simp
@[simp] theorem armVec_attn (s : State) (fn pv : Nat) (now : Bool) : (armVec s fn pv now).attn = s.attn := by
  unfold armVec; (try dsimp only); (repeat' split) <;> simp
@[simp] theorem armVec_osier (s : State) (fn pv : Nat) (now : Bool) : (armVec s fn pv now).osier = s.osier := by
  unfold armVec; (try dsimp only); (repeat' split) <;> simp
@[simp] theorem armVec_coma (s : State) (fn pv : Nat) (now : Bool) : (armVec s fn pv now).coma = s.coma := by
  unfold armVec; (try dsimp only); (repeat' split) <;> simp
@[simp] theorem armVec_ports (s : State) (fn pv : Nat) (now : Bool) : (armVec s fn pv now).ports = s.ports := by
  unfold armVec; (try dsimp only); (repeat' split) <;> simp
@[simp] theorem armVec_fab (s : State) (fn pv : Nat) (now : Bool) : (armVec s fn pv now).fab = s.fab := by
  unfold armVec; (try dsimp only); (repeat' split) <;> simp
@[simp] theorem armVec_qpe (s : State) (fn pv : Nat) (now : Bool) : (armVec s fn pv now).qpe = s.qpe := by
  unfold armVec; (try dsimp only); (repeat' split) <;> simp
@[simp] theorem armVec_egr (s : State) (fn pv : Nat) (now : Bool) : (armVec s fn pv now).egr = s.egr := by
  unfold armVec; (try dsimp only); (repeat' split) <;> simp
@[simp] theorem armVec_ledger (s : State) (fn pv : Nat) (now : Bool) : (armVec s fn pv now).ledger = s.ledger := by
  unfold armVec; (try dsimp only); (repeat' split) <;> simp
@[simp] theorem armVec_brake (s : State) (fn pv : Nat) (now : Bool) : (armVec s fn pv now).brake = s.brake := by
  unfold armVec; (try dsimp only); (repeat' split) <;> simp
@[simp] theorem armVec_therm (s : State) (fn pv : Nat) (now : Bool) : (armVec s fn pv now).therm = s.therm := by
  unfold armVec; (try dsimp only); (repeat' split) <;> simp
@[simp] theorem armVec_sec (s : State) (fn pv : Nat) (now : Bool) : (armVec s fn pv now).sec = s.sec := by
  unfold armVec; (try dsimp only); (repeat' split) <;> simp
@[simp] theorem armVec_fault (s : State) (fn pv : Nat) (now : Bool) : (armVec s fn pv now).fault = s.fault := by
  unfold armVec; (try dsimp only); (repeat' split) <;> simp
@[simp] theorem armVec_svc (s : State) (fn pv : Nat) (now : Bool) : (armVec s fn pv now).svc = s.svc := by
  unfold armVec; (try dsimp only); (repeat' split) <;> simp
@[simp] theorem armVec_map (s : State) (fn pv : Nat) (now : Bool) : (armVec s fn pv now).map = s.map := by
  unfold armVec; (try dsimp only); (repeat' split) <;> simp
@[simp] theorem armVec_sb (s : State) (fn pv : Nat) (now : Bool) : (armVec s fn pv now).sb = s.sb := by
  unfold armVec; (try dsimp only); (repeat' split) <;> simp

@[simp] theorem statusPut_pending (s : State) (off : Nat) (v : StatusReg) : (statusPut s off v).pending = s.pending := rfl
@[simp] theorem statusPut_out (s : State) (off : Nat) (v : StatusReg) : (statusPut s off v).out = s.out := rfl
@[simp] theorem statusPut_freeCtr (s : State) (off : Nat) (v : StatusReg) : (statusPut s off v).freeCtr = s.freeCtr := rfl
@[simp] theorem statusPut_rngCtr (s : State) (off : Nat) (v : StatusReg) : (statusPut s off v).rngCtr = s.rngCtr := rfl
@[simp] theorem statusPut_pins (s : State) (off : Nat) (v : StatusReg) : (statusPut s off v).pins = s.pins := rfl
@[simp] theorem statusPut_boot (s : State) (off : Nat) (v : StatusReg) : (statusPut s off v).boot = s.boot := rfl
@[simp] theorem statusPut_clk (s : State) (off : Nat) (v : StatusReg) : (statusPut s off v).clk = s.clk := rfl
@[simp] theorem statusPut_hostq (s : State) (off : Nat) (v : StatusReg) : (statusPut s off v).hostq = s.hostq := rfl
@[simp] theorem statusPut_weft (s : State) (off : Nat) (v : StatusReg) : (statusPut s off v).weft = s.weft := rfl
@[simp] theorem statusPut_tier (s : State) (off : Nat) (v : StatusReg) : (statusPut s off v).tier = s.tier := rfl
@[simp] theorem statusPut_mem (s : State) (off : Nat) (v : StatusReg) : (statusPut s off v).mem = s.mem := rfl
@[simp] theorem statusPut_plait (s : State) (off : Nat) (v : StatusReg) : (statusPut s off v).plait = s.plait := rfl
@[simp] theorem statusPut_attn (s : State) (off : Nat) (v : StatusReg) : (statusPut s off v).attn = s.attn := rfl
@[simp] theorem statusPut_osier (s : State) (off : Nat) (v : StatusReg) : (statusPut s off v).osier = s.osier := rfl
@[simp] theorem statusPut_coma (s : State) (off : Nat) (v : StatusReg) : (statusPut s off v).coma = s.coma := rfl
@[simp] theorem statusPut_ports (s : State) (off : Nat) (v : StatusReg) : (statusPut s off v).ports = s.ports := rfl
@[simp] theorem statusPut_fab (s : State) (off : Nat) (v : StatusReg) : (statusPut s off v).fab = s.fab := rfl
@[simp] theorem statusPut_qpe (s : State) (off : Nat) (v : StatusReg) : (statusPut s off v).qpe = s.qpe := rfl
@[simp] theorem statusPut_egr (s : State) (off : Nat) (v : StatusReg) : (statusPut s off v).egr = s.egr := rfl
@[simp] theorem statusPut_ledger (s : State) (off : Nat) (v : StatusReg) : (statusPut s off v).ledger = s.ledger := rfl
@[simp] theorem statusPut_brake (s : State) (off : Nat) (v : StatusReg) : (statusPut s off v).brake = s.brake := rfl
@[simp] theorem statusPut_therm (s : State) (off : Nat) (v : StatusReg) : (statusPut s off v).therm = s.therm := rfl
@[simp] theorem statusPut_sec (s : State) (off : Nat) (v : StatusReg) : (statusPut s off v).sec = s.sec := rfl
@[simp] theorem statusPut_fault (s : State) (off : Nat) (v : StatusReg) : (statusPut s off v).fault = s.fault := rfl
@[simp] theorem statusPut_svc (s : State) (off : Nat) (v : StatusReg) : (statusPut s off v).svc = s.svc := rfl
@[simp] theorem statusPut_map (s : State) (off : Nat) (v : StatusReg) : (statusPut s off v).map = s.map := rfl
@[simp] theorem statusPut_sb (s : State) (off : Nat) (v : StatusReg) : (statusPut s off v).sb = s.sb := rfl

@[simp] theorem ibiCheck_pending (s : State) : (ibiCheck s).pending = s.pending := by
  unfold ibiCheck; (try dsimp only); (repeat' split) <;> simp
@[simp] theorem ibiCheck_freeCtr (s : State) : (ibiCheck s).freeCtr = s.freeCtr := by
  unfold ibiCheck; (try dsimp only); (repeat' split) <;> simp
@[simp] theorem ibiCheck_rngCtr (s : State) : (ibiCheck s).rngCtr = s.rngCtr := by
  unfold ibiCheck; (try dsimp only); (repeat' split) <;> simp
@[simp] theorem ibiCheck_pins (s : State) : (ibiCheck s).pins = s.pins := by
  unfold ibiCheck; (try dsimp only); (repeat' split) <;> simp
@[simp] theorem ibiCheck_boot (s : State) : (ibiCheck s).boot = s.boot := by
  unfold ibiCheck; (try dsimp only); (repeat' split) <;> simp
@[simp] theorem ibiCheck_clk (s : State) : (ibiCheck s).clk = s.clk := by
  unfold ibiCheck; (try dsimp only); (repeat' split) <;> simp
@[simp] theorem ibiCheck_regs (s : State) : (ibiCheck s).regs = s.regs := by
  unfold ibiCheck; (try dsimp only); (repeat' split) <;> simp
@[simp] theorem ibiCheck_hostq (s : State) : (ibiCheck s).hostq = s.hostq := by
  unfold ibiCheck; (try dsimp only); (repeat' split) <;> simp
@[simp] theorem ibiCheck_weft (s : State) : (ibiCheck s).weft = s.weft := by
  unfold ibiCheck; (try dsimp only); (repeat' split) <;> simp
@[simp] theorem ibiCheck_tier (s : State) : (ibiCheck s).tier = s.tier := by
  unfold ibiCheck; (try dsimp only); (repeat' split) <;> simp
@[simp] theorem ibiCheck_mem (s : State) : (ibiCheck s).mem = s.mem := by
  unfold ibiCheck; (try dsimp only); (repeat' split) <;> simp
@[simp] theorem ibiCheck_plait (s : State) : (ibiCheck s).plait = s.plait := by
  unfold ibiCheck; (try dsimp only); (repeat' split) <;> simp
@[simp] theorem ibiCheck_attn (s : State) : (ibiCheck s).attn = s.attn := by
  unfold ibiCheck; (try dsimp only); (repeat' split) <;> simp
@[simp] theorem ibiCheck_osier (s : State) : (ibiCheck s).osier = s.osier := by
  unfold ibiCheck; (try dsimp only); (repeat' split) <;> simp
@[simp] theorem ibiCheck_coma (s : State) : (ibiCheck s).coma = s.coma := by
  unfold ibiCheck; (try dsimp only); (repeat' split) <;> simp
@[simp] theorem ibiCheck_ports (s : State) : (ibiCheck s).ports = s.ports := by
  unfold ibiCheck; (try dsimp only); (repeat' split) <;> simp
@[simp] theorem ibiCheck_fab (s : State) : (ibiCheck s).fab = s.fab := by
  unfold ibiCheck; (try dsimp only); (repeat' split) <;> simp
@[simp] theorem ibiCheck_qpe (s : State) : (ibiCheck s).qpe = s.qpe := by
  unfold ibiCheck; (try dsimp only); (repeat' split) <;> simp
@[simp] theorem ibiCheck_egr (s : State) : (ibiCheck s).egr = s.egr := by
  unfold ibiCheck; (try dsimp only); (repeat' split) <;> simp
@[simp] theorem ibiCheck_ledger (s : State) : (ibiCheck s).ledger = s.ledger := by
  unfold ibiCheck; (try dsimp only); (repeat' split) <;> simp
@[simp] theorem ibiCheck_brake (s : State) : (ibiCheck s).brake = s.brake := by
  unfold ibiCheck; (try dsimp only); (repeat' split) <;> simp
@[simp] theorem ibiCheck_therm (s : State) : (ibiCheck s).therm = s.therm := by
  unfold ibiCheck; (try dsimp only); (repeat' split) <;> simp
@[simp] theorem ibiCheck_sec (s : State) : (ibiCheck s).sec = s.sec := by
  unfold ibiCheck; (try dsimp only); (repeat' split) <;> simp
@[simp] theorem ibiCheck_fault (s : State) : (ibiCheck s).fault = s.fault := by
  unfold ibiCheck; (try dsimp only); (repeat' split) <;> simp
@[simp] theorem ibiCheck_svc (s : State) : (ibiCheck s).svc = s.svc := by
  unfold ibiCheck; (try dsimp only); (repeat' split) <;> simp
@[simp] theorem ibiCheck_map (s : State) : (ibiCheck s).map = s.map := by
  unfold ibiCheck; (try dsimp only); (repeat' split) <;> simp

@[simp] theorem raise_pending (s : State) (off flags : Nat) (puts : List (Nat × Nat × Nat)) : (raise s off flags puts).pending = s.pending := by
  unfold raise; (try dsimp only); (repeat' split) <;> simp
@[simp] theorem raise_freeCtr (s : State) (off flags : Nat) (puts : List (Nat × Nat × Nat)) : (raise s off flags puts).freeCtr = s.freeCtr := by
  unfold raise; (try dsimp only); (repeat' split) <;> simp
@[simp] theorem raise_rngCtr (s : State) (off flags : Nat) (puts : List (Nat × Nat × Nat)) : (raise s off flags puts).rngCtr = s.rngCtr := by
  unfold raise; (try dsimp only); (repeat' split) <;> simp
@[simp] theorem raise_pins (s : State) (off flags : Nat) (puts : List (Nat × Nat × Nat)) : (raise s off flags puts).pins = s.pins := by
  unfold raise; (try dsimp only); (repeat' split) <;> simp
@[simp] theorem raise_boot (s : State) (off flags : Nat) (puts : List (Nat × Nat × Nat)) : (raise s off flags puts).boot = s.boot := by
  unfold raise; (try dsimp only); (repeat' split) <;> simp
@[simp] theorem raise_clk (s : State) (off flags : Nat) (puts : List (Nat × Nat × Nat)) : (raise s off flags puts).clk = s.clk := by
  unfold raise; (try dsimp only); (repeat' split) <;> simp
@[simp] theorem raise_weft (s : State) (off flags : Nat) (puts : List (Nat × Nat × Nat)) : (raise s off flags puts).weft = s.weft := by
  unfold raise; (try dsimp only); (repeat' split) <;> simp
@[simp] theorem raise_tier (s : State) (off flags : Nat) (puts : List (Nat × Nat × Nat)) : (raise s off flags puts).tier = s.tier := by
  unfold raise; (try dsimp only); (repeat' split) <;> simp
@[simp] theorem raise_mem (s : State) (off flags : Nat) (puts : List (Nat × Nat × Nat)) : (raise s off flags puts).mem = s.mem := by
  unfold raise; (try dsimp only); (repeat' split) <;> simp
@[simp] theorem raise_plait (s : State) (off flags : Nat) (puts : List (Nat × Nat × Nat)) : (raise s off flags puts).plait = s.plait := by
  unfold raise; (try dsimp only); (repeat' split) <;> simp
@[simp] theorem raise_attn (s : State) (off flags : Nat) (puts : List (Nat × Nat × Nat)) : (raise s off flags puts).attn = s.attn := by
  unfold raise; (try dsimp only); (repeat' split) <;> simp
@[simp] theorem raise_osier (s : State) (off flags : Nat) (puts : List (Nat × Nat × Nat)) : (raise s off flags puts).osier = s.osier := by
  unfold raise; (try dsimp only); (repeat' split) <;> simp
@[simp] theorem raise_coma (s : State) (off flags : Nat) (puts : List (Nat × Nat × Nat)) : (raise s off flags puts).coma = s.coma := by
  unfold raise; (try dsimp only); (repeat' split) <;> simp
@[simp] theorem raise_ports (s : State) (off flags : Nat) (puts : List (Nat × Nat × Nat)) : (raise s off flags puts).ports = s.ports := by
  unfold raise; (try dsimp only); (repeat' split) <;> simp
@[simp] theorem raise_fab (s : State) (off flags : Nat) (puts : List (Nat × Nat × Nat)) : (raise s off flags puts).fab = s.fab := by
  unfold raise; (try dsimp only); (repeat' split) <;> simp
@[simp] theorem raise_qpe (s : State) (off flags : Nat) (puts : List (Nat × Nat × Nat)) : (raise s off flags puts).qpe = s.qpe := by
  unfold raise; (try dsimp only); (repeat' split) <;> simp
@[simp] theorem raise_egr (s : State) (off flags : Nat) (puts : List (Nat × Nat × Nat)) : (raise s off flags puts).egr = s.egr := by
  unfold raise; (try dsimp only); (repeat' split) <;> simp
@[simp] theorem raise_ledger (s : State) (off flags : Nat) (puts : List (Nat × Nat × Nat)) : (raise s off flags puts).ledger = s.ledger := by
  unfold raise; (try dsimp only); (repeat' split) <;> simp
@[simp] theorem raise_brake (s : State) (off flags : Nat) (puts : List (Nat × Nat × Nat)) : (raise s off flags puts).brake = s.brake := by
  unfold raise; (try dsimp only); (repeat' split) <;> simp
@[simp] theorem raise_therm (s : State) (off flags : Nat) (puts : List (Nat × Nat × Nat)) : (raise s off flags puts).therm = s.therm := by
  unfold raise; (try dsimp only); (repeat' split) <;> simp
@[simp] theorem raise_sec (s : State) (off flags : Nat) (puts : List (Nat × Nat × Nat)) : (raise s off flags puts).sec = s.sec := by
  unfold raise; (try dsimp only); (repeat' split) <;> simp
@[simp] theorem raise_fault (s : State) (off flags : Nat) (puts : List (Nat × Nat × Nat)) : (raise s off flags puts).fault = s.fault := by
  unfold raise; (try dsimp only); (repeat' split) <;> simp
@[simp] theorem raise_svc (s : State) (off flags : Nat) (puts : List (Nat × Nat × Nat)) : (raise s off flags puts).svc = s.svc := by
  unfold raise; (try dsimp only); (repeat' split) <;> simp
@[simp] theorem raise_map (s : State) (off flags : Nat) (puts : List (Nat × Nat × Nat)) : (raise s off flags puts).map = s.map := by
  unfold raise; (try dsimp only); (repeat' split) <;> simp

@[simp] theorem setCluster_pending (s : State) (c : Nat) (v : ClusterState) : (setCluster s c v).pending = s.pending := rfl
@[simp] theorem setCluster_out (s : State) (c : Nat) (v : ClusterState) : (setCluster s c v).out = s.out := rfl
@[simp] theorem setCluster_freeCtr (s : State) (c : Nat) (v : ClusterState) : (setCluster s c v).freeCtr = s.freeCtr := rfl
@[simp] theorem setCluster_rngCtr (s : State) (c : Nat) (v : ClusterState) : (setCluster s c v).rngCtr = s.rngCtr := rfl
@[simp] theorem setCluster_pins (s : State) (c : Nat) (v : ClusterState) : (setCluster s c v).pins = s.pins := rfl
@[simp] theorem setCluster_boot (s : State) (c : Nat) (v : ClusterState) : (setCluster s c v).boot = s.boot := rfl
@[simp] theorem setCluster_clk (s : State) (c : Nat) (v : ClusterState) : (setCluster s c v).clk = s.clk := rfl
@[simp] theorem setCluster_regs (s : State) (c : Nat) (v : ClusterState) : (setCluster s c v).regs = s.regs := rfl
@[simp] theorem setCluster_hostq (s : State) (c : Nat) (v : ClusterState) : (setCluster s c v).hostq = s.hostq := rfl
@[simp] theorem setCluster_weft (s : State) (c : Nat) (v : ClusterState) : (setCluster s c v).weft = s.weft := rfl
@[simp] theorem setCluster_tier (s : State) (c : Nat) (v : ClusterState) : (setCluster s c v).tier = s.tier := rfl
@[simp] theorem setCluster_mem (s : State) (c : Nat) (v : ClusterState) : (setCluster s c v).mem = s.mem := rfl
@[simp] theorem setCluster_plait (s : State) (c : Nat) (v : ClusterState) : (setCluster s c v).plait = s.plait := rfl
@[simp] theorem setCluster_osier (s : State) (c : Nat) (v : ClusterState) : (setCluster s c v).osier = s.osier := rfl
@[simp] theorem setCluster_coma (s : State) (c : Nat) (v : ClusterState) : (setCluster s c v).coma = s.coma := rfl
@[simp] theorem setCluster_ports (s : State) (c : Nat) (v : ClusterState) : (setCluster s c v).ports = s.ports := rfl
@[simp] theorem setCluster_fab (s : State) (c : Nat) (v : ClusterState) : (setCluster s c v).fab = s.fab := rfl
@[simp] theorem setCluster_qpe (s : State) (c : Nat) (v : ClusterState) : (setCluster s c v).qpe = s.qpe := rfl
@[simp] theorem setCluster_egr (s : State) (c : Nat) (v : ClusterState) : (setCluster s c v).egr = s.egr := rfl
@[simp] theorem setCluster_ledger (s : State) (c : Nat) (v : ClusterState) : (setCluster s c v).ledger = s.ledger := rfl
@[simp] theorem setCluster_brake (s : State) (c : Nat) (v : ClusterState) : (setCluster s c v).brake = s.brake := rfl
@[simp] theorem setCluster_therm (s : State) (c : Nat) (v : ClusterState) : (setCluster s c v).therm = s.therm := rfl
@[simp] theorem setCluster_sec (s : State) (c : Nat) (v : ClusterState) : (setCluster s c v).sec = s.sec := rfl
@[simp] theorem setCluster_fault (s : State) (c : Nat) (v : ClusterState) : (setCluster s c v).fault = s.fault := rfl
@[simp] theorem setCluster_svc (s : State) (c : Nat) (v : ClusterState) : (setCluster s c v).svc = s.svc := rfl
@[simp] theorem setCluster_map (s : State) (c : Nat) (v : ClusterState) : (setCluster s c v).map = s.map := rfl
@[simp] theorem setCluster_sb (s : State) (c : Nat) (v : ClusterState) : (setCluster s c v).sb = s.sb := rfl

@[simp] theorem setStack_pending (s : State) (i : Nat) (v : StackState) : (setStack s i v).pending = s.pending := rfl
@[simp] theorem setStack_out (s : State) (i : Nat) (v : StackState) : (setStack s i v).out = s.out := rfl
@[simp] theorem setStack_freeCtr (s : State) (i : Nat) (v : StackState) : (setStack s i v).freeCtr = s.freeCtr := rfl
@[simp] theorem setStack_rngCtr (s : State) (i : Nat) (v : StackState) : (setStack s i v).rngCtr = s.rngCtr := rfl
@[simp] theorem setStack_pins (s : State) (i : Nat) (v : StackState) : (setStack s i v).pins = s.pins := rfl
@[simp] theorem setStack_boot (s : State) (i : Nat) (v : StackState) : (setStack s i v).boot = s.boot := rfl
@[simp] theorem setStack_clk (s : State) (i : Nat) (v : StackState) : (setStack s i v).clk = s.clk := rfl
@[simp] theorem setStack_regs (s : State) (i : Nat) (v : StackState) : (setStack s i v).regs = s.regs := rfl
@[simp] theorem setStack_hostq (s : State) (i : Nat) (v : StackState) : (setStack s i v).hostq = s.hostq := rfl
@[simp] theorem setStack_weft (s : State) (i : Nat) (v : StackState) : (setStack s i v).weft = s.weft := rfl
@[simp] theorem setStack_tier (s : State) (i : Nat) (v : StackState) : (setStack s i v).tier = s.tier := rfl
@[simp] theorem setStack_plait (s : State) (i : Nat) (v : StackState) : (setStack s i v).plait = s.plait := rfl
@[simp] theorem setStack_attn (s : State) (i : Nat) (v : StackState) : (setStack s i v).attn = s.attn := rfl
@[simp] theorem setStack_osier (s : State) (i : Nat) (v : StackState) : (setStack s i v).osier = s.osier := rfl
@[simp] theorem setStack_coma (s : State) (i : Nat) (v : StackState) : (setStack s i v).coma = s.coma := rfl
@[simp] theorem setStack_ports (s : State) (i : Nat) (v : StackState) : (setStack s i v).ports = s.ports := rfl
@[simp] theorem setStack_fab (s : State) (i : Nat) (v : StackState) : (setStack s i v).fab = s.fab := rfl
@[simp] theorem setStack_qpe (s : State) (i : Nat) (v : StackState) : (setStack s i v).qpe = s.qpe := rfl
@[simp] theorem setStack_egr (s : State) (i : Nat) (v : StackState) : (setStack s i v).egr = s.egr := rfl
@[simp] theorem setStack_ledger (s : State) (i : Nat) (v : StackState) : (setStack s i v).ledger = s.ledger := rfl
@[simp] theorem setStack_brake (s : State) (i : Nat) (v : StackState) : (setStack s i v).brake = s.brake := rfl
@[simp] theorem setStack_therm (s : State) (i : Nat) (v : StackState) : (setStack s i v).therm = s.therm := rfl
@[simp] theorem setStack_sec (s : State) (i : Nat) (v : StackState) : (setStack s i v).sec = s.sec := rfl
@[simp] theorem setStack_fault (s : State) (i : Nat) (v : StackState) : (setStack s i v).fault = s.fault := rfl
@[simp] theorem setStack_svc (s : State) (i : Nat) (v : StackState) : (setStack s i v).svc = s.svc := rfl
@[simp] theorem setStack_map (s : State) (i : Nat) (v : StackState) : (setStack s i v).map = s.map := rfl
@[simp] theorem setStack_sb (s : State) (i : Nat) (v : StackState) : (setStack s i v).sb = s.sb := rfl

@[simp] theorem setChannel_pending (s : State) (n : Nat) (v : ChannelState) : (setChannel s n v).pending = s.pending := rfl
@[simp] theorem setChannel_out (s : State) (n : Nat) (v : ChannelState) : (setChannel s n v).out = s.out := rfl
@[simp] theorem setChannel_freeCtr (s : State) (n : Nat) (v : ChannelState) : (setChannel s n v).freeCtr = s.freeCtr := rfl
@[simp] theorem setChannel_rngCtr (s : State) (n : Nat) (v : ChannelState) : (setChannel s n v).rngCtr = s.rngCtr := rfl
@[simp] theorem setChannel_pins (s : State) (n : Nat) (v : ChannelState) : (setChannel s n v).pins = s.pins := rfl
@[simp] theorem setChannel_boot (s : State) (n : Nat) (v : ChannelState) : (setChannel s n v).boot = s.boot := rfl
@[simp] theorem setChannel_clk (s : State) (n : Nat) (v : ChannelState) : (setChannel s n v).clk = s.clk := rfl
@[simp] theorem setChannel_regs (s : State) (n : Nat) (v : ChannelState) : (setChannel s n v).regs = s.regs := rfl
@[simp] theorem setChannel_hostq (s : State) (n : Nat) (v : ChannelState) : (setChannel s n v).hostq = s.hostq := rfl
@[simp] theorem setChannel_weft (s : State) (n : Nat) (v : ChannelState) : (setChannel s n v).weft = s.weft := rfl
@[simp] theorem setChannel_tier (s : State) (n : Nat) (v : ChannelState) : (setChannel s n v).tier = s.tier := rfl
@[simp] theorem setChannel_plait (s : State) (n : Nat) (v : ChannelState) : (setChannel s n v).plait = s.plait := rfl
@[simp] theorem setChannel_attn (s : State) (n : Nat) (v : ChannelState) : (setChannel s n v).attn = s.attn := rfl
@[simp] theorem setChannel_osier (s : State) (n : Nat) (v : ChannelState) : (setChannel s n v).osier = s.osier := rfl
@[simp] theorem setChannel_coma (s : State) (n : Nat) (v : ChannelState) : (setChannel s n v).coma = s.coma := rfl
@[simp] theorem setChannel_ports (s : State) (n : Nat) (v : ChannelState) : (setChannel s n v).ports = s.ports := rfl
@[simp] theorem setChannel_fab (s : State) (n : Nat) (v : ChannelState) : (setChannel s n v).fab = s.fab := rfl
@[simp] theorem setChannel_qpe (s : State) (n : Nat) (v : ChannelState) : (setChannel s n v).qpe = s.qpe := rfl
@[simp] theorem setChannel_egr (s : State) (n : Nat) (v : ChannelState) : (setChannel s n v).egr = s.egr := rfl
@[simp] theorem setChannel_ledger (s : State) (n : Nat) (v : ChannelState) : (setChannel s n v).ledger = s.ledger := rfl
@[simp] theorem setChannel_brake (s : State) (n : Nat) (v : ChannelState) : (setChannel s n v).brake = s.brake := rfl
@[simp] theorem setChannel_therm (s : State) (n : Nat) (v : ChannelState) : (setChannel s n v).therm = s.therm := rfl
@[simp] theorem setChannel_sec (s : State) (n : Nat) (v : ChannelState) : (setChannel s n v).sec = s.sec := rfl
@[simp] theorem setChannel_fault (s : State) (n : Nat) (v : ChannelState) : (setChannel s n v).fault = s.fault := rfl
@[simp] theorem setChannel_svc (s : State) (n : Nat) (v : ChannelState) : (setChannel s n v).svc = s.svc := rfl
@[simp] theorem setChannel_map (s : State) (n : Nat) (v : ChannelState) : (setChannel s n v).map = s.map := rfl
@[simp] theorem setChannel_sb (s : State) (n : Nat) (v : ChannelState) : (setChannel s n v).sb = s.sb := rfl

@[simp] theorem setCoreFenced_pending (s : State) (c : Nat) (b : Bool) : (setCoreFenced s c b).pending = s.pending := rfl
@[simp] theorem setCoreFenced_out (s : State) (c : Nat) (b : Bool) : (setCoreFenced s c b).out = s.out := rfl
@[simp] theorem setCoreFenced_freeCtr (s : State) (c : Nat) (b : Bool) : (setCoreFenced s c b).freeCtr = s.freeCtr := rfl
@[simp] theorem setCoreFenced_rngCtr (s : State) (c : Nat) (b : Bool) : (setCoreFenced s c b).rngCtr = s.rngCtr := rfl
@[simp] theorem setCoreFenced_pins (s : State) (c : Nat) (b : Bool) : (setCoreFenced s c b).pins = s.pins := rfl
@[simp] theorem setCoreFenced_boot (s : State) (c : Nat) (b : Bool) : (setCoreFenced s c b).boot = s.boot := rfl
@[simp] theorem setCoreFenced_clk (s : State) (c : Nat) (b : Bool) : (setCoreFenced s c b).clk = s.clk := rfl
@[simp] theorem setCoreFenced_regs (s : State) (c : Nat) (b : Bool) : (setCoreFenced s c b).regs = s.regs := rfl
@[simp] theorem setCoreFenced_hostq (s : State) (c : Nat) (b : Bool) : (setCoreFenced s c b).hostq = s.hostq := rfl
@[simp] theorem setCoreFenced_weft (s : State) (c : Nat) (b : Bool) : (setCoreFenced s c b).weft = s.weft := rfl
@[simp] theorem setCoreFenced_tier (s : State) (c : Nat) (b : Bool) : (setCoreFenced s c b).tier = s.tier := rfl
@[simp] theorem setCoreFenced_mem (s : State) (c : Nat) (b : Bool) : (setCoreFenced s c b).mem = s.mem := rfl
@[simp] theorem setCoreFenced_plait (s : State) (c : Nat) (b : Bool) : (setCoreFenced s c b).plait = s.plait := rfl
@[simp] theorem setCoreFenced_osier (s : State) (c : Nat) (b : Bool) : (setCoreFenced s c b).osier = s.osier := rfl
@[simp] theorem setCoreFenced_coma (s : State) (c : Nat) (b : Bool) : (setCoreFenced s c b).coma = s.coma := rfl
@[simp] theorem setCoreFenced_ports (s : State) (c : Nat) (b : Bool) : (setCoreFenced s c b).ports = s.ports := rfl
@[simp] theorem setCoreFenced_fab (s : State) (c : Nat) (b : Bool) : (setCoreFenced s c b).fab = s.fab := rfl
@[simp] theorem setCoreFenced_qpe (s : State) (c : Nat) (b : Bool) : (setCoreFenced s c b).qpe = s.qpe := rfl
@[simp] theorem setCoreFenced_egr (s : State) (c : Nat) (b : Bool) : (setCoreFenced s c b).egr = s.egr := rfl
@[simp] theorem setCoreFenced_ledger (s : State) (c : Nat) (b : Bool) : (setCoreFenced s c b).ledger = s.ledger := rfl
@[simp] theorem setCoreFenced_brake (s : State) (c : Nat) (b : Bool) : (setCoreFenced s c b).brake = s.brake := rfl
@[simp] theorem setCoreFenced_therm (s : State) (c : Nat) (b : Bool) : (setCoreFenced s c b).therm = s.therm := rfl
@[simp] theorem setCoreFenced_sec (s : State) (c : Nat) (b : Bool) : (setCoreFenced s c b).sec = s.sec := rfl
@[simp] theorem setCoreFenced_fault (s : State) (c : Nat) (b : Bool) : (setCoreFenced s c b).fault = s.fault := rfl
@[simp] theorem setCoreFenced_svc (s : State) (c : Nat) (b : Bool) : (setCoreFenced s c b).svc = s.svc := rfl
@[simp] theorem setCoreFenced_map (s : State) (c : Nat) (b : Bool) : (setCoreFenced s c b).map = s.map := rfl
@[simp] theorem setCoreFenced_sb (s : State) (c : Nat) (b : Bool) : (setCoreFenced s c b).sb = s.sb := rfl

@[simp] theorem setPort_pending (s : State) (p : Nat) (v : Port) : (setPort s p v).pending = s.pending := rfl
@[simp] theorem setPort_out (s : State) (p : Nat) (v : Port) : (setPort s p v).out = s.out := rfl
@[simp] theorem setPort_freeCtr (s : State) (p : Nat) (v : Port) : (setPort s p v).freeCtr = s.freeCtr := rfl
@[simp] theorem setPort_rngCtr (s : State) (p : Nat) (v : Port) : (setPort s p v).rngCtr = s.rngCtr := rfl
@[simp] theorem setPort_pins (s : State) (p : Nat) (v : Port) : (setPort s p v).pins = s.pins := rfl
@[simp] theorem setPort_boot (s : State) (p : Nat) (v : Port) : (setPort s p v).boot = s.boot := rfl
@[simp] theorem setPort_clk (s : State) (p : Nat) (v : Port) : (setPort s p v).clk = s.clk := rfl
@[simp] theorem setPort_regs (s : State) (p : Nat) (v : Port) : (setPort s p v).regs = s.regs := rfl
@[simp] theorem setPort_hostq (s : State) (p : Nat) (v : Port) : (setPort s p v).hostq = s.hostq := rfl
@[simp] theorem setPort_weft (s : State) (p : Nat) (v : Port) : (setPort s p v).weft = s.weft := rfl
@[simp] theorem setPort_tier (s : State) (p : Nat) (v : Port) : (setPort s p v).tier = s.tier := rfl
@[simp] theorem setPort_mem (s : State) (p : Nat) (v : Port) : (setPort s p v).mem = s.mem := rfl
@[simp] theorem setPort_plait (s : State) (p : Nat) (v : Port) : (setPort s p v).plait = s.plait := rfl
@[simp] theorem setPort_attn (s : State) (p : Nat) (v : Port) : (setPort s p v).attn = s.attn := rfl
@[simp] theorem setPort_osier (s : State) (p : Nat) (v : Port) : (setPort s p v).osier = s.osier := rfl
@[simp] theorem setPort_coma (s : State) (p : Nat) (v : Port) : (setPort s p v).coma = s.coma := rfl
@[simp] theorem setPort_fab (s : State) (p : Nat) (v : Port) : (setPort s p v).fab = s.fab := rfl
@[simp] theorem setPort_qpe (s : State) (p : Nat) (v : Port) : (setPort s p v).qpe = s.qpe := rfl
@[simp] theorem setPort_egr (s : State) (p : Nat) (v : Port) : (setPort s p v).egr = s.egr := rfl
@[simp] theorem setPort_ledger (s : State) (p : Nat) (v : Port) : (setPort s p v).ledger = s.ledger := rfl
@[simp] theorem setPort_brake (s : State) (p : Nat) (v : Port) : (setPort s p v).brake = s.brake := rfl
@[simp] theorem setPort_therm (s : State) (p : Nat) (v : Port) : (setPort s p v).therm = s.therm := rfl
@[simp] theorem setPort_sec (s : State) (p : Nat) (v : Port) : (setPort s p v).sec = s.sec := rfl
@[simp] theorem setPort_fault (s : State) (p : Nat) (v : Port) : (setPort s p v).fault = s.fault := rfl
@[simp] theorem setPort_svc (s : State) (p : Nat) (v : Port) : (setPort s p v).svc = s.svc := rfl
@[simp] theorem setPort_map (s : State) (p : Nat) (v : Port) : (setPort s p v).map = s.map := rfl
@[simp] theorem setPort_sb (s : State) (p : Nat) (v : Port) : (setPort s p v).sb = s.sb := rfl

@[simp] theorem setUnit_pending (s : State) (u : Nat) (v : OUnit) : (setUnit s u v).pending = s.pending := rfl
@[simp] theorem setUnit_out (s : State) (u : Nat) (v : OUnit) : (setUnit s u v).out = s.out := rfl
@[simp] theorem setUnit_freeCtr (s : State) (u : Nat) (v : OUnit) : (setUnit s u v).freeCtr = s.freeCtr := rfl
@[simp] theorem setUnit_rngCtr (s : State) (u : Nat) (v : OUnit) : (setUnit s u v).rngCtr = s.rngCtr := rfl
@[simp] theorem setUnit_pins (s : State) (u : Nat) (v : OUnit) : (setUnit s u v).pins = s.pins := rfl
@[simp] theorem setUnit_boot (s : State) (u : Nat) (v : OUnit) : (setUnit s u v).boot = s.boot := rfl
@[simp] theorem setUnit_clk (s : State) (u : Nat) (v : OUnit) : (setUnit s u v).clk = s.clk := rfl
@[simp] theorem setUnit_regs (s : State) (u : Nat) (v : OUnit) : (setUnit s u v).regs = s.regs := rfl
@[simp] theorem setUnit_hostq (s : State) (u : Nat) (v : OUnit) : (setUnit s u v).hostq = s.hostq := rfl
@[simp] theorem setUnit_weft (s : State) (u : Nat) (v : OUnit) : (setUnit s u v).weft = s.weft := rfl
@[simp] theorem setUnit_tier (s : State) (u : Nat) (v : OUnit) : (setUnit s u v).tier = s.tier := rfl
@[simp] theorem setUnit_mem (s : State) (u : Nat) (v : OUnit) : (setUnit s u v).mem = s.mem := rfl
@[simp] theorem setUnit_plait (s : State) (u : Nat) (v : OUnit) : (setUnit s u v).plait = s.plait := rfl
@[simp] theorem setUnit_attn (s : State) (u : Nat) (v : OUnit) : (setUnit s u v).attn = s.attn := rfl
@[simp] theorem setUnit_coma (s : State) (u : Nat) (v : OUnit) : (setUnit s u v).coma = s.coma := rfl
@[simp] theorem setUnit_ports (s : State) (u : Nat) (v : OUnit) : (setUnit s u v).ports = s.ports := rfl
@[simp] theorem setUnit_fab (s : State) (u : Nat) (v : OUnit) : (setUnit s u v).fab = s.fab := rfl
@[simp] theorem setUnit_qpe (s : State) (u : Nat) (v : OUnit) : (setUnit s u v).qpe = s.qpe := rfl
@[simp] theorem setUnit_egr (s : State) (u : Nat) (v : OUnit) : (setUnit s u v).egr = s.egr := rfl
@[simp] theorem setUnit_ledger (s : State) (u : Nat) (v : OUnit) : (setUnit s u v).ledger = s.ledger := rfl
@[simp] theorem setUnit_brake (s : State) (u : Nat) (v : OUnit) : (setUnit s u v).brake = s.brake := rfl
@[simp] theorem setUnit_therm (s : State) (u : Nat) (v : OUnit) : (setUnit s u v).therm = s.therm := rfl
@[simp] theorem setUnit_sec (s : State) (u : Nat) (v : OUnit) : (setUnit s u v).sec = s.sec := rfl
@[simp] theorem setUnit_fault (s : State) (u : Nat) (v : OUnit) : (setUnit s u v).fault = s.fault := rfl
@[simp] theorem setUnit_svc (s : State) (u : Nat) (v : OUnit) : (setUnit s u v).svc = s.svc := rfl
@[simp] theorem setUnit_map (s : State) (u : Nat) (v : OUnit) : (setUnit s u v).map = s.map := rfl
@[simp] theorem setUnit_sb (s : State) (u : Nat) (v : OUnit) : (setUnit s u v).sb = s.sb := rfl

@[simp] theorem setCtx_pending (s : State) (c : Nat) (v : Ctx) : (setCtx s c v).pending = s.pending := rfl
@[simp] theorem setCtx_out (s : State) (c : Nat) (v : Ctx) : (setCtx s c v).out = s.out := rfl
@[simp] theorem setCtx_freeCtr (s : State) (c : Nat) (v : Ctx) : (setCtx s c v).freeCtr = s.freeCtr := rfl
@[simp] theorem setCtx_rngCtr (s : State) (c : Nat) (v : Ctx) : (setCtx s c v).rngCtr = s.rngCtr := rfl
@[simp] theorem setCtx_pins (s : State) (c : Nat) (v : Ctx) : (setCtx s c v).pins = s.pins := rfl
@[simp] theorem setCtx_boot (s : State) (c : Nat) (v : Ctx) : (setCtx s c v).boot = s.boot := rfl
@[simp] theorem setCtx_clk (s : State) (c : Nat) (v : Ctx) : (setCtx s c v).clk = s.clk := rfl
@[simp] theorem setCtx_regs (s : State) (c : Nat) (v : Ctx) : (setCtx s c v).regs = s.regs := rfl
@[simp] theorem setCtx_hostq (s : State) (c : Nat) (v : Ctx) : (setCtx s c v).hostq = s.hostq := rfl
@[simp] theorem setCtx_weft (s : State) (c : Nat) (v : Ctx) : (setCtx s c v).weft = s.weft := rfl
@[simp] theorem setCtx_tier (s : State) (c : Nat) (v : Ctx) : (setCtx s c v).tier = s.tier := rfl
@[simp] theorem setCtx_mem (s : State) (c : Nat) (v : Ctx) : (setCtx s c v).mem = s.mem := rfl
@[simp] theorem setCtx_plait (s : State) (c : Nat) (v : Ctx) : (setCtx s c v).plait = s.plait := rfl
@[simp] theorem setCtx_attn (s : State) (c : Nat) (v : Ctx) : (setCtx s c v).attn = s.attn := rfl
@[simp] theorem setCtx_osier (s : State) (c : Nat) (v : Ctx) : (setCtx s c v).osier = s.osier := rfl
@[simp] theorem setCtx_coma (s : State) (c : Nat) (v : Ctx) : (setCtx s c v).coma = s.coma := rfl
@[simp] theorem setCtx_ports (s : State) (c : Nat) (v : Ctx) : (setCtx s c v).ports = s.ports := rfl
@[simp] theorem setCtx_fab (s : State) (c : Nat) (v : Ctx) : (setCtx s c v).fab = s.fab := rfl
@[simp] theorem setCtx_qpe (s : State) (c : Nat) (v : Ctx) : (setCtx s c v).qpe = s.qpe := rfl
@[simp] theorem setCtx_egr (s : State) (c : Nat) (v : Ctx) : (setCtx s c v).egr = s.egr := rfl
@[simp] theorem setCtx_ledger (s : State) (c : Nat) (v : Ctx) : (setCtx s c v).ledger = s.ledger := rfl
@[simp] theorem setCtx_brake (s : State) (c : Nat) (v : Ctx) : (setCtx s c v).brake = s.brake := rfl
@[simp] theorem setCtx_therm (s : State) (c : Nat) (v : Ctx) : (setCtx s c v).therm = s.therm := rfl
@[simp] theorem setCtx_fault (s : State) (c : Nat) (v : Ctx) : (setCtx s c v).fault = s.fault := rfl
@[simp] theorem setCtx_svc (s : State) (c : Nat) (v : Ctx) : (setCtx s c v).svc = s.svc := rfl
@[simp] theorem setCtx_map (s : State) (c : Nat) (v : Ctx) : (setCtx s c v).map = s.map := rfl
@[simp] theorem setCtx_sb (s : State) (c : Nat) (v : Ctx) : (setCtx s c v).sb = s.sb := rfl

@[simp] theorem setKey_pending (s : State) (c : Nat) (v : KeySlot) : (setKey s c v).pending = s.pending := rfl
@[simp] theorem setKey_out (s : State) (c : Nat) (v : KeySlot) : (setKey s c v).out = s.out := rfl
@[simp] theorem setKey_freeCtr (s : State) (c : Nat) (v : KeySlot) : (setKey s c v).freeCtr = s.freeCtr := rfl
@[simp] theorem setKey_rngCtr (s : State) (c : Nat) (v : KeySlot) : (setKey s c v).rngCtr = s.rngCtr := rfl
@[simp] theorem setKey_pins (s : State) (c : Nat) (v : KeySlot) : (setKey s c v).pins = s.pins := rfl
@[simp] theorem setKey_boot (s : State) (c : Nat) (v : KeySlot) : (setKey s c v).boot = s.boot := rfl
@[simp] theorem setKey_clk (s : State) (c : Nat) (v : KeySlot) : (setKey s c v).clk = s.clk := rfl
@[simp] theorem setKey_regs (s : State) (c : Nat) (v : KeySlot) : (setKey s c v).regs = s.regs := rfl
@[simp] theorem setKey_hostq (s : State) (c : Nat) (v : KeySlot) : (setKey s c v).hostq = s.hostq := rfl
@[simp] theorem setKey_weft (s : State) (c : Nat) (v : KeySlot) : (setKey s c v).weft = s.weft := rfl
@[simp] theorem setKey_tier (s : State) (c : Nat) (v : KeySlot) : (setKey s c v).tier = s.tier := rfl
@[simp] theorem setKey_mem (s : State) (c : Nat) (v : KeySlot) : (setKey s c v).mem = s.mem := rfl
@[simp] theorem setKey_plait (s : State) (c : Nat) (v : KeySlot) : (setKey s c v).plait = s.plait := rfl
@[simp] theorem setKey_attn (s : State) (c : Nat) (v : KeySlot) : (setKey s c v).attn = s.attn := rfl
@[simp] theorem setKey_osier (s : State) (c : Nat) (v : KeySlot) : (setKey s c v).osier = s.osier := rfl
@[simp] theorem setKey_coma (s : State) (c : Nat) (v : KeySlot) : (setKey s c v).coma = s.coma := rfl
@[simp] theorem setKey_ports (s : State) (c : Nat) (v : KeySlot) : (setKey s c v).ports = s.ports := rfl
@[simp] theorem setKey_fab (s : State) (c : Nat) (v : KeySlot) : (setKey s c v).fab = s.fab := rfl
@[simp] theorem setKey_qpe (s : State) (c : Nat) (v : KeySlot) : (setKey s c v).qpe = s.qpe := rfl
@[simp] theorem setKey_egr (s : State) (c : Nat) (v : KeySlot) : (setKey s c v).egr = s.egr := rfl
@[simp] theorem setKey_ledger (s : State) (c : Nat) (v : KeySlot) : (setKey s c v).ledger = s.ledger := rfl
@[simp] theorem setKey_brake (s : State) (c : Nat) (v : KeySlot) : (setKey s c v).brake = s.brake := rfl
@[simp] theorem setKey_therm (s : State) (c : Nat) (v : KeySlot) : (setKey s c v).therm = s.therm := rfl
@[simp] theorem setKey_fault (s : State) (c : Nat) (v : KeySlot) : (setKey s c v).fault = s.fault := rfl
@[simp] theorem setKey_svc (s : State) (c : Nat) (v : KeySlot) : (setKey s c v).svc = s.svc := rfl
@[simp] theorem setKey_map (s : State) (c : Nat) (v : KeySlot) : (setKey s c v).map = s.map := rfl
@[simp] theorem setKey_sb (s : State) (c : Nat) (v : KeySlot) : (setKey s c v).sb = s.sb := rfl

@[simp] theorem setRing_pending (s : State) (r : Nat) (v : Ring) : (setRing s r v).pending = s.pending := rfl
@[simp] theorem setRing_out (s : State) (r : Nat) (v : Ring) : (setRing s r v).out = s.out := rfl
@[simp] theorem setRing_freeCtr (s : State) (r : Nat) (v : Ring) : (setRing s r v).freeCtr = s.freeCtr := rfl
@[simp] theorem setRing_rngCtr (s : State) (r : Nat) (v : Ring) : (setRing s r v).rngCtr = s.rngCtr := rfl
@[simp] theorem setRing_pins (s : State) (r : Nat) (v : Ring) : (setRing s r v).pins = s.pins := rfl
@[simp] theorem setRing_boot (s : State) (r : Nat) (v : Ring) : (setRing s r v).boot = s.boot := rfl
@[simp] theorem setRing_clk (s : State) (r : Nat) (v : Ring) : (setRing s r v).clk = s.clk := rfl
@[simp] theorem setRing_regs (s : State) (r : Nat) (v : Ring) : (setRing s r v).regs = s.regs := rfl
@[simp] theorem setRing_weft (s : State) (r : Nat) (v : Ring) : (setRing s r v).weft = s.weft := rfl
@[simp] theorem setRing_tier (s : State) (r : Nat) (v : Ring) : (setRing s r v).tier = s.tier := rfl
@[simp] theorem setRing_mem (s : State) (r : Nat) (v : Ring) : (setRing s r v).mem = s.mem := rfl
@[simp] theorem setRing_plait (s : State) (r : Nat) (v : Ring) : (setRing s r v).plait = s.plait := rfl
@[simp] theorem setRing_attn (s : State) (r : Nat) (v : Ring) : (setRing s r v).attn = s.attn := rfl
@[simp] theorem setRing_osier (s : State) (r : Nat) (v : Ring) : (setRing s r v).osier = s.osier := rfl
@[simp] theorem setRing_coma (s : State) (r : Nat) (v : Ring) : (setRing s r v).coma = s.coma := rfl
@[simp] theorem setRing_ports (s : State) (r : Nat) (v : Ring) : (setRing s r v).ports = s.ports := rfl
@[simp] theorem setRing_fab (s : State) (r : Nat) (v : Ring) : (setRing s r v).fab = s.fab := rfl
@[simp] theorem setRing_qpe (s : State) (r : Nat) (v : Ring) : (setRing s r v).qpe = s.qpe := rfl
@[simp] theorem setRing_egr (s : State) (r : Nat) (v : Ring) : (setRing s r v).egr = s.egr := rfl
@[simp] theorem setRing_ledger (s : State) (r : Nat) (v : Ring) : (setRing s r v).ledger = s.ledger := rfl
@[simp] theorem setRing_brake (s : State) (r : Nat) (v : Ring) : (setRing s r v).brake = s.brake := rfl
@[simp] theorem setRing_therm (s : State) (r : Nat) (v : Ring) : (setRing s r v).therm = s.therm := rfl
@[simp] theorem setRing_sec (s : State) (r : Nat) (v : Ring) : (setRing s r v).sec = s.sec := rfl
@[simp] theorem setRing_fault (s : State) (r : Nat) (v : Ring) : (setRing s r v).fault = s.fault := rfl
@[simp] theorem setRing_svc (s : State) (r : Nat) (v : Ring) : (setRing s r v).svc = s.svc := rfl
@[simp] theorem setRing_map (s : State) (r : Nat) (v : Ring) : (setRing s r v).map = s.map := rfl
@[simp] theorem setRing_sb (s : State) (r : Nat) (v : Ring) : (setRing s r v).sb = s.sb := rfl

@[simp] theorem svcPush_pending (s : State) (type signed : Nat) (body : Bytes) (first : Bool) : (svcPush s type signed body first).pending = s.pending := rfl
@[simp] theorem svcPush_out (s : State) (type signed : Nat) (body : Bytes) (first : Bool) : (svcPush s type signed body first).out = s.out := rfl
@[simp] theorem svcPush_freeCtr (s : State) (type signed : Nat) (body : Bytes) (first : Bool) : (svcPush s type signed body first).freeCtr = s.freeCtr := rfl
@[simp] theorem svcPush_pins (s : State) (type signed : Nat) (body : Bytes) (first : Bool) : (svcPush s type signed body first).pins = s.pins := rfl
@[simp] theorem svcPush_boot (s : State) (type signed : Nat) (body : Bytes) (first : Bool) : (svcPush s type signed body first).boot = s.boot := rfl
@[simp] theorem svcPush_clk (s : State) (type signed : Nat) (body : Bytes) (first : Bool) : (svcPush s type signed body first).clk = s.clk := rfl
@[simp] theorem svcPush_regs (s : State) (type signed : Nat) (body : Bytes) (first : Bool) : (svcPush s type signed body first).regs = s.regs := rfl
@[simp] theorem svcPush_hostq (s : State) (type signed : Nat) (body : Bytes) (first : Bool) : (svcPush s type signed body first).hostq = s.hostq := rfl
@[simp] theorem svcPush_weft (s : State) (type signed : Nat) (body : Bytes) (first : Bool) : (svcPush s type signed body first).weft = s.weft := rfl
@[simp] theorem svcPush_tier (s : State) (type signed : Nat) (body : Bytes) (first : Bool) : (svcPush s type signed body first).tier = s.tier := rfl
@[simp] theorem svcPush_mem (s : State) (type signed : Nat) (body : Bytes) (first : Bool) : (svcPush s type signed body first).mem = s.mem := rfl
@[simp] theorem svcPush_plait (s : State) (type signed : Nat) (body : Bytes) (first : Bool) : (svcPush s type signed body first).plait = s.plait := rfl
@[simp] theorem svcPush_attn (s : State) (type signed : Nat) (body : Bytes) (first : Bool) : (svcPush s type signed body first).attn = s.attn := rfl
@[simp] theorem svcPush_osier (s : State) (type signed : Nat) (body : Bytes) (first : Bool) : (svcPush s type signed body first).osier = s.osier := rfl
@[simp] theorem svcPush_coma (s : State) (type signed : Nat) (body : Bytes) (first : Bool) : (svcPush s type signed body first).coma = s.coma := rfl
@[simp] theorem svcPush_ports (s : State) (type signed : Nat) (body : Bytes) (first : Bool) : (svcPush s type signed body first).ports = s.ports := rfl
@[simp] theorem svcPush_fab (s : State) (type signed : Nat) (body : Bytes) (first : Bool) : (svcPush s type signed body first).fab = s.fab := rfl
@[simp] theorem svcPush_qpe (s : State) (type signed : Nat) (body : Bytes) (first : Bool) : (svcPush s type signed body first).qpe = s.qpe := rfl
@[simp] theorem svcPush_egr (s : State) (type signed : Nat) (body : Bytes) (first : Bool) : (svcPush s type signed body first).egr = s.egr := rfl
@[simp] theorem svcPush_ledger (s : State) (type signed : Nat) (body : Bytes) (first : Bool) : (svcPush s type signed body first).ledger = s.ledger := rfl
@[simp] theorem svcPush_brake (s : State) (type signed : Nat) (body : Bytes) (first : Bool) : (svcPush s type signed body first).brake = s.brake := rfl
@[simp] theorem svcPush_therm (s : State) (type signed : Nat) (body : Bytes) (first : Bool) : (svcPush s type signed body first).therm = s.therm := rfl
@[simp] theorem svcPush_sec (s : State) (type signed : Nat) (body : Bytes) (first : Bool) : (svcPush s type signed body first).sec = s.sec := rfl
@[simp] theorem svcPush_fault (s : State) (type signed : Nat) (body : Bytes) (first : Bool) : (svcPush s type signed body first).fault = s.fault := rfl
@[simp] theorem svcPush_map (s : State) (type signed : Nat) (body : Bytes) (first : Bool) : (svcPush s type signed body first).map = s.map := rfl
@[simp] theorem svcPush_sb (s : State) (type signed : Nat) (body : Bytes) (first : Bool) : (svcPush s type signed body first).sb = s.sb := rfl

@[simp] theorem gradeEval_pending (s : State) : (gradeEval s).pending = s.pending := by
  unfold gradeEval; (try dsimp only); (repeat' split) <;> simp
@[simp] theorem gradeEval_out (s : State) : (gradeEval s).out = s.out := by
  unfold gradeEval; (try dsimp only); (repeat' split) <;> simp
@[simp] theorem gradeEval_freeCtr (s : State) : (gradeEval s).freeCtr = s.freeCtr := by
  unfold gradeEval; (try dsimp only); (repeat' split) <;> simp
@[simp] theorem gradeEval_pins (s : State) : (gradeEval s).pins = s.pins := by
  unfold gradeEval; (try dsimp only); (repeat' split) <;> simp
@[simp] theorem gradeEval_boot (s : State) : (gradeEval s).boot = s.boot := by
  unfold gradeEval; (try dsimp only); (repeat' split) <;> simp
@[simp] theorem gradeEval_clk (s : State) : (gradeEval s).clk = s.clk := by
  unfold gradeEval; (try dsimp only); (repeat' split) <;> simp
@[simp] theorem gradeEval_regs (s : State) : (gradeEval s).regs = s.regs := by
  unfold gradeEval; (try dsimp only); (repeat' split) <;> simp
@[simp] theorem gradeEval_hostq (s : State) : (gradeEval s).hostq = s.hostq := by
  unfold gradeEval; (try dsimp only); (repeat' split) <;> simp
@[simp] theorem gradeEval_weft (s : State) : (gradeEval s).weft = s.weft := by
  unfold gradeEval; (try dsimp only); (repeat' split) <;> simp
@[simp] theorem gradeEval_tier (s : State) : (gradeEval s).tier = s.tier := by
  unfold gradeEval; (try dsimp only); (repeat' split) <;> simp
@[simp] theorem gradeEval_mem (s : State) : (gradeEval s).mem = s.mem := by
  unfold gradeEval; (try dsimp only); (repeat' split) <;> simp
@[simp] theorem gradeEval_plait (s : State) : (gradeEval s).plait = s.plait := by
  unfold gradeEval; (try dsimp only); (repeat' split) <;> simp
@[simp] theorem gradeEval_attn (s : State) : (gradeEval s).attn = s.attn := by
  unfold gradeEval; (try dsimp only); (repeat' split) <;> simp
@[simp] theorem gradeEval_osier (s : State) : (gradeEval s).osier = s.osier := by
  unfold gradeEval; (try dsimp only); (repeat' split) <;> simp
@[simp] theorem gradeEval_coma (s : State) : (gradeEval s).coma = s.coma := by
  unfold gradeEval; (try dsimp only); (repeat' split) <;> simp
@[simp] theorem gradeEval_ports (s : State) : (gradeEval s).ports = s.ports := by
  unfold gradeEval; (try dsimp only); (repeat' split) <;> simp
@[simp] theorem gradeEval_fab (s : State) : (gradeEval s).fab = s.fab := by
  unfold gradeEval; (try dsimp only); (repeat' split) <;> simp
@[simp] theorem gradeEval_qpe (s : State) : (gradeEval s).qpe = s.qpe := by
  unfold gradeEval; (try dsimp only); (repeat' split) <;> simp
@[simp] theorem gradeEval_egr (s : State) : (gradeEval s).egr = s.egr := by
  unfold gradeEval; (try dsimp only); (repeat' split) <;> simp
@[simp] theorem gradeEval_ledger (s : State) : (gradeEval s).ledger = s.ledger := by
  unfold gradeEval; (try dsimp only); (repeat' split) <;> simp
@[simp] theorem gradeEval_brake (s : State) : (gradeEval s).brake = s.brake := by
  unfold gradeEval; (try dsimp only); (repeat' split) <;> simp
@[simp] theorem gradeEval_therm (s : State) : (gradeEval s).therm = s.therm := by
  unfold gradeEval; (try dsimp only); (repeat' split) <;> simp
@[simp] theorem gradeEval_sec (s : State) : (gradeEval s).sec = s.sec := by
  unfold gradeEval; (try dsimp only); (repeat' split) <;> simp
@[simp] theorem gradeEval_fault (s : State) : (gradeEval s).fault = s.fault := by
  unfold gradeEval; (try dsimp only); (repeat' split) <;> simp
@[simp] theorem gradeEval_map (s : State) : (gradeEval s).map = s.map := by
  unfold gradeEval; (try dsimp only); (repeat' split) <;> simp
@[simp] theorem gradeEval_sb (s : State) : (gradeEval s).sb = s.sb := by
  unfold gradeEval; (try dsimp only); (repeat' split) <;> simp

@[simp] theorem svcRoom_pending (s : State) : (svcRoom s).pending = s.pending := by
  unfold svcRoom; (try dsimp only); (repeat' split) <;> simp
@[simp] theorem svcRoom_out (s : State) : (svcRoom s).out = s.out := by
  unfold svcRoom; (try dsimp only); (repeat' split) <;> simp
@[simp] theorem svcRoom_freeCtr (s : State) : (svcRoom s).freeCtr = s.freeCtr := by
  unfold svcRoom; (try dsimp only); (repeat' split) <;> simp
@[simp] theorem svcRoom_pins (s : State) : (svcRoom s).pins = s.pins := by
  unfold svcRoom; (try dsimp only); (repeat' split) <;> simp
@[simp] theorem svcRoom_boot (s : State) : (svcRoom s).boot = s.boot := by
  unfold svcRoom; (try dsimp only); (repeat' split) <;> simp
@[simp] theorem svcRoom_clk (s : State) : (svcRoom s).clk = s.clk := by
  unfold svcRoom; (try dsimp only); (repeat' split) <;> simp
@[simp] theorem svcRoom_regs (s : State) : (svcRoom s).regs = s.regs := by
  unfold svcRoom; (try dsimp only); (repeat' split) <;> simp
@[simp] theorem svcRoom_hostq (s : State) : (svcRoom s).hostq = s.hostq := by
  unfold svcRoom; (try dsimp only); (repeat' split) <;> simp
@[simp] theorem svcRoom_weft (s : State) : (svcRoom s).weft = s.weft := by
  unfold svcRoom; (try dsimp only); (repeat' split) <;> simp
@[simp] theorem svcRoom_tier (s : State) : (svcRoom s).tier = s.tier := by
  unfold svcRoom; (try dsimp only); (repeat' split) <;> simp
@[simp] theorem svcRoom_mem (s : State) : (svcRoom s).mem = s.mem := by
  unfold svcRoom; (try dsimp only); (repeat' split) <;> simp
@[simp] theorem svcRoom_plait (s : State) : (svcRoom s).plait = s.plait := by
  unfold svcRoom; (try dsimp only); (repeat' split) <;> simp
@[simp] theorem svcRoom_attn (s : State) : (svcRoom s).attn = s.attn := by
  unfold svcRoom; (try dsimp only); (repeat' split) <;> simp
@[simp] theorem svcRoom_osier (s : State) : (svcRoom s).osier = s.osier := by
  unfold svcRoom; (try dsimp only); (repeat' split) <;> simp
@[simp] theorem svcRoom_coma (s : State) : (svcRoom s).coma = s.coma := by
  unfold svcRoom; (try dsimp only); (repeat' split) <;> simp
@[simp] theorem svcRoom_ports (s : State) : (svcRoom s).ports = s.ports := by
  unfold svcRoom; (try dsimp only); (repeat' split) <;> simp
@[simp] theorem svcRoom_fab (s : State) : (svcRoom s).fab = s.fab := by
  unfold svcRoom; (try dsimp only); (repeat' split) <;> simp
@[simp] theorem svcRoom_qpe (s : State) : (svcRoom s).qpe = s.qpe := by
  unfold svcRoom; (try dsimp only); (repeat' split) <;> simp
@[simp] theorem svcRoom_egr (s : State) : (svcRoom s).egr = s.egr := by
  unfold svcRoom; (try dsimp only); (repeat' split) <;> simp
@[simp] theorem svcRoom_ledger (s : State) : (svcRoom s).ledger = s.ledger := by
  unfold svcRoom; (try dsimp only); (repeat' split) <;> simp
@[simp] theorem svcRoom_brake (s : State) : (svcRoom s).brake = s.brake := by
  unfold svcRoom; (try dsimp only); (repeat' split) <;> simp
@[simp] theorem svcRoom_therm (s : State) : (svcRoom s).therm = s.therm := by
  unfold svcRoom; (try dsimp only); (repeat' split) <;> simp
@[simp] theorem svcRoom_sec (s : State) : (svcRoom s).sec = s.sec := by
  unfold svcRoom; (try dsimp only); (repeat' split) <;> simp
@[simp] theorem svcRoom_fault (s : State) : (svcRoom s).fault = s.fault := by
  unfold svcRoom; (try dsimp only); (repeat' split) <;> simp
@[simp] theorem svcRoom_map (s : State) : (svcRoom s).map = s.map := by
  unfold svcRoom; (try dsimp only); (repeat' split) <;> simp
@[simp] theorem svcRoom_sb (s : State) : (svcRoom s).sb = s.sb := by
  unfold svcRoom; (try dsimp only); (repeat' split) <;> simp

@[simp] theorem svcWrite_pending (s : State) (type : Nat) (body : Bytes) : (svcWrite s type body).pending = s.pending := by
  unfold svcWrite; (try dsimp only); (repeat' split) <;> simp
@[simp] theorem svcWrite_out (s : State) (type : Nat) (body : Bytes) : (svcWrite s type body).out = s.out := by
  unfold svcWrite; (try dsimp only); (repeat' split) <;> simp
@[simp] theorem svcWrite_freeCtr (s : State) (type : Nat) (body : Bytes) : (svcWrite s type body).freeCtr = s.freeCtr := by
  unfold svcWrite; (try dsimp only); (repeat' split) <;> simp
@[simp] theorem svcWrite_pins (s : State) (type : Nat) (body : Bytes) : (svcWrite s type body).pins = s.pins := by
  unfold svcWrite; (try dsimp only); (repeat' split) <;> simp
@[simp] theorem svcWrite_boot (s : State) (type : Nat) (body : Bytes) : (svcWrite s type body).boot = s.boot := by
  unfold svcWrite; (try dsimp only); (repeat' split) <;> simp
@[simp] theorem svcWrite_clk (s : State) (type : Nat) (body : Bytes) : (svcWrite s type body).clk = s.clk := by
  unfold svcWrite; (try dsimp only); (repeat' split) <;> simp
@[simp] theorem svcWrite_regs (s : State) (type : Nat) (body : Bytes) : (svcWrite s type body).regs = s.regs := by
  unfold svcWrite; (try dsimp only); (repeat' split) <;> simp
@[simp] theorem svcWrite_hostq (s : State) (type : Nat) (body : Bytes) : (svcWrite s type body).hostq = s.hostq := by
  unfold svcWrite; (try dsimp only); (repeat' split) <;> simp
@[simp] theorem svcWrite_weft (s : State) (type : Nat) (body : Bytes) : (svcWrite s type body).weft = s.weft := by
  unfold svcWrite; (try dsimp only); (repeat' split) <;> simp
@[simp] theorem svcWrite_tier (s : State) (type : Nat) (body : Bytes) : (svcWrite s type body).tier = s.tier := by
  unfold svcWrite; (try dsimp only); (repeat' split) <;> simp
@[simp] theorem svcWrite_mem (s : State) (type : Nat) (body : Bytes) : (svcWrite s type body).mem = s.mem := by
  unfold svcWrite; (try dsimp only); (repeat' split) <;> simp
@[simp] theorem svcWrite_plait (s : State) (type : Nat) (body : Bytes) : (svcWrite s type body).plait = s.plait := by
  unfold svcWrite; (try dsimp only); (repeat' split) <;> simp
@[simp] theorem svcWrite_attn (s : State) (type : Nat) (body : Bytes) : (svcWrite s type body).attn = s.attn := by
  unfold svcWrite; (try dsimp only); (repeat' split) <;> simp
@[simp] theorem svcWrite_osier (s : State) (type : Nat) (body : Bytes) : (svcWrite s type body).osier = s.osier := by
  unfold svcWrite; (try dsimp only); (repeat' split) <;> simp
@[simp] theorem svcWrite_coma (s : State) (type : Nat) (body : Bytes) : (svcWrite s type body).coma = s.coma := by
  unfold svcWrite; (try dsimp only); (repeat' split) <;> simp
@[simp] theorem svcWrite_ports (s : State) (type : Nat) (body : Bytes) : (svcWrite s type body).ports = s.ports := by
  unfold svcWrite; (try dsimp only); (repeat' split) <;> simp
@[simp] theorem svcWrite_fab (s : State) (type : Nat) (body : Bytes) : (svcWrite s type body).fab = s.fab := by
  unfold svcWrite; (try dsimp only); (repeat' split) <;> simp
@[simp] theorem svcWrite_qpe (s : State) (type : Nat) (body : Bytes) : (svcWrite s type body).qpe = s.qpe := by
  unfold svcWrite; (try dsimp only); (repeat' split) <;> simp
@[simp] theorem svcWrite_egr (s : State) (type : Nat) (body : Bytes) : (svcWrite s type body).egr = s.egr := by
  unfold svcWrite; (try dsimp only); (repeat' split) <;> simp
@[simp] theorem svcWrite_ledger (s : State) (type : Nat) (body : Bytes) : (svcWrite s type body).ledger = s.ledger := by
  unfold svcWrite; (try dsimp only); (repeat' split) <;> simp
@[simp] theorem svcWrite_brake (s : State) (type : Nat) (body : Bytes) : (svcWrite s type body).brake = s.brake := by
  unfold svcWrite; (try dsimp only); (repeat' split) <;> simp
@[simp] theorem svcWrite_therm (s : State) (type : Nat) (body : Bytes) : (svcWrite s type body).therm = s.therm := by
  unfold svcWrite; (try dsimp only); (repeat' split) <;> simp
@[simp] theorem svcWrite_sec (s : State) (type : Nat) (body : Bytes) : (svcWrite s type body).sec = s.sec := by
  unfold svcWrite; (try dsimp only); (repeat' split) <;> simp
@[simp] theorem svcWrite_fault (s : State) (type : Nat) (body : Bytes) : (svcWrite s type body).fault = s.fault := by
  unfold svcWrite; (try dsimp only); (repeat' split) <;> simp
@[simp] theorem svcWrite_map (s : State) (type : Nat) (body : Bytes) : (svcWrite s type body).map = s.map := by
  unfold svcWrite; (try dsimp only); (repeat' split) <;> simp
@[simp] theorem svcWrite_sb (s : State) (type : Nat) (body : Bytes) : (svcWrite s type body).sb = s.sb := by
  unfold svcWrite; (try dsimp only); (repeat' split) <;> simp

@[simp] theorem total_pending (s : State) (f : Totals → Totals) : (total s f).pending = s.pending := rfl
@[simp] theorem total_out (s : State) (f : Totals → Totals) : (total s f).out = s.out := rfl
@[simp] theorem total_freeCtr (s : State) (f : Totals → Totals) : (total s f).freeCtr = s.freeCtr := rfl
@[simp] theorem total_rngCtr (s : State) (f : Totals → Totals) : (total s f).rngCtr = s.rngCtr := rfl
@[simp] theorem total_pins (s : State) (f : Totals → Totals) : (total s f).pins = s.pins := rfl
@[simp] theorem total_boot (s : State) (f : Totals → Totals) : (total s f).boot = s.boot := rfl
@[simp] theorem total_clk (s : State) (f : Totals → Totals) : (total s f).clk = s.clk := rfl
@[simp] theorem total_regs (s : State) (f : Totals → Totals) : (total s f).regs = s.regs := rfl
@[simp] theorem total_hostq (s : State) (f : Totals → Totals) : (total s f).hostq = s.hostq := rfl
@[simp] theorem total_weft (s : State) (f : Totals → Totals) : (total s f).weft = s.weft := rfl
@[simp] theorem total_tier (s : State) (f : Totals → Totals) : (total s f).tier = s.tier := rfl
@[simp] theorem total_mem (s : State) (f : Totals → Totals) : (total s f).mem = s.mem := rfl
@[simp] theorem total_plait (s : State) (f : Totals → Totals) : (total s f).plait = s.plait := rfl
@[simp] theorem total_attn (s : State) (f : Totals → Totals) : (total s f).attn = s.attn := rfl
@[simp] theorem total_osier (s : State) (f : Totals → Totals) : (total s f).osier = s.osier := rfl
@[simp] theorem total_coma (s : State) (f : Totals → Totals) : (total s f).coma = s.coma := rfl
@[simp] theorem total_ports (s : State) (f : Totals → Totals) : (total s f).ports = s.ports := rfl
@[simp] theorem total_fab (s : State) (f : Totals → Totals) : (total s f).fab = s.fab := rfl
@[simp] theorem total_qpe (s : State) (f : Totals → Totals) : (total s f).qpe = s.qpe := rfl
@[simp] theorem total_egr (s : State) (f : Totals → Totals) : (total s f).egr = s.egr := rfl
@[simp] theorem total_ledger (s : State) (f : Totals → Totals) : (total s f).ledger = s.ledger := rfl
@[simp] theorem total_brake (s : State) (f : Totals → Totals) : (total s f).brake = s.brake := rfl
@[simp] theorem total_therm (s : State) (f : Totals → Totals) : (total s f).therm = s.therm := rfl
@[simp] theorem total_sec (s : State) (f : Totals → Totals) : (total s f).sec = s.sec := rfl
@[simp] theorem total_fault (s : State) (f : Totals → Totals) : (total s f).fault = s.fault := rfl
@[simp] theorem total_map (s : State) (f : Totals → Totals) : (total s f).map = s.map := rfl
@[simp] theorem total_sb (s : State) (f : Totals → Totals) : (total s f).sb = s.sb := rfl

@[simp] theorem faultRingWrite_pending (s : State) (r : FaultRec) : (faultRingWrite s r).pending = s.pending := by
  unfold faultRingWrite; (try dsimp only); (repeat' split) <;> simp
@[simp] theorem faultRingWrite_freeCtr (s : State) (r : FaultRec) : (faultRingWrite s r).freeCtr = s.freeCtr := by
  unfold faultRingWrite; (try dsimp only); (repeat' split) <;> simp
@[simp] theorem faultRingWrite_rngCtr (s : State) (r : FaultRec) : (faultRingWrite s r).rngCtr = s.rngCtr := by
  unfold faultRingWrite; (try dsimp only); (repeat' split) <;> simp
@[simp] theorem faultRingWrite_pins (s : State) (r : FaultRec) : (faultRingWrite s r).pins = s.pins := by
  unfold faultRingWrite; (try dsimp only); (repeat' split) <;> simp
@[simp] theorem faultRingWrite_boot (s : State) (r : FaultRec) : (faultRingWrite s r).boot = s.boot := by
  unfold faultRingWrite; (try dsimp only); (repeat' split) <;> simp
@[simp] theorem faultRingWrite_clk (s : State) (r : FaultRec) : (faultRingWrite s r).clk = s.clk := by
  unfold faultRingWrite; (try dsimp only); (repeat' split) <;> simp
@[simp] theorem faultRingWrite_weft (s : State) (r : FaultRec) : (faultRingWrite s r).weft = s.weft := by
  unfold faultRingWrite; (try dsimp only); (repeat' split) <;> simp
@[simp] theorem faultRingWrite_tier (s : State) (r : FaultRec) : (faultRingWrite s r).tier = s.tier := by
  unfold faultRingWrite; (try dsimp only); (repeat' split) <;> simp
@[simp] theorem faultRingWrite_mem (s : State) (r : FaultRec) : (faultRingWrite s r).mem = s.mem := by
  unfold faultRingWrite; (try dsimp only); (repeat' split) <;> simp
@[simp] theorem faultRingWrite_plait (s : State) (r : FaultRec) : (faultRingWrite s r).plait = s.plait := by
  unfold faultRingWrite; (try dsimp only); (repeat' split) <;> simp
@[simp] theorem faultRingWrite_attn (s : State) (r : FaultRec) : (faultRingWrite s r).attn = s.attn := by
  unfold faultRingWrite; (try dsimp only); (repeat' split) <;> simp
@[simp] theorem faultRingWrite_osier (s : State) (r : FaultRec) : (faultRingWrite s r).osier = s.osier := by
  unfold faultRingWrite; (try dsimp only); (repeat' split) <;> simp
@[simp] theorem faultRingWrite_coma (s : State) (r : FaultRec) : (faultRingWrite s r).coma = s.coma := by
  unfold faultRingWrite; (try dsimp only); (repeat' split) <;> simp
@[simp] theorem faultRingWrite_ports (s : State) (r : FaultRec) : (faultRingWrite s r).ports = s.ports := by
  unfold faultRingWrite; (try dsimp only); (repeat' split) <;> simp
@[simp] theorem faultRingWrite_fab (s : State) (r : FaultRec) : (faultRingWrite s r).fab = s.fab := by
  unfold faultRingWrite; (try dsimp only); (repeat' split) <;> simp
@[simp] theorem faultRingWrite_qpe (s : State) (r : FaultRec) : (faultRingWrite s r).qpe = s.qpe := by
  unfold faultRingWrite; (try dsimp only); (repeat' split) <;> simp
@[simp] theorem faultRingWrite_egr (s : State) (r : FaultRec) : (faultRingWrite s r).egr = s.egr := by
  unfold faultRingWrite; (try dsimp only); (repeat' split) <;> simp
@[simp] theorem faultRingWrite_ledger (s : State) (r : FaultRec) : (faultRingWrite s r).ledger = s.ledger := by
  unfold faultRingWrite; (try dsimp only); (repeat' split) <;> simp
@[simp] theorem faultRingWrite_brake (s : State) (r : FaultRec) : (faultRingWrite s r).brake = s.brake := by
  unfold faultRingWrite; (try dsimp only); (repeat' split) <;> simp
@[simp] theorem faultRingWrite_therm (s : State) (r : FaultRec) : (faultRingWrite s r).therm = s.therm := by
  unfold faultRingWrite; (try dsimp only); (repeat' split) <;> simp
@[simp] theorem faultRingWrite_sec (s : State) (r : FaultRec) : (faultRingWrite s r).sec = s.sec := by
  unfold faultRingWrite; (try dsimp only); (repeat' split) <;> simp
@[simp] theorem faultRingWrite_svc (s : State) (r : FaultRec) : (faultRingWrite s r).svc = s.svc := by
  unfold faultRingWrite; (try dsimp only); (repeat' split) <;> simp
@[simp] theorem faultRingWrite_map (s : State) (r : FaultRec) : (faultRingWrite s r).map = s.map := by
  unfold faultRingWrite; (try dsimp only); (repeat' split) <;> simp
@[simp] theorem faultRingWrite_sb (s : State) (r : FaultRec) : (faultRingWrite s r).sb = s.sb := by
  unfold faultRingWrite; (try dsimp only); (repeat' split) <;> simp

@[simp] theorem faultReportAs_pending (s : State) (cls : Nat) (r : FaultRec) : (faultReportAs s cls r).pending = s.pending := by
  unfold faultReportAs; (try dsimp only); (repeat' split) <;> simp
@[simp] theorem faultReportAs_freeCtr (s : State) (cls : Nat) (r : FaultRec) : (faultReportAs s cls r).freeCtr = s.freeCtr := by
  unfold faultReportAs; (try dsimp only); (repeat' split) <;> simp
@[simp] theorem faultReportAs_pins (s : State) (cls : Nat) (r : FaultRec) : (faultReportAs s cls r).pins = s.pins := by
  unfold faultReportAs; (try dsimp only); (repeat' split) <;> simp
@[simp] theorem faultReportAs_boot (s : State) (cls : Nat) (r : FaultRec) : (faultReportAs s cls r).boot = s.boot := by
  unfold faultReportAs; (try dsimp only); (repeat' split) <;> simp
@[simp] theorem faultReportAs_clk (s : State) (cls : Nat) (r : FaultRec) : (faultReportAs s cls r).clk = s.clk := by
  unfold faultReportAs; (try dsimp only); (repeat' split) <;> simp
@[simp] theorem faultReportAs_weft (s : State) (cls : Nat) (r : FaultRec) : (faultReportAs s cls r).weft = s.weft := by
  unfold faultReportAs; (try dsimp only); (repeat' split) <;> simp
@[simp] theorem faultReportAs_tier (s : State) (cls : Nat) (r : FaultRec) : (faultReportAs s cls r).tier = s.tier := by
  unfold faultReportAs; (try dsimp only); (repeat' split) <;> simp
@[simp] theorem faultReportAs_mem (s : State) (cls : Nat) (r : FaultRec) : (faultReportAs s cls r).mem = s.mem := by
  unfold faultReportAs; (try dsimp only); (repeat' split) <;> simp
@[simp] theorem faultReportAs_plait (s : State) (cls : Nat) (r : FaultRec) : (faultReportAs s cls r).plait = s.plait := by
  unfold faultReportAs; (try dsimp only); (repeat' split) <;> simp
@[simp] theorem faultReportAs_attn (s : State) (cls : Nat) (r : FaultRec) : (faultReportAs s cls r).attn = s.attn := by
  unfold faultReportAs; (try dsimp only); (repeat' split) <;> simp
@[simp] theorem faultReportAs_osier (s : State) (cls : Nat) (r : FaultRec) : (faultReportAs s cls r).osier = s.osier := by
  unfold faultReportAs; (try dsimp only); (repeat' split) <;> simp
@[simp] theorem faultReportAs_coma (s : State) (cls : Nat) (r : FaultRec) : (faultReportAs s cls r).coma = s.coma := by
  unfold faultReportAs; (try dsimp only); (repeat' split) <;> simp
@[simp] theorem faultReportAs_ports (s : State) (cls : Nat) (r : FaultRec) : (faultReportAs s cls r).ports = s.ports := by
  unfold faultReportAs; (try dsimp only); (repeat' split) <;> simp
@[simp] theorem faultReportAs_fab (s : State) (cls : Nat) (r : FaultRec) : (faultReportAs s cls r).fab = s.fab := by
  unfold faultReportAs; (try dsimp only); (repeat' split) <;> simp
@[simp] theorem faultReportAs_qpe (s : State) (cls : Nat) (r : FaultRec) : (faultReportAs s cls r).qpe = s.qpe := by
  unfold faultReportAs; (try dsimp only); (repeat' split) <;> simp
@[simp] theorem faultReportAs_egr (s : State) (cls : Nat) (r : FaultRec) : (faultReportAs s cls r).egr = s.egr := by
  unfold faultReportAs; (try dsimp only); (repeat' split) <;> simp
@[simp] theorem faultReportAs_ledger (s : State) (cls : Nat) (r : FaultRec) : (faultReportAs s cls r).ledger = s.ledger := by
  unfold faultReportAs; (try dsimp only); (repeat' split) <;> simp
@[simp] theorem faultReportAs_brake (s : State) (cls : Nat) (r : FaultRec) : (faultReportAs s cls r).brake = s.brake := by
  unfold faultReportAs; (try dsimp only); (repeat' split) <;> simp
@[simp] theorem faultReportAs_therm (s : State) (cls : Nat) (r : FaultRec) : (faultReportAs s cls r).therm = s.therm := by
  unfold faultReportAs; (try dsimp only); (repeat' split) <;> simp
@[simp] theorem faultReportAs_sec (s : State) (cls : Nat) (r : FaultRec) : (faultReportAs s cls r).sec = s.sec := by
  unfold faultReportAs; (try dsimp only); (repeat' split) <;> simp
@[simp] theorem faultReportAs_map (s : State) (cls : Nat) (r : FaultRec) : (faultReportAs s cls r).map = s.map := by
  unfold faultReportAs; (try dsimp only); (repeat' split) <;> simp

@[simp] theorem faultReport_pending (s : State) (r : FaultRec) : (faultReport s r).pending = s.pending := by
  unfold faultReport; (try dsimp only); (repeat' split) <;> simp
@[simp] theorem faultReport_freeCtr (s : State) (r : FaultRec) : (faultReport s r).freeCtr = s.freeCtr := by
  unfold faultReport; (try dsimp only); (repeat' split) <;> simp
@[simp] theorem faultReport_pins (s : State) (r : FaultRec) : (faultReport s r).pins = s.pins := by
  unfold faultReport; (try dsimp only); (repeat' split) <;> simp
@[simp] theorem faultReport_boot (s : State) (r : FaultRec) : (faultReport s r).boot = s.boot := by
  unfold faultReport; (try dsimp only); (repeat' split) <;> simp
@[simp] theorem faultReport_clk (s : State) (r : FaultRec) : (faultReport s r).clk = s.clk := by
  unfold faultReport; (try dsimp only); (repeat' split) <;> simp
@[simp] theorem faultReport_weft (s : State) (r : FaultRec) : (faultReport s r).weft = s.weft := by
  unfold faultReport; (try dsimp only); (repeat' split) <;> simp
@[simp] theorem faultReport_tier (s : State) (r : FaultRec) : (faultReport s r).tier = s.tier := by
  unfold faultReport; (try dsimp only); (repeat' split) <;> simp
@[simp] theorem faultReport_mem (s : State) (r : FaultRec) : (faultReport s r).mem = s.mem := by
  unfold faultReport; (try dsimp only); (repeat' split) <;> simp
@[simp] theorem faultReport_plait (s : State) (r : FaultRec) : (faultReport s r).plait = s.plait := by
  unfold faultReport; (try dsimp only); (repeat' split) <;> simp
@[simp] theorem faultReport_attn (s : State) (r : FaultRec) : (faultReport s r).attn = s.attn := by
  unfold faultReport; (try dsimp only); (repeat' split) <;> simp
@[simp] theorem faultReport_osier (s : State) (r : FaultRec) : (faultReport s r).osier = s.osier := by
  unfold faultReport; (try dsimp only); (repeat' split) <;> simp
@[simp] theorem faultReport_coma (s : State) (r : FaultRec) : (faultReport s r).coma = s.coma := by
  unfold faultReport; (try dsimp only); (repeat' split) <;> simp
@[simp] theorem faultReport_ports (s : State) (r : FaultRec) : (faultReport s r).ports = s.ports := by
  unfold faultReport; (try dsimp only); (repeat' split) <;> simp
@[simp] theorem faultReport_fab (s : State) (r : FaultRec) : (faultReport s r).fab = s.fab := by
  unfold faultReport; (try dsimp only); (repeat' split) <;> simp
@[simp] theorem faultReport_qpe (s : State) (r : FaultRec) : (faultReport s r).qpe = s.qpe := by
  unfold faultReport; (try dsimp only); (repeat' split) <;> simp
@[simp] theorem faultReport_egr (s : State) (r : FaultRec) : (faultReport s r).egr = s.egr := by
  unfold faultReport; (try dsimp only); (repeat' split) <;> simp
@[simp] theorem faultReport_ledger (s : State) (r : FaultRec) : (faultReport s r).ledger = s.ledger := by
  unfold faultReport; (try dsimp only); (repeat' split) <;> simp
@[simp] theorem faultReport_brake (s : State) (r : FaultRec) : (faultReport s r).brake = s.brake := by
  unfold faultReport; (try dsimp only); (repeat' split) <;> simp
@[simp] theorem faultReport_therm (s : State) (r : FaultRec) : (faultReport s r).therm = s.therm := by
  unfold faultReport; (try dsimp only); (repeat' split) <;> simp
@[simp] theorem faultReport_sec (s : State) (r : FaultRec) : (faultReport s r).sec = s.sec := by
  unfold faultReport; (try dsimp only); (repeat' split) <;> simp
@[simp] theorem faultReport_map (s : State) (r : FaultRec) : (faultReport s r).map = s.map := by
  unfold faultReport; (try dsimp only); (repeat' split) <;> simp

@[simp] theorem postRecord_pending (s : State) (r : Nat) (c : Completion) (now : Bool) : (postRecord s r c now).pending = s.pending := by
  unfold postRecord; (try dsimp only); (repeat' split) <;> simp
@[simp] theorem postRecord_freeCtr (s : State) (r : Nat) (c : Completion) (now : Bool) : (postRecord s r c now).freeCtr = s.freeCtr := by
  unfold postRecord; (try dsimp only); (repeat' split) <;> simp
@[simp] theorem postRecord_rngCtr (s : State) (r : Nat) (c : Completion) (now : Bool) : (postRecord s r c now).rngCtr = s.rngCtr := by
  unfold postRecord; (try dsimp only); (repeat' split) <;> simp
@[simp] theorem postRecord_pins (s : State) (r : Nat) (c : Completion) (now : Bool) : (postRecord s r c now).pins = s.pins := by
  unfold postRecord; (try dsimp only); (repeat' split) <;> simp
@[simp] theorem postRecord_boot (s : State) (r : Nat) (c : Completion) (now : Bool) : (postRecord s r c now).boot = s.boot := by
  unfold postRecord; (try dsimp only); (repeat' split) <;> simp
@[simp] theorem postRecord_clk (s : State) (r : Nat) (c : Completion) (now : Bool) : (postRecord s r c now).clk = s.clk := by
  unfold postRecord; (try dsimp only); (repeat' split) <;> simp
@[simp] theorem postRecord_weft (s : State) (r : Nat) (c : Completion) (now : Bool) : (postRecord s r c now).weft = s.weft := by
  unfold postRecord; (try dsimp only); (repeat' split) <;> simp
@[simp] theorem postRecord_tier (s : State) (r : Nat) (c : Completion) (now : Bool) : (postRecord s r c now).tier = s.tier := by
  unfold postRecord; (try dsimp only); (repeat' split) <;> simp
@[simp] theorem postRecord_mem (s : State) (r : Nat) (c : Completion) (now : Bool) : (postRecord s r c now).mem = s.mem := by
  unfold postRecord; (try dsimp only); (repeat' split) <;> simp
@[simp] theorem postRecord_plait (s : State) (r : Nat) (c : Completion) (now : Bool) : (postRecord s r c now).plait = s.plait := by
  unfold postRecord; (try dsimp only); (repeat' split) <;> simp
@[simp] theorem postRecord_attn (s : State) (r : Nat) (c : Completion) (now : Bool) : (postRecord s r c now).attn = s.attn := by
  unfold postRecord; (try dsimp only); (repeat' split) <;> simp
@[simp] theorem postRecord_osier (s : State) (r : Nat) (c : Completion) (now : Bool) : (postRecord s r c now).osier = s.osier := by
  unfold postRecord; (try dsimp only); (repeat' split) <;> simp
@[simp] theorem postRecord_coma (s : State) (r : Nat) (c : Completion) (now : Bool) : (postRecord s r c now).coma = s.coma := by
  unfold postRecord; (try dsimp only); (repeat' split) <;> simp
@[simp] theorem postRecord_ports (s : State) (r : Nat) (c : Completion) (now : Bool) : (postRecord s r c now).ports = s.ports := by
  unfold postRecord; (try dsimp only); (repeat' split) <;> simp
@[simp] theorem postRecord_fab (s : State) (r : Nat) (c : Completion) (now : Bool) : (postRecord s r c now).fab = s.fab := by
  unfold postRecord; (try dsimp only); (repeat' split) <;> simp
@[simp] theorem postRecord_qpe (s : State) (r : Nat) (c : Completion) (now : Bool) : (postRecord s r c now).qpe = s.qpe := by
  unfold postRecord; (try dsimp only); (repeat' split) <;> simp
@[simp] theorem postRecord_egr (s : State) (r : Nat) (c : Completion) (now : Bool) : (postRecord s r c now).egr = s.egr := by
  unfold postRecord; (try dsimp only); (repeat' split) <;> simp
@[simp] theorem postRecord_ledger (s : State) (r : Nat) (c : Completion) (now : Bool) : (postRecord s r c now).ledger = s.ledger := by
  unfold postRecord; (try dsimp only); (repeat' split) <;> simp
@[simp] theorem postRecord_brake (s : State) (r : Nat) (c : Completion) (now : Bool) : (postRecord s r c now).brake = s.brake := by
  unfold postRecord; (try dsimp only); (repeat' split) <;> simp
@[simp] theorem postRecord_therm (s : State) (r : Nat) (c : Completion) (now : Bool) : (postRecord s r c now).therm = s.therm := by
  unfold postRecord; (try dsimp only); (repeat' split) <;> simp
@[simp] theorem postRecord_sec (s : State) (r : Nat) (c : Completion) (now : Bool) : (postRecord s r c now).sec = s.sec := by
  unfold postRecord; (try dsimp only); (repeat' split) <;> simp
@[simp] theorem postRecord_fault (s : State) (r : Nat) (c : Completion) (now : Bool) : (postRecord s r c now).fault = s.fault := by
  unfold postRecord; (try dsimp only); (repeat' split) <;> simp
@[simp] theorem postRecord_svc (s : State) (r : Nat) (c : Completion) (now : Bool) : (postRecord s r c now).svc = s.svc := by
  unfold postRecord; (try dsimp only); (repeat' split) <;> simp
@[simp] theorem postRecord_map (s : State) (r : Nat) (c : Completion) (now : Bool) : (postRecord s r c now).map = s.map := by
  unfold postRecord; (try dsimp only); (repeat' split) <;> simp
@[simp] theorem postRecord_sb (s : State) (r : Nat) (c : Completion) (now : Bool) : (postRecord s r c now).sb = s.sb := by
  unfold postRecord; (try dsimp only); (repeat' split) <;> simp

@[simp] theorem complete_pending (s : State) (d : Desc) (status flags : Nat) (results : Bytes) : (complete s d status flags results).pending = s.pending := by
  unfold complete; (try dsimp only); (repeat' split) <;> simp
@[simp] theorem complete_freeCtr (s : State) (d : Desc) (status flags : Nat) (results : Bytes) : (complete s d status flags results).freeCtr = s.freeCtr := by
  unfold complete; (try dsimp only); (repeat' split) <;> simp
@[simp] theorem complete_rngCtr (s : State) (d : Desc) (status flags : Nat) (results : Bytes) : (complete s d status flags results).rngCtr = s.rngCtr := by
  unfold complete; (try dsimp only); (repeat' split) <;> simp
@[simp] theorem complete_pins (s : State) (d : Desc) (status flags : Nat) (results : Bytes) : (complete s d status flags results).pins = s.pins := by
  unfold complete; (try dsimp only); (repeat' split) <;> simp
@[simp] theorem complete_boot (s : State) (d : Desc) (status flags : Nat) (results : Bytes) : (complete s d status flags results).boot = s.boot := by
  unfold complete; (try dsimp only); (repeat' split) <;> simp
@[simp] theorem complete_clk (s : State) (d : Desc) (status flags : Nat) (results : Bytes) : (complete s d status flags results).clk = s.clk := by
  unfold complete; (try dsimp only); (repeat' split) <;> simp
@[simp] theorem complete_weft (s : State) (d : Desc) (status flags : Nat) (results : Bytes) : (complete s d status flags results).weft = s.weft := by
  unfold complete; (try dsimp only); (repeat' split) <;> simp
@[simp] theorem complete_tier (s : State) (d : Desc) (status flags : Nat) (results : Bytes) : (complete s d status flags results).tier = s.tier := by
  unfold complete; (try dsimp only); (repeat' split) <;> simp
@[simp] theorem complete_mem (s : State) (d : Desc) (status flags : Nat) (results : Bytes) : (complete s d status flags results).mem = s.mem := by
  unfold complete; (try dsimp only); (repeat' split) <;> simp
@[simp] theorem complete_plait (s : State) (d : Desc) (status flags : Nat) (results : Bytes) : (complete s d status flags results).plait = s.plait := by
  unfold complete; (try dsimp only); (repeat' split) <;> simp
@[simp] theorem complete_attn (s : State) (d : Desc) (status flags : Nat) (results : Bytes) : (complete s d status flags results).attn = s.attn := by
  unfold complete; (try dsimp only); (repeat' split) <;> simp
@[simp] theorem complete_osier (s : State) (d : Desc) (status flags : Nat) (results : Bytes) : (complete s d status flags results).osier = s.osier := by
  unfold complete; (try dsimp only); (repeat' split) <;> simp
@[simp] theorem complete_coma (s : State) (d : Desc) (status flags : Nat) (results : Bytes) : (complete s d status flags results).coma = s.coma := by
  unfold complete; (try dsimp only); (repeat' split) <;> simp
@[simp] theorem complete_ports (s : State) (d : Desc) (status flags : Nat) (results : Bytes) : (complete s d status flags results).ports = s.ports := by
  unfold complete; (try dsimp only); (repeat' split) <;> simp
@[simp] theorem complete_fab (s : State) (d : Desc) (status flags : Nat) (results : Bytes) : (complete s d status flags results).fab = s.fab := by
  unfold complete; (try dsimp only); (repeat' split) <;> simp
@[simp] theorem complete_qpe (s : State) (d : Desc) (status flags : Nat) (results : Bytes) : (complete s d status flags results).qpe = s.qpe := by
  unfold complete; (try dsimp only); (repeat' split) <;> simp
@[simp] theorem complete_egr (s : State) (d : Desc) (status flags : Nat) (results : Bytes) : (complete s d status flags results).egr = s.egr := by
  unfold complete; (try dsimp only); (repeat' split) <;> simp
@[simp] theorem complete_ledger (s : State) (d : Desc) (status flags : Nat) (results : Bytes) : (complete s d status flags results).ledger = s.ledger := by
  unfold complete; (try dsimp only); (repeat' split) <;> simp
@[simp] theorem complete_brake (s : State) (d : Desc) (status flags : Nat) (results : Bytes) : (complete s d status flags results).brake = s.brake := by
  unfold complete; (try dsimp only); (repeat' split) <;> simp
@[simp] theorem complete_therm (s : State) (d : Desc) (status flags : Nat) (results : Bytes) : (complete s d status flags results).therm = s.therm := by
  unfold complete; (try dsimp only); (repeat' split) <;> simp
@[simp] theorem complete_sec (s : State) (d : Desc) (status flags : Nat) (results : Bytes) : (complete s d status flags results).sec = s.sec := by
  unfold complete; (try dsimp only); (repeat' split) <;> simp
@[simp] theorem complete_fault (s : State) (d : Desc) (status flags : Nat) (results : Bytes) : (complete s d status flags results).fault = s.fault := by
  unfold complete; (try dsimp only); (repeat' split) <;> simp
@[simp] theorem complete_svc (s : State) (d : Desc) (status flags : Nat) (results : Bytes) : (complete s d status flags results).svc = s.svc := by
  unfold complete; (try dsimp only); (repeat' split) <;> simp
@[simp] theorem complete_map (s : State) (d : Desc) (status flags : Nat) (results : Bytes) : (complete s d status flags results).map = s.map := by
  unfold complete; (try dsimp only); (repeat' split) <;> simp
@[simp] theorem complete_sb (s : State) (d : Desc) (status flags : Nat) (results : Bytes) : (complete s d status flags results).sb = s.sb := by
  unfold complete; (try dsimp only); (repeat' split) <;> simp

@[simp] theorem endFaulted_pending (s : State) (d : Desc) : (endFaulted s d).pending = s.pending := by
  unfold endFaulted; (try dsimp only); (repeat' split) <;> simp
@[simp] theorem endFaulted_out (s : State) (d : Desc) : (endFaulted s d).out = s.out := by
  unfold endFaulted; (try dsimp only); (repeat' split) <;> simp
@[simp] theorem endFaulted_freeCtr (s : State) (d : Desc) : (endFaulted s d).freeCtr = s.freeCtr := by
  unfold endFaulted; (try dsimp only); (repeat' split) <;> simp
@[simp] theorem endFaulted_rngCtr (s : State) (d : Desc) : (endFaulted s d).rngCtr = s.rngCtr := by
  unfold endFaulted; (try dsimp only); (repeat' split) <;> simp
@[simp] theorem endFaulted_pins (s : State) (d : Desc) : (endFaulted s d).pins = s.pins := by
  unfold endFaulted; (try dsimp only); (repeat' split) <;> simp
@[simp] theorem endFaulted_boot (s : State) (d : Desc) : (endFaulted s d).boot = s.boot := by
  unfold endFaulted; (try dsimp only); (repeat' split) <;> simp
@[simp] theorem endFaulted_clk (s : State) (d : Desc) : (endFaulted s d).clk = s.clk := by
  unfold endFaulted; (try dsimp only); (repeat' split) <;> simp
@[simp] theorem endFaulted_regs (s : State) (d : Desc) : (endFaulted s d).regs = s.regs := by
  unfold endFaulted; (try dsimp only); (repeat' split) <;> simp
@[simp] theorem endFaulted_weft (s : State) (d : Desc) : (endFaulted s d).weft = s.weft := by
  unfold endFaulted; (try dsimp only); (repeat' split) <;> simp
@[simp] theorem endFaulted_tier (s : State) (d : Desc) : (endFaulted s d).tier = s.tier := by
  unfold endFaulted; (try dsimp only); (repeat' split) <;> simp
@[simp] theorem endFaulted_mem (s : State) (d : Desc) : (endFaulted s d).mem = s.mem := by
  unfold endFaulted; (try dsimp only); (repeat' split) <;> simp
@[simp] theorem endFaulted_plait (s : State) (d : Desc) : (endFaulted s d).plait = s.plait := by
  unfold endFaulted; (try dsimp only); (repeat' split) <;> simp
@[simp] theorem endFaulted_attn (s : State) (d : Desc) : (endFaulted s d).attn = s.attn := by
  unfold endFaulted; (try dsimp only); (repeat' split) <;> simp
@[simp] theorem endFaulted_osier (s : State) (d : Desc) : (endFaulted s d).osier = s.osier := by
  unfold endFaulted; (try dsimp only); (repeat' split) <;> simp
@[simp] theorem endFaulted_coma (s : State) (d : Desc) : (endFaulted s d).coma = s.coma := by
  unfold endFaulted; (try dsimp only); (repeat' split) <;> simp
@[simp] theorem endFaulted_ports (s : State) (d : Desc) : (endFaulted s d).ports = s.ports := by
  unfold endFaulted; (try dsimp only); (repeat' split) <;> simp
@[simp] theorem endFaulted_fab (s : State) (d : Desc) : (endFaulted s d).fab = s.fab := by
  unfold endFaulted; (try dsimp only); (repeat' split) <;> simp
@[simp] theorem endFaulted_qpe (s : State) (d : Desc) : (endFaulted s d).qpe = s.qpe := by
  unfold endFaulted; (try dsimp only); (repeat' split) <;> simp
@[simp] theorem endFaulted_egr (s : State) (d : Desc) : (endFaulted s d).egr = s.egr := by
  unfold endFaulted; (try dsimp only); (repeat' split) <;> simp
@[simp] theorem endFaulted_ledger (s : State) (d : Desc) : (endFaulted s d).ledger = s.ledger := by
  unfold endFaulted; (try dsimp only); (repeat' split) <;> simp
@[simp] theorem endFaulted_brake (s : State) (d : Desc) : (endFaulted s d).brake = s.brake := by
  unfold endFaulted; (try dsimp only); (repeat' split) <;> simp
@[simp] theorem endFaulted_therm (s : State) (d : Desc) : (endFaulted s d).therm = s.therm := by
  unfold endFaulted; (try dsimp only); (repeat' split) <;> simp
@[simp] theorem endFaulted_sec (s : State) (d : Desc) : (endFaulted s d).sec = s.sec := by
  unfold endFaulted; (try dsimp only); (repeat' split) <;> simp
@[simp] theorem endFaulted_fault (s : State) (d : Desc) : (endFaulted s d).fault = s.fault := by
  unfold endFaulted; (try dsimp only); (repeat' split) <;> simp
@[simp] theorem endFaulted_svc (s : State) (d : Desc) : (endFaulted s d).svc = s.svc := by
  unfold endFaulted; (try dsimp only); (repeat' split) <;> simp
@[simp] theorem endFaulted_map (s : State) (d : Desc) : (endFaulted s d).map = s.map := by
  unfold endFaulted; (try dsimp only); (repeat' split) <;> simp
@[simp] theorem endFaulted_sb (s : State) (d : Desc) : (endFaulted s d).sb = s.sb := by
  unfold endFaulted; (try dsimp only); (repeat' split) <;> simp

@[simp] theorem frameWrite_pending (s : State) (tag : EncTag) (pfn off : Nat) (bs : Bytes) : (frameWrite s tag pfn off bs).pending = s.pending := rfl
@[simp] theorem frameWrite_out (s : State) (tag : EncTag) (pfn off : Nat) (bs : Bytes) : (frameWrite s tag pfn off bs).out = s.out := rfl
@[simp] theorem frameWrite_freeCtr (s : State) (tag : EncTag) (pfn off : Nat) (bs : Bytes) : (frameWrite s tag pfn off bs).freeCtr = s.freeCtr := rfl
@[simp] theorem frameWrite_rngCtr (s : State) (tag : EncTag) (pfn off : Nat) (bs : Bytes) : (frameWrite s tag pfn off bs).rngCtr = s.rngCtr := rfl
@[simp] theorem frameWrite_pins (s : State) (tag : EncTag) (pfn off : Nat) (bs : Bytes) : (frameWrite s tag pfn off bs).pins = s.pins := rfl
@[simp] theorem frameWrite_boot (s : State) (tag : EncTag) (pfn off : Nat) (bs : Bytes) : (frameWrite s tag pfn off bs).boot = s.boot := rfl
@[simp] theorem frameWrite_clk (s : State) (tag : EncTag) (pfn off : Nat) (bs : Bytes) : (frameWrite s tag pfn off bs).clk = s.clk := rfl
@[simp] theorem frameWrite_regs (s : State) (tag : EncTag) (pfn off : Nat) (bs : Bytes) : (frameWrite s tag pfn off bs).regs = s.regs := rfl
@[simp] theorem frameWrite_hostq (s : State) (tag : EncTag) (pfn off : Nat) (bs : Bytes) : (frameWrite s tag pfn off bs).hostq = s.hostq := rfl
@[simp] theorem frameWrite_weft (s : State) (tag : EncTag) (pfn off : Nat) (bs : Bytes) : (frameWrite s tag pfn off bs).weft = s.weft := rfl
@[simp] theorem frameWrite_tier (s : State) (tag : EncTag) (pfn off : Nat) (bs : Bytes) : (frameWrite s tag pfn off bs).tier = s.tier := rfl
@[simp] theorem frameWrite_plait (s : State) (tag : EncTag) (pfn off : Nat) (bs : Bytes) : (frameWrite s tag pfn off bs).plait = s.plait := rfl
@[simp] theorem frameWrite_attn (s : State) (tag : EncTag) (pfn off : Nat) (bs : Bytes) : (frameWrite s tag pfn off bs).attn = s.attn := rfl
@[simp] theorem frameWrite_osier (s : State) (tag : EncTag) (pfn off : Nat) (bs : Bytes) : (frameWrite s tag pfn off bs).osier = s.osier := rfl
@[simp] theorem frameWrite_coma (s : State) (tag : EncTag) (pfn off : Nat) (bs : Bytes) : (frameWrite s tag pfn off bs).coma = s.coma := rfl
@[simp] theorem frameWrite_ports (s : State) (tag : EncTag) (pfn off : Nat) (bs : Bytes) : (frameWrite s tag pfn off bs).ports = s.ports := rfl
@[simp] theorem frameWrite_fab (s : State) (tag : EncTag) (pfn off : Nat) (bs : Bytes) : (frameWrite s tag pfn off bs).fab = s.fab := rfl
@[simp] theorem frameWrite_qpe (s : State) (tag : EncTag) (pfn off : Nat) (bs : Bytes) : (frameWrite s tag pfn off bs).qpe = s.qpe := rfl
@[simp] theorem frameWrite_egr (s : State) (tag : EncTag) (pfn off : Nat) (bs : Bytes) : (frameWrite s tag pfn off bs).egr = s.egr := rfl
@[simp] theorem frameWrite_ledger (s : State) (tag : EncTag) (pfn off : Nat) (bs : Bytes) : (frameWrite s tag pfn off bs).ledger = s.ledger := rfl
@[simp] theorem frameWrite_brake (s : State) (tag : EncTag) (pfn off : Nat) (bs : Bytes) : (frameWrite s tag pfn off bs).brake = s.brake := rfl
@[simp] theorem frameWrite_therm (s : State) (tag : EncTag) (pfn off : Nat) (bs : Bytes) : (frameWrite s tag pfn off bs).therm = s.therm := rfl
@[simp] theorem frameWrite_sec (s : State) (tag : EncTag) (pfn off : Nat) (bs : Bytes) : (frameWrite s tag pfn off bs).sec = s.sec := rfl
@[simp] theorem frameWrite_fault (s : State) (tag : EncTag) (pfn off : Nat) (bs : Bytes) : (frameWrite s tag pfn off bs).fault = s.fault := rfl
@[simp] theorem frameWrite_svc (s : State) (tag : EncTag) (pfn off : Nat) (bs : Bytes) : (frameWrite s tag pfn off bs).svc = s.svc := rfl
@[simp] theorem frameWrite_map (s : State) (tag : EncTag) (pfn off : Nat) (bs : Bytes) : (frameWrite s tag pfn off bs).map = s.map := rfl
@[simp] theorem frameWrite_sb (s : State) (tag : EncTag) (pfn off : Nat) (bs : Bytes) : (frameWrite s tag pfn off bs).sb = s.sb := rfl

@[simp] theorem frameScrub_pending (s : State) (pfn : Nat) : (frameScrub s pfn).pending = s.pending := rfl
@[simp] theorem frameScrub_out (s : State) (pfn : Nat) : (frameScrub s pfn).out = s.out := rfl
@[simp] theorem frameScrub_freeCtr (s : State) (pfn : Nat) : (frameScrub s pfn).freeCtr = s.freeCtr := rfl
@[simp] theorem frameScrub_rngCtr (s : State) (pfn : Nat) : (frameScrub s pfn).rngCtr = s.rngCtr := rfl
@[simp] theorem frameScrub_pins (s : State) (pfn : Nat) : (frameScrub s pfn).pins = s.pins := rfl
@[simp] theorem frameScrub_boot (s : State) (pfn : Nat) : (frameScrub s pfn).boot = s.boot := rfl
@[simp] theorem frameScrub_clk (s : State) (pfn : Nat) : (frameScrub s pfn).clk = s.clk := rfl
@[simp] theorem frameScrub_regs (s : State) (pfn : Nat) : (frameScrub s pfn).regs = s.regs := rfl
@[simp] theorem frameScrub_hostq (s : State) (pfn : Nat) : (frameScrub s pfn).hostq = s.hostq := rfl
@[simp] theorem frameScrub_weft (s : State) (pfn : Nat) : (frameScrub s pfn).weft = s.weft := rfl
@[simp] theorem frameScrub_tier (s : State) (pfn : Nat) : (frameScrub s pfn).tier = s.tier := rfl
@[simp] theorem frameScrub_plait (s : State) (pfn : Nat) : (frameScrub s pfn).plait = s.plait := rfl
@[simp] theorem frameScrub_attn (s : State) (pfn : Nat) : (frameScrub s pfn).attn = s.attn := rfl
@[simp] theorem frameScrub_osier (s : State) (pfn : Nat) : (frameScrub s pfn).osier = s.osier := rfl
@[simp] theorem frameScrub_coma (s : State) (pfn : Nat) : (frameScrub s pfn).coma = s.coma := rfl
@[simp] theorem frameScrub_ports (s : State) (pfn : Nat) : (frameScrub s pfn).ports = s.ports := rfl
@[simp] theorem frameScrub_fab (s : State) (pfn : Nat) : (frameScrub s pfn).fab = s.fab := rfl
@[simp] theorem frameScrub_qpe (s : State) (pfn : Nat) : (frameScrub s pfn).qpe = s.qpe := rfl
@[simp] theorem frameScrub_egr (s : State) (pfn : Nat) : (frameScrub s pfn).egr = s.egr := rfl
@[simp] theorem frameScrub_ledger (s : State) (pfn : Nat) : (frameScrub s pfn).ledger = s.ledger := rfl
@[simp] theorem frameScrub_brake (s : State) (pfn : Nat) : (frameScrub s pfn).brake = s.brake := rfl
@[simp] theorem frameScrub_therm (s : State) (pfn : Nat) : (frameScrub s pfn).therm = s.therm := rfl
@[simp] theorem frameScrub_sec (s : State) (pfn : Nat) : (frameScrub s pfn).sec = s.sec := rfl
@[simp] theorem frameScrub_fault (s : State) (pfn : Nat) : (frameScrub s pfn).fault = s.fault := rfl
@[simp] theorem frameScrub_svc (s : State) (pfn : Nat) : (frameScrub s pfn).svc = s.svc := rfl
@[simp] theorem frameScrub_map (s : State) (pfn : Nat) : (frameScrub s pfn).map = s.map := rfl
@[simp] theorem frameScrub_sb (s : State) (pfn : Nat) : (frameScrub s pfn).sb = s.sb := rfl

@[simp] theorem accessError_pending (s : State) (m : Master) (addr kind : Nat) : (accessError s m addr kind).pending = s.pending := by
  unfold accessError; (try dsimp only); (repeat' split) <;> simp
@[simp] theorem accessError_freeCtr (s : State) (m : Master) (addr kind : Nat) : (accessError s m addr kind).freeCtr = s.freeCtr := by
  unfold accessError; (try dsimp only); (repeat' split) <;> simp
@[simp] theorem accessError_rngCtr (s : State) (m : Master) (addr kind : Nat) : (accessError s m addr kind).rngCtr = s.rngCtr := by
  unfold accessError; (try dsimp only); (repeat' split) <;> simp
@[simp] theorem accessError_pins (s : State) (m : Master) (addr kind : Nat) : (accessError s m addr kind).pins = s.pins := by
  unfold accessError; (try dsimp only); (repeat' split) <;> simp
@[simp] theorem accessError_boot (s : State) (m : Master) (addr kind : Nat) : (accessError s m addr kind).boot = s.boot := by
  unfold accessError; (try dsimp only); (repeat' split) <;> simp
@[simp] theorem accessError_clk (s : State) (m : Master) (addr kind : Nat) : (accessError s m addr kind).clk = s.clk := by
  unfold accessError; (try dsimp only); (repeat' split) <;> simp
@[simp] theorem accessError_weft (s : State) (m : Master) (addr kind : Nat) : (accessError s m addr kind).weft = s.weft := by
  unfold accessError; (try dsimp only); (repeat' split) <;> simp
@[simp] theorem accessError_tier (s : State) (m : Master) (addr kind : Nat) : (accessError s m addr kind).tier = s.tier := by
  unfold accessError; (try dsimp only); (repeat' split) <;> simp
@[simp] theorem accessError_mem (s : State) (m : Master) (addr kind : Nat) : (accessError s m addr kind).mem = s.mem := by
  unfold accessError; (try dsimp only); (repeat' split) <;> simp
@[simp] theorem accessError_plait (s : State) (m : Master) (addr kind : Nat) : (accessError s m addr kind).plait = s.plait := by
  unfold accessError; (try dsimp only); (repeat' split) <;> simp
@[simp] theorem accessError_attn (s : State) (m : Master) (addr kind : Nat) : (accessError s m addr kind).attn = s.attn := by
  unfold accessError; (try dsimp only); (repeat' split) <;> simp
@[simp] theorem accessError_osier (s : State) (m : Master) (addr kind : Nat) : (accessError s m addr kind).osier = s.osier := by
  unfold accessError; (try dsimp only); (repeat' split) <;> simp
@[simp] theorem accessError_coma (s : State) (m : Master) (addr kind : Nat) : (accessError s m addr kind).coma = s.coma := by
  unfold accessError; (try dsimp only); (repeat' split) <;> simp
@[simp] theorem accessError_ports (s : State) (m : Master) (addr kind : Nat) : (accessError s m addr kind).ports = s.ports := by
  unfold accessError; (try dsimp only); (repeat' split) <;> simp
@[simp] theorem accessError_fab (s : State) (m : Master) (addr kind : Nat) : (accessError s m addr kind).fab = s.fab := by
  unfold accessError; (try dsimp only); (repeat' split) <;> simp
@[simp] theorem accessError_qpe (s : State) (m : Master) (addr kind : Nat) : (accessError s m addr kind).qpe = s.qpe := by
  unfold accessError; (try dsimp only); (repeat' split) <;> simp
@[simp] theorem accessError_egr (s : State) (m : Master) (addr kind : Nat) : (accessError s m addr kind).egr = s.egr := by
  unfold accessError; (try dsimp only); (repeat' split) <;> simp
@[simp] theorem accessError_ledger (s : State) (m : Master) (addr kind : Nat) : (accessError s m addr kind).ledger = s.ledger := by
  unfold accessError; (try dsimp only); (repeat' split) <;> simp
@[simp] theorem accessError_brake (s : State) (m : Master) (addr kind : Nat) : (accessError s m addr kind).brake = s.brake := by
  unfold accessError; (try dsimp only); (repeat' split) <;> simp
@[simp] theorem accessError_therm (s : State) (m : Master) (addr kind : Nat) : (accessError s m addr kind).therm = s.therm := by
  unfold accessError; (try dsimp only); (repeat' split) <;> simp
@[simp] theorem accessError_sec (s : State) (m : Master) (addr kind : Nat) : (accessError s m addr kind).sec = s.sec := by
  unfold accessError; (try dsimp only); (repeat' split) <;> simp
@[simp] theorem accessError_fault (s : State) (m : Master) (addr kind : Nat) : (accessError s m addr kind).fault = s.fault := by
  unfold accessError; (try dsimp only); (repeat' split) <;> simp
@[simp] theorem accessError_svc (s : State) (m : Master) (addr kind : Nat) : (accessError s m addr kind).svc = s.svc := by
  unfold accessError; (try dsimp only); (repeat' split) <;> simp
@[simp] theorem accessError_map (s : State) (m : Master) (addr kind : Nat) : (accessError s m addr kind).map = s.map := by
  unfold accessError; (try dsimp only); (repeat' split) <;> simp

@[simp] theorem guardRefuse_pending (s : State) (kind ring addr : Nat) : (guardRefuse s kind ring addr).pending = s.pending := by
  unfold guardRefuse; (try dsimp only); (repeat' split) <;> simp
@[simp] theorem guardRefuse_freeCtr (s : State) (kind ring addr : Nat) : (guardRefuse s kind ring addr).freeCtr = s.freeCtr := by
  unfold guardRefuse; (try dsimp only); (repeat' split) <;> simp
@[simp] theorem guardRefuse_rngCtr (s : State) (kind ring addr : Nat) : (guardRefuse s kind ring addr).rngCtr = s.rngCtr := by
  unfold guardRefuse; (try dsimp only); (repeat' split) <;> simp
@[simp] theorem guardRefuse_pins (s : State) (kind ring addr : Nat) : (guardRefuse s kind ring addr).pins = s.pins := by
  unfold guardRefuse; (try dsimp only); (repeat' split) <;> simp
@[simp] theorem guardRefuse_boot (s : State) (kind ring addr : Nat) : (guardRefuse s kind ring addr).boot = s.boot := by
  unfold guardRefuse; (try dsimp only); (repeat' split) <;> simp
@[simp] theorem guardRefuse_clk (s : State) (kind ring addr : Nat) : (guardRefuse s kind ring addr).clk = s.clk := by
  unfold guardRefuse; (try dsimp only); (repeat' split) <;> simp
@[simp] theorem guardRefuse_weft (s : State) (kind ring addr : Nat) : (guardRefuse s kind ring addr).weft = s.weft := by
  unfold guardRefuse; (try dsimp only); (repeat' split) <;> simp
@[simp] theorem guardRefuse_tier (s : State) (kind ring addr : Nat) : (guardRefuse s kind ring addr).tier = s.tier := by
  unfold guardRefuse; (try dsimp only); (repeat' split) <;> simp
@[simp] theorem guardRefuse_mem (s : State) (kind ring addr : Nat) : (guardRefuse s kind ring addr).mem = s.mem := by
  unfold guardRefuse; (try dsimp only); (repeat' split) <;> simp
@[simp] theorem guardRefuse_plait (s : State) (kind ring addr : Nat) : (guardRefuse s kind ring addr).plait = s.plait := by
  unfold guardRefuse; (try dsimp only); (repeat' split) <;> simp
@[simp] theorem guardRefuse_attn (s : State) (kind ring addr : Nat) : (guardRefuse s kind ring addr).attn = s.attn := by
  unfold guardRefuse; (try dsimp only); (repeat' split) <;> simp
@[simp] theorem guardRefuse_osier (s : State) (kind ring addr : Nat) : (guardRefuse s kind ring addr).osier = s.osier := by
  unfold guardRefuse; (try dsimp only); (repeat' split) <;> simp
@[simp] theorem guardRefuse_coma (s : State) (kind ring addr : Nat) : (guardRefuse s kind ring addr).coma = s.coma := by
  unfold guardRefuse; (try dsimp only); (repeat' split) <;> simp
@[simp] theorem guardRefuse_ports (s : State) (kind ring addr : Nat) : (guardRefuse s kind ring addr).ports = s.ports := by
  unfold guardRefuse; (try dsimp only); (repeat' split) <;> simp
@[simp] theorem guardRefuse_fab (s : State) (kind ring addr : Nat) : (guardRefuse s kind ring addr).fab = s.fab := by
  unfold guardRefuse; (try dsimp only); (repeat' split) <;> simp
@[simp] theorem guardRefuse_qpe (s : State) (kind ring addr : Nat) : (guardRefuse s kind ring addr).qpe = s.qpe := by
  unfold guardRefuse; (try dsimp only); (repeat' split) <;> simp
@[simp] theorem guardRefuse_egr (s : State) (kind ring addr : Nat) : (guardRefuse s kind ring addr).egr = s.egr := by
  unfold guardRefuse; (try dsimp only); (repeat' split) <;> simp
@[simp] theorem guardRefuse_ledger (s : State) (kind ring addr : Nat) : (guardRefuse s kind ring addr).ledger = s.ledger := by
  unfold guardRefuse; (try dsimp only); (repeat' split) <;> simp
@[simp] theorem guardRefuse_brake (s : State) (kind ring addr : Nat) : (guardRefuse s kind ring addr).brake = s.brake := by
  unfold guardRefuse; (try dsimp only); (repeat' split) <;> simp
@[simp] theorem guardRefuse_therm (s : State) (kind ring addr : Nat) : (guardRefuse s kind ring addr).therm = s.therm := by
  unfold guardRefuse; (try dsimp only); (repeat' split) <;> simp
@[simp] theorem guardRefuse_fault (s : State) (kind ring addr : Nat) : (guardRefuse s kind ring addr).fault = s.fault := by
  unfold guardRefuse; (try dsimp only); (repeat' split) <;> simp
@[simp] theorem guardRefuse_svc (s : State) (kind ring addr : Nat) : (guardRefuse s kind ring addr).svc = s.svc := by
  unfold guardRefuse; (try dsimp only); (repeat' split) <;> simp
@[simp] theorem guardRefuse_map (s : State) (kind ring addr : Nat) : (guardRefuse s kind ring addr).map = s.map := by
  unfold guardRefuse; (try dsimp only); (repeat' split) <;> simp

@[simp] theorem putStored_pending (s : State) (m : Master) (off w : Nat) : (putStored s m off w).pending = s.pending := by
  unfold putStored; (try dsimp only); (repeat' split) <;> simp
@[simp] theorem putStored_out (s : State) (m : Master) (off w : Nat) : (putStored s m off w).out = s.out := by
  unfold putStored; (try dsimp only); (repeat' split) <;> simp
@[simp] theorem putStored_freeCtr (s : State) (m : Master) (off w : Nat) : (putStored s m off w).freeCtr = s.freeCtr := by
  unfold putStored; (try dsimp only); (repeat' split) <;> simp
@[simp] theorem putStored_rngCtr (s : State) (m : Master) (off w : Nat) : (putStored s m off w).rngCtr = s.rngCtr := by
  unfold putStored; (try dsimp only); (repeat' split) <;> simp
@[simp] theorem putStored_pins (s : State) (m : Master) (off w : Nat) : (putStored s m off w).pins = s.pins := by
  unfold putStored; (try dsimp only); (repeat' split) <;> simp
@[simp] theorem putStored_boot (s : State) (m : Master) (off w : Nat) : (putStored s m off w).boot = s.boot := by
  unfold putStored; (try dsimp only); (repeat' split) <;> simp
@[simp] theorem putStored_clk (s : State) (m : Master) (off w : Nat) : (putStored s m off w).clk = s.clk := by
  unfold putStored; (try dsimp only); (repeat' split) <;> simp
@[simp] theorem putStored_hostq (s : State) (m : Master) (off w : Nat) : (putStored s m off w).hostq = s.hostq := by
  unfold putStored; (try dsimp only); (repeat' split) <;> simp
@[simp] theorem putStored_weft (s : State) (m : Master) (off w : Nat) : (putStored s m off w).weft = s.weft := by
  unfold putStored; (try dsimp only); (repeat' split) <;> simp
@[simp] theorem putStored_tier (s : State) (m : Master) (off w : Nat) : (putStored s m off w).tier = s.tier := by
  unfold putStored; (try dsimp only); (repeat' split) <;> simp
@[simp] theorem putStored_mem (s : State) (m : Master) (off w : Nat) : (putStored s m off w).mem = s.mem := by
  unfold putStored; (try dsimp only); (repeat' split) <;> simp
@[simp] theorem putStored_plait (s : State) (m : Master) (off w : Nat) : (putStored s m off w).plait = s.plait := by
  unfold putStored; (try dsimp only); (repeat' split) <;> simp
@[simp] theorem putStored_attn (s : State) (m : Master) (off w : Nat) : (putStored s m off w).attn = s.attn := by
  unfold putStored; (try dsimp only); (repeat' split) <;> simp
@[simp] theorem putStored_osier (s : State) (m : Master) (off w : Nat) : (putStored s m off w).osier = s.osier := by
  unfold putStored; (try dsimp only); (repeat' split) <;> simp
@[simp] theorem putStored_coma (s : State) (m : Master) (off w : Nat) : (putStored s m off w).coma = s.coma := by
  unfold putStored; (try dsimp only); (repeat' split) <;> simp
@[simp] theorem putStored_ports (s : State) (m : Master) (off w : Nat) : (putStored s m off w).ports = s.ports := by
  unfold putStored; (try dsimp only); (repeat' split) <;> simp
@[simp] theorem putStored_fab (s : State) (m : Master) (off w : Nat) : (putStored s m off w).fab = s.fab := by
  unfold putStored; (try dsimp only); (repeat' split) <;> simp
@[simp] theorem putStored_qpe (s : State) (m : Master) (off w : Nat) : (putStored s m off w).qpe = s.qpe := by
  unfold putStored; (try dsimp only); (repeat' split) <;> simp
@[simp] theorem putStored_egr (s : State) (m : Master) (off w : Nat) : (putStored s m off w).egr = s.egr := by
  unfold putStored; (try dsimp only); (repeat' split) <;> simp
@[simp] theorem putStored_ledger (s : State) (m : Master) (off w : Nat) : (putStored s m off w).ledger = s.ledger := by
  unfold putStored; (try dsimp only); (repeat' split) <;> simp
@[simp] theorem putStored_brake (s : State) (m : Master) (off w : Nat) : (putStored s m off w).brake = s.brake := by
  unfold putStored; (try dsimp only); (repeat' split) <;> simp
@[simp] theorem putStored_therm (s : State) (m : Master) (off w : Nat) : (putStored s m off w).therm = s.therm := by
  unfold putStored; (try dsimp only); (repeat' split) <;> simp
@[simp] theorem putStored_sec (s : State) (m : Master) (off w : Nat) : (putStored s m off w).sec = s.sec := by
  unfold putStored; (try dsimp only); (repeat' split) <;> simp
@[simp] theorem putStored_fault (s : State) (m : Master) (off w : Nat) : (putStored s m off w).fault = s.fault := by
  unfold putStored; (try dsimp only); (repeat' split) <;> simp
@[simp] theorem putStored_svc (s : State) (m : Master) (off w : Nat) : (putStored s m off w).svc = s.svc := by
  unfold putStored; (try dsimp only); (repeat' split) <;> simp
@[simp] theorem putStored_map (s : State) (m : Master) (off w : Nat) : (putStored s m off w).map = s.map := by
  unfold putStored; (try dsimp only); (repeat' split) <;> simp
@[simp] theorem putStored_sb (s : State) (m : Master) (off w : Nat) : (putStored s m off w).sb = s.sb := by
  unfold putStored; (try dsimp only); (repeat' split) <;> simp

@[simp] theorem takeWord_pending (s : State) (m : Master) (off : Nat) (r : Reg) (w : Nat) : (takeWord s m off r w).pending = s.pending := by
  unfold takeWord; (try dsimp only); (repeat' split) <;> simp
@[simp] theorem takeWord_out (s : State) (m : Master) (off : Nat) (r : Reg) (w : Nat) : (takeWord s m off r w).out = s.out := by
  unfold takeWord; (try dsimp only); (repeat' split) <;> simp
@[simp] theorem takeWord_freeCtr (s : State) (m : Master) (off : Nat) (r : Reg) (w : Nat) : (takeWord s m off r w).freeCtr = s.freeCtr := by
  unfold takeWord; (try dsimp only); (repeat' split) <;> simp
@[simp] theorem takeWord_rngCtr (s : State) (m : Master) (off : Nat) (r : Reg) (w : Nat) : (takeWord s m off r w).rngCtr = s.rngCtr := by
  unfold takeWord; (try dsimp only); (repeat' split) <;> simp
@[simp] theorem takeWord_pins (s : State) (m : Master) (off : Nat) (r : Reg) (w : Nat) : (takeWord s m off r w).pins = s.pins := by
  unfold takeWord; (try dsimp only); (repeat' split) <;> simp
@[simp] theorem takeWord_boot (s : State) (m : Master) (off : Nat) (r : Reg) (w : Nat) : (takeWord s m off r w).boot = s.boot := by
  unfold takeWord; (try dsimp only); (repeat' split) <;> simp
@[simp] theorem takeWord_clk (s : State) (m : Master) (off : Nat) (r : Reg) (w : Nat) : (takeWord s m off r w).clk = s.clk := by
  unfold takeWord; (try dsimp only); (repeat' split) <;> simp
@[simp] theorem takeWord_hostq (s : State) (m : Master) (off : Nat) (r : Reg) (w : Nat) : (takeWord s m off r w).hostq = s.hostq := by
  unfold takeWord; (try dsimp only); (repeat' split) <;> simp
@[simp] theorem takeWord_weft (s : State) (m : Master) (off : Nat) (r : Reg) (w : Nat) : (takeWord s m off r w).weft = s.weft := by
  unfold takeWord; (try dsimp only); (repeat' split) <;> simp
@[simp] theorem takeWord_tier (s : State) (m : Master) (off : Nat) (r : Reg) (w : Nat) : (takeWord s m off r w).tier = s.tier := by
  unfold takeWord; (try dsimp only); (repeat' split) <;> simp
@[simp] theorem takeWord_mem (s : State) (m : Master) (off : Nat) (r : Reg) (w : Nat) : (takeWord s m off r w).mem = s.mem := by
  unfold takeWord; (try dsimp only); (repeat' split) <;> simp
@[simp] theorem takeWord_plait (s : State) (m : Master) (off : Nat) (r : Reg) (w : Nat) : (takeWord s m off r w).plait = s.plait := by
  unfold takeWord; (try dsimp only); (repeat' split) <;> simp
@[simp] theorem takeWord_attn (s : State) (m : Master) (off : Nat) (r : Reg) (w : Nat) : (takeWord s m off r w).attn = s.attn := by
  unfold takeWord; (try dsimp only); (repeat' split) <;> simp
@[simp] theorem takeWord_osier (s : State) (m : Master) (off : Nat) (r : Reg) (w : Nat) : (takeWord s m off r w).osier = s.osier := by
  unfold takeWord; (try dsimp only); (repeat' split) <;> simp
@[simp] theorem takeWord_coma (s : State) (m : Master) (off : Nat) (r : Reg) (w : Nat) : (takeWord s m off r w).coma = s.coma := by
  unfold takeWord; (try dsimp only); (repeat' split) <;> simp
@[simp] theorem takeWord_ports (s : State) (m : Master) (off : Nat) (r : Reg) (w : Nat) : (takeWord s m off r w).ports = s.ports := by
  unfold takeWord; (try dsimp only); (repeat' split) <;> simp
@[simp] theorem takeWord_fab (s : State) (m : Master) (off : Nat) (r : Reg) (w : Nat) : (takeWord s m off r w).fab = s.fab := by
  unfold takeWord; (try dsimp only); (repeat' split) <;> simp
@[simp] theorem takeWord_qpe (s : State) (m : Master) (off : Nat) (r : Reg) (w : Nat) : (takeWord s m off r w).qpe = s.qpe := by
  unfold takeWord; (try dsimp only); (repeat' split) <;> simp
@[simp] theorem takeWord_egr (s : State) (m : Master) (off : Nat) (r : Reg) (w : Nat) : (takeWord s m off r w).egr = s.egr := by
  unfold takeWord; (try dsimp only); (repeat' split) <;> simp
@[simp] theorem takeWord_ledger (s : State) (m : Master) (off : Nat) (r : Reg) (w : Nat) : (takeWord s m off r w).ledger = s.ledger := by
  unfold takeWord; (try dsimp only); (repeat' split) <;> simp
@[simp] theorem takeWord_brake (s : State) (m : Master) (off : Nat) (r : Reg) (w : Nat) : (takeWord s m off r w).brake = s.brake := by
  unfold takeWord; (try dsimp only); (repeat' split) <;> simp
@[simp] theorem takeWord_therm (s : State) (m : Master) (off : Nat) (r : Reg) (w : Nat) : (takeWord s m off r w).therm = s.therm := by
  unfold takeWord; (try dsimp only); (repeat' split) <;> simp
@[simp] theorem takeWord_sec (s : State) (m : Master) (off : Nat) (r : Reg) (w : Nat) : (takeWord s m off r w).sec = s.sec := by
  unfold takeWord; (try dsimp only); (repeat' split) <;> simp
@[simp] theorem takeWord_fault (s : State) (m : Master) (off : Nat) (r : Reg) (w : Nat) : (takeWord s m off r w).fault = s.fault := by
  unfold takeWord; (try dsimp only); (repeat' split) <;> simp
@[simp] theorem takeWord_svc (s : State) (m : Master) (off : Nat) (r : Reg) (w : Nat) : (takeWord s m off r w).svc = s.svc := by
  unfold takeWord; (try dsimp only); (repeat' split) <;> simp
@[simp] theorem takeWord_map (s : State) (m : Master) (off : Nat) (r : Reg) (w : Nat) : (takeWord s m off r w).map = s.map := by
  unfold takeWord; (try dsimp only); (repeat' split) <;> simp
@[simp] theorem takeWord_sb (s : State) (m : Master) (off : Nat) (r : Reg) (w : Nat) : (takeWord s m off r w).sb = s.sb := by
  unfold takeWord; (try dsimp only); (repeat' split) <;> simp

@[simp] theorem typedWrite_pending (s : State) (m : Master) (v : View) (addr : Nat) (r : Reg) (d : Nat) : (typedWrite s m v addr r d).pending = s.pending := by
  unfold typedWrite; (try dsimp only); (repeat' split) <;> simp
@[simp] theorem typedWrite_freeCtr (s : State) (m : Master) (v : View) (addr : Nat) (r : Reg) (d : Nat) : (typedWrite s m v addr r d).freeCtr = s.freeCtr := by
  unfold typedWrite; (try dsimp only); (repeat' split) <;> simp
@[simp] theorem typedWrite_rngCtr (s : State) (m : Master) (v : View) (addr : Nat) (r : Reg) (d : Nat) : (typedWrite s m v addr r d).rngCtr = s.rngCtr := by
  unfold typedWrite; (try dsimp only); (repeat' split) <;> simp
@[simp] theorem typedWrite_pins (s : State) (m : Master) (v : View) (addr : Nat) (r : Reg) (d : Nat) : (typedWrite s m v addr r d).pins = s.pins := by
  unfold typedWrite; (try dsimp only); (repeat' split) <;> simp
@[simp] theorem typedWrite_boot (s : State) (m : Master) (v : View) (addr : Nat) (r : Reg) (d : Nat) : (typedWrite s m v addr r d).boot = s.boot := by
  unfold typedWrite; (try dsimp only); (repeat' split) <;> simp
@[simp] theorem typedWrite_clk (s : State) (m : Master) (v : View) (addr : Nat) (r : Reg) (d : Nat) : (typedWrite s m v addr r d).clk = s.clk := by
  unfold typedWrite; (try dsimp only); (repeat' split) <;> simp
@[simp] theorem typedWrite_weft (s : State) (m : Master) (v : View) (addr : Nat) (r : Reg) (d : Nat) : (typedWrite s m v addr r d).weft = s.weft := by
  unfold typedWrite; (try dsimp only); (repeat' split) <;> simp
@[simp] theorem typedWrite_tier (s : State) (m : Master) (v : View) (addr : Nat) (r : Reg) (d : Nat) : (typedWrite s m v addr r d).tier = s.tier := by
  unfold typedWrite; (try dsimp only); (repeat' split) <;> simp
@[simp] theorem typedWrite_mem (s : State) (m : Master) (v : View) (addr : Nat) (r : Reg) (d : Nat) : (typedWrite s m v addr r d).mem = s.mem := by
  unfold typedWrite; (try dsimp only); (repeat' split) <;> simp
@[simp] theorem typedWrite_plait (s : State) (m : Master) (v : View) (addr : Nat) (r : Reg) (d : Nat) : (typedWrite s m v addr r d).plait = s.plait := by
  unfold typedWrite; (try dsimp only); (repeat' split) <;> simp
@[simp] theorem typedWrite_attn (s : State) (m : Master) (v : View) (addr : Nat) (r : Reg) (d : Nat) : (typedWrite s m v addr r d).attn = s.attn := by
  unfold typedWrite; (try dsimp only); (repeat' split) <;> simp
@[simp] theorem typedWrite_osier (s : State) (m : Master) (v : View) (addr : Nat) (r : Reg) (d : Nat) : (typedWrite s m v addr r d).osier = s.osier := by
  unfold typedWrite; (try dsimp only); (repeat' split) <;> simp
@[simp] theorem typedWrite_coma (s : State) (m : Master) (v : View) (addr : Nat) (r : Reg) (d : Nat) : (typedWrite s m v addr r d).coma = s.coma := by
  unfold typedWrite; (try dsimp only); (repeat' split) <;> simp
@[simp] theorem typedWrite_ports (s : State) (m : Master) (v : View) (addr : Nat) (r : Reg) (d : Nat) : (typedWrite s m v addr r d).ports = s.ports := by
  unfold typedWrite; (try dsimp only); (repeat' split) <;> simp
@[simp] theorem typedWrite_fab (s : State) (m : Master) (v : View) (addr : Nat) (r : Reg) (d : Nat) : (typedWrite s m v addr r d).fab = s.fab := by
  unfold typedWrite; (try dsimp only); (repeat' split) <;> simp
@[simp] theorem typedWrite_qpe (s : State) (m : Master) (v : View) (addr : Nat) (r : Reg) (d : Nat) : (typedWrite s m v addr r d).qpe = s.qpe := by
  unfold typedWrite; (try dsimp only); (repeat' split) <;> simp
@[simp] theorem typedWrite_egr (s : State) (m : Master) (v : View) (addr : Nat) (r : Reg) (d : Nat) : (typedWrite s m v addr r d).egr = s.egr := by
  unfold typedWrite; (try dsimp only); (repeat' split) <;> simp
@[simp] theorem typedWrite_ledger (s : State) (m : Master) (v : View) (addr : Nat) (r : Reg) (d : Nat) : (typedWrite s m v addr r d).ledger = s.ledger := by
  unfold typedWrite; (try dsimp only); (repeat' split) <;> simp
@[simp] theorem typedWrite_brake (s : State) (m : Master) (v : View) (addr : Nat) (r : Reg) (d : Nat) : (typedWrite s m v addr r d).brake = s.brake := by
  unfold typedWrite; (try dsimp only); (repeat' split) <;> simp
@[simp] theorem typedWrite_therm (s : State) (m : Master) (v : View) (addr : Nat) (r : Reg) (d : Nat) : (typedWrite s m v addr r d).therm = s.therm := by
  unfold typedWrite; (try dsimp only); (repeat' split) <;> simp
@[simp] theorem typedWrite_fault (s : State) (m : Master) (v : View) (addr : Nat) (r : Reg) (d : Nat) : (typedWrite s m v addr r d).fault = s.fault := by
  unfold typedWrite; (try dsimp only); (repeat' split) <;> simp
@[simp] theorem typedWrite_svc (s : State) (m : Master) (v : View) (addr : Nat) (r : Reg) (d : Nat) : (typedWrite s m v addr r d).svc = s.svc := by
  unfold typedWrite; (try dsimp only); (repeat' split) <;> simp
@[simp] theorem typedWrite_map (s : State) (m : Master) (v : View) (addr : Nat) (r : Reg) (d : Nat) : (typedWrite s m v addr r d).map = s.map := by
  unfold typedWrite; (try dsimp only); (repeat' split) <;> simp

@[simp] theorem debit_pending (s : State) (u : Nat) : (debit s u).pending = s.pending := rfl
@[simp] theorem debit_out (s : State) (u : Nat) : (debit s u).out = s.out := rfl
@[simp] theorem debit_freeCtr (s : State) (u : Nat) : (debit s u).freeCtr = s.freeCtr := rfl
@[simp] theorem debit_rngCtr (s : State) (u : Nat) : (debit s u).rngCtr = s.rngCtr := rfl
@[simp] theorem debit_pins (s : State) (u : Nat) : (debit s u).pins = s.pins := rfl
@[simp] theorem debit_boot (s : State) (u : Nat) : (debit s u).boot = s.boot := rfl
@[simp] theorem debit_clk (s : State) (u : Nat) : (debit s u).clk = s.clk := rfl
@[simp] theorem debit_regs (s : State) (u : Nat) : (debit s u).regs = s.regs := rfl
@[simp] theorem debit_hostq (s : State) (u : Nat) : (debit s u).hostq = s.hostq := rfl
@[simp] theorem debit_weft (s : State) (u : Nat) : (debit s u).weft = s.weft := rfl
@[simp] theorem debit_tier (s : State) (u : Nat) : (debit s u).tier = s.tier := rfl
@[simp] theorem debit_mem (s : State) (u : Nat) : (debit s u).mem = s.mem := rfl
@[simp] theorem debit_plait (s : State) (u : Nat) : (debit s u).plait = s.plait := rfl
@[simp] theorem debit_attn (s : State) (u : Nat) : (debit s u).attn = s.attn := rfl
@[simp] theorem debit_osier (s : State) (u : Nat) : (debit s u).osier = s.osier := rfl
@[simp] theorem debit_coma (s : State) (u : Nat) : (debit s u).coma = s.coma := rfl
@[simp] theorem debit_ports (s : State) (u : Nat) : (debit s u).ports = s.ports := rfl
@[simp] theorem debit_fab (s : State) (u : Nat) : (debit s u).fab = s.fab := rfl
@[simp] theorem debit_qpe (s : State) (u : Nat) : (debit s u).qpe = s.qpe := rfl
@[simp] theorem debit_egr (s : State) (u : Nat) : (debit s u).egr = s.egr := rfl
@[simp] theorem debit_brake (s : State) (u : Nat) : (debit s u).brake = s.brake := rfl
@[simp] theorem debit_therm (s : State) (u : Nat) : (debit s u).therm = s.therm := rfl
@[simp] theorem debit_sec (s : State) (u : Nat) : (debit s u).sec = s.sec := rfl
@[simp] theorem debit_fault (s : State) (u : Nat) : (debit s u).fault = s.fault := rfl
@[simp] theorem debit_svc (s : State) (u : Nat) : (debit s u).svc = s.svc := rfl
@[simp] theorem debit_map (s : State) (u : Nat) : (debit s u).map = s.map := rfl
@[simp] theorem debit_sb (s : State) (u : Nat) : (debit s u).sb = s.sb := rfl

@[simp] theorem applyFall_pending (s : State) : (applyFall s).pending = s.pending := by
  unfold applyFall; (try dsimp only); (repeat' split) <;> simp
@[simp] theorem applyFall_out (s : State) : (applyFall s).out = s.out := by
  unfold applyFall; (try dsimp only); (repeat' split) <;> simp
@[simp] theorem applyFall_freeCtr (s : State) : (applyFall s).freeCtr = s.freeCtr := by
  unfold applyFall; (try dsimp only); (repeat' split) <;> simp
@[simp] theorem applyFall_rngCtr (s : State) : (applyFall s).rngCtr = s.rngCtr := by
  unfold applyFall; (try dsimp only); (repeat' split) <;> simp
@[simp] theorem applyFall_pins (s : State) : (applyFall s).pins = s.pins := by
  unfold applyFall; (try dsimp only); (repeat' split) <;> simp
@[simp] theorem applyFall_boot (s : State) : (applyFall s).boot = s.boot := by
  unfold applyFall; (try dsimp only); (repeat' split) <;> simp
@[simp] theorem applyFall_clk (s : State) : (applyFall s).clk = s.clk := by
  unfold applyFall; (try dsimp only); (repeat' split) <;> simp
@[simp] theorem applyFall_regs (s : State) : (applyFall s).regs = s.regs := by
  unfold applyFall; (try dsimp only); (repeat' split) <;> simp
@[simp] theorem applyFall_hostq (s : State) : (applyFall s).hostq = s.hostq := by
  unfold applyFall; (try dsimp only); (repeat' split) <;> simp
@[simp] theorem applyFall_weft (s : State) : (applyFall s).weft = s.weft := by
  unfold applyFall; (try dsimp only); (repeat' split) <;> simp
@[simp] theorem applyFall_tier (s : State) : (applyFall s).tier = s.tier := by
  unfold applyFall; (try dsimp only); (repeat' split) <;> simp
@[simp] theorem applyFall_mem (s : State) : (applyFall s).mem = s.mem := by
  unfold applyFall; (try dsimp only); (repeat' split) <;> simp
@[simp] theorem applyFall_plait (s : State) : (applyFall s).plait = s.plait := by
  unfold applyFall; (try dsimp only); (repeat' split) <;> simp
@[simp] theorem applyFall_attn (s : State) : (applyFall s).attn = s.attn := by
  unfold applyFall; (try dsimp only); (repeat' split) <;> simp
@[simp] theorem applyFall_osier (s : State) : (applyFall s).osier = s.osier := by
  unfold applyFall; (try dsimp only); (repeat' split) <;> simp
@[simp] theorem applyFall_coma (s : State) : (applyFall s).coma = s.coma := by
  unfold applyFall; (try dsimp only); (repeat' split) <;> simp
@[simp] theorem applyFall_ports (s : State) : (applyFall s).ports = s.ports := by
  unfold applyFall; (try dsimp only); (repeat' split) <;> simp
@[simp] theorem applyFall_fab (s : State) : (applyFall s).fab = s.fab := by
  unfold applyFall; (try dsimp only); (repeat' split) <;> simp
@[simp] theorem applyFall_qpe (s : State) : (applyFall s).qpe = s.qpe := by
  unfold applyFall; (try dsimp only); (repeat' split) <;> simp
@[simp] theorem applyFall_egr (s : State) : (applyFall s).egr = s.egr := by
  unfold applyFall; (try dsimp only); (repeat' split) <;> simp
@[simp] theorem applyFall_brake (s : State) : (applyFall s).brake = s.brake := by
  unfold applyFall; (try dsimp only); (repeat' split) <;> simp
@[simp] theorem applyFall_therm (s : State) : (applyFall s).therm = s.therm := by
  unfold applyFall; (try dsimp only); (repeat' split) <;> simp
@[simp] theorem applyFall_sec (s : State) : (applyFall s).sec = s.sec := by
  unfold applyFall; (try dsimp only); (repeat' split) <;> simp
@[simp] theorem applyFall_fault (s : State) : (applyFall s).fault = s.fault := by
  unfold applyFall; (try dsimp only); (repeat' split) <;> simp
@[simp] theorem applyFall_svc (s : State) : (applyFall s).svc = s.svc := by
  unfold applyFall; (try dsimp only); (repeat' split) <;> simp
@[simp] theorem applyFall_map (s : State) : (applyFall s).map = s.map := by
  unfold applyFall; (try dsimp only); (repeat' split) <;> simp
@[simp] theorem applyFall_sb (s : State) : (applyFall s).sb = s.sb := by
  unfold applyFall; (try dsimp only); (repeat' split) <;> simp

@[simp] theorem ledgerEvent_pending (s : State) (bit : Nat) : (ledgerEvent s bit).pending = s.pending := by
  unfold ledgerEvent; (try dsimp only); (repeat' split) <;> simp
@[simp] theorem ledgerEvent_freeCtr (s : State) (bit : Nat) : (ledgerEvent s bit).freeCtr = s.freeCtr := by
  unfold ledgerEvent; (try dsimp only); (repeat' split) <;> simp
@[simp] theorem ledgerEvent_rngCtr (s : State) (bit : Nat) : (ledgerEvent s bit).rngCtr = s.rngCtr := by
  unfold ledgerEvent; (try dsimp only); (repeat' split) <;> simp
@[simp] theorem ledgerEvent_pins (s : State) (bit : Nat) : (ledgerEvent s bit).pins = s.pins := by
  unfold ledgerEvent; (try dsimp only); (repeat' split) <;> simp
@[simp] theorem ledgerEvent_boot (s : State) (bit : Nat) : (ledgerEvent s bit).boot = s.boot := by
  unfold ledgerEvent; (try dsimp only); (repeat' split) <;> simp
@[simp] theorem ledgerEvent_clk (s : State) (bit : Nat) : (ledgerEvent s bit).clk = s.clk := by
  unfold ledgerEvent; (try dsimp only); (repeat' split) <;> simp
@[simp] theorem ledgerEvent_weft (s : State) (bit : Nat) : (ledgerEvent s bit).weft = s.weft := by
  unfold ledgerEvent; (try dsimp only); (repeat' split) <;> simp
@[simp] theorem ledgerEvent_tier (s : State) (bit : Nat) : (ledgerEvent s bit).tier = s.tier := by
  unfold ledgerEvent; (try dsimp only); (repeat' split) <;> simp
@[simp] theorem ledgerEvent_mem (s : State) (bit : Nat) : (ledgerEvent s bit).mem = s.mem := by
  unfold ledgerEvent; (try dsimp only); (repeat' split) <;> simp
@[simp] theorem ledgerEvent_plait (s : State) (bit : Nat) : (ledgerEvent s bit).plait = s.plait := by
  unfold ledgerEvent; (try dsimp only); (repeat' split) <;> simp
@[simp] theorem ledgerEvent_attn (s : State) (bit : Nat) : (ledgerEvent s bit).attn = s.attn := by
  unfold ledgerEvent; (try dsimp only); (repeat' split) <;> simp
@[simp] theorem ledgerEvent_osier (s : State) (bit : Nat) : (ledgerEvent s bit).osier = s.osier := by
  unfold ledgerEvent; (try dsimp only); (repeat' split) <;> simp
@[simp] theorem ledgerEvent_coma (s : State) (bit : Nat) : (ledgerEvent s bit).coma = s.coma := by
  unfold ledgerEvent; (try dsimp only); (repeat' split) <;> simp
@[simp] theorem ledgerEvent_ports (s : State) (bit : Nat) : (ledgerEvent s bit).ports = s.ports := by
  unfold ledgerEvent; (try dsimp only); (repeat' split) <;> simp
@[simp] theorem ledgerEvent_fab (s : State) (bit : Nat) : (ledgerEvent s bit).fab = s.fab := by
  unfold ledgerEvent; (try dsimp only); (repeat' split) <;> simp
@[simp] theorem ledgerEvent_qpe (s : State) (bit : Nat) : (ledgerEvent s bit).qpe = s.qpe := by
  unfold ledgerEvent; (try dsimp only); (repeat' split) <;> simp
@[simp] theorem ledgerEvent_egr (s : State) (bit : Nat) : (ledgerEvent s bit).egr = s.egr := by
  unfold ledgerEvent; (try dsimp only); (repeat' split) <;> simp
@[simp] theorem ledgerEvent_ledger (s : State) (bit : Nat) : (ledgerEvent s bit).ledger = s.ledger := by
  unfold ledgerEvent; (try dsimp only); (repeat' split) <;> simp
@[simp] theorem ledgerEvent_brake (s : State) (bit : Nat) : (ledgerEvent s bit).brake = s.brake := by
  unfold ledgerEvent; (try dsimp only); (repeat' split) <;> simp
@[simp] theorem ledgerEvent_therm (s : State) (bit : Nat) : (ledgerEvent s bit).therm = s.therm := by
  unfold ledgerEvent; (try dsimp only); (repeat' split) <;> simp
@[simp] theorem ledgerEvent_sec (s : State) (bit : Nat) : (ledgerEvent s bit).sec = s.sec := by
  unfold ledgerEvent; (try dsimp only); (repeat' split) <;> simp
@[simp] theorem ledgerEvent_fault (s : State) (bit : Nat) : (ledgerEvent s bit).fault = s.fault := by
  unfold ledgerEvent; (try dsimp only); (repeat' split) <;> simp
@[simp] theorem ledgerEvent_svc (s : State) (bit : Nat) : (ledgerEvent s bit).svc = s.svc := by
  unfold ledgerEvent; (try dsimp only); (repeat' split) <;> simp
@[simp] theorem ledgerEvent_map (s : State) (bit : Nat) : (ledgerEvent s bit).map = s.map := by
  unfold ledgerEvent; (try dsimp only); (repeat' split) <;> simp

@[simp] theorem faultEnd_pending (s : State) (status : Nat) : (faultEnd s status).pending = s.pending := rfl
@[simp] theorem faultEnd_out (s : State) (status : Nat) : (faultEnd s status).out = s.out := rfl
@[simp] theorem faultEnd_freeCtr (s : State) (status : Nat) : (faultEnd s status).freeCtr = s.freeCtr := rfl
@[simp] theorem faultEnd_rngCtr (s : State) (status : Nat) : (faultEnd s status).rngCtr = s.rngCtr := rfl
@[simp] theorem faultEnd_pins (s : State) (status : Nat) : (faultEnd s status).pins = s.pins := rfl
@[simp] theorem faultEnd_boot (s : State) (status : Nat) : (faultEnd s status).boot = s.boot := rfl
@[simp] theorem faultEnd_clk (s : State) (status : Nat) : (faultEnd s status).clk = s.clk := rfl
@[simp] theorem faultEnd_regs (s : State) (status : Nat) : (faultEnd s status).regs = s.regs := rfl
@[simp] theorem faultEnd_hostq (s : State) (status : Nat) : (faultEnd s status).hostq = s.hostq := rfl
@[simp] theorem faultEnd_weft (s : State) (status : Nat) : (faultEnd s status).weft = s.weft := rfl
@[simp] theorem faultEnd_tier (s : State) (status : Nat) : (faultEnd s status).tier = s.tier := rfl
@[simp] theorem faultEnd_mem (s : State) (status : Nat) : (faultEnd s status).mem = s.mem := rfl
@[simp] theorem faultEnd_plait (s : State) (status : Nat) : (faultEnd s status).plait = s.plait := rfl
@[simp] theorem faultEnd_attn (s : State) (status : Nat) : (faultEnd s status).attn = s.attn := rfl
@[simp] theorem faultEnd_osier (s : State) (status : Nat) : (faultEnd s status).osier = s.osier := rfl
@[simp] theorem faultEnd_coma (s : State) (status : Nat) : (faultEnd s status).coma = s.coma := rfl
@[simp] theorem faultEnd_ports (s : State) (status : Nat) : (faultEnd s status).ports = s.ports := rfl
@[simp] theorem faultEnd_fab (s : State) (status : Nat) : (faultEnd s status).fab = s.fab := rfl
@[simp] theorem faultEnd_qpe (s : State) (status : Nat) : (faultEnd s status).qpe = s.qpe := rfl
@[simp] theorem faultEnd_egr (s : State) (status : Nat) : (faultEnd s status).egr = s.egr := rfl
@[simp] theorem faultEnd_ledger (s : State) (status : Nat) : (faultEnd s status).ledger = s.ledger := rfl
@[simp] theorem faultEnd_brake (s : State) (status : Nat) : (faultEnd s status).brake = s.brake := rfl
@[simp] theorem faultEnd_therm (s : State) (status : Nat) : (faultEnd s status).therm = s.therm := rfl
@[simp] theorem faultEnd_sec (s : State) (status : Nat) : (faultEnd s status).sec = s.sec := rfl
@[simp] theorem faultEnd_svc (s : State) (status : Nat) : (faultEnd s status).svc = s.svc := rfl
@[simp] theorem faultEnd_map (s : State) (status : Nat) : (faultEnd s status).map = s.map := rfl
@[simp] theorem faultEnd_sb (s : State) (status : Nat) : (faultEnd s status).sb = s.sb := rfl

@[simp] theorem secEnd_pending (s : State) (status : Nat) : (secEnd s status).pending = s.pending := rfl
@[simp] theorem secEnd_out (s : State) (status : Nat) : (secEnd s status).out = s.out := rfl
@[simp] theorem secEnd_freeCtr (s : State) (status : Nat) : (secEnd s status).freeCtr = s.freeCtr := rfl
@[simp] theorem secEnd_rngCtr (s : State) (status : Nat) : (secEnd s status).rngCtr = s.rngCtr := rfl
@[simp] theorem secEnd_pins (s : State) (status : Nat) : (secEnd s status).pins = s.pins := rfl
@[simp] theorem secEnd_boot (s : State) (status : Nat) : (secEnd s status).boot = s.boot := rfl
@[simp] theorem secEnd_clk (s : State) (status : Nat) : (secEnd s status).clk = s.clk := rfl
@[simp] theorem secEnd_regs (s : State) (status : Nat) : (secEnd s status).regs = s.regs := rfl
@[simp] theorem secEnd_hostq (s : State) (status : Nat) : (secEnd s status).hostq = s.hostq := rfl
@[simp] theorem secEnd_weft (s : State) (status : Nat) : (secEnd s status).weft = s.weft := rfl
@[simp] theorem secEnd_tier (s : State) (status : Nat) : (secEnd s status).tier = s.tier := rfl
@[simp] theorem secEnd_mem (s : State) (status : Nat) : (secEnd s status).mem = s.mem := rfl
@[simp] theorem secEnd_plait (s : State) (status : Nat) : (secEnd s status).plait = s.plait := rfl
@[simp] theorem secEnd_attn (s : State) (status : Nat) : (secEnd s status).attn = s.attn := rfl
@[simp] theorem secEnd_osier (s : State) (status : Nat) : (secEnd s status).osier = s.osier := rfl
@[simp] theorem secEnd_coma (s : State) (status : Nat) : (secEnd s status).coma = s.coma := rfl
@[simp] theorem secEnd_ports (s : State) (status : Nat) : (secEnd s status).ports = s.ports := rfl
@[simp] theorem secEnd_fab (s : State) (status : Nat) : (secEnd s status).fab = s.fab := rfl
@[simp] theorem secEnd_qpe (s : State) (status : Nat) : (secEnd s status).qpe = s.qpe := rfl
@[simp] theorem secEnd_egr (s : State) (status : Nat) : (secEnd s status).egr = s.egr := rfl
@[simp] theorem secEnd_ledger (s : State) (status : Nat) : (secEnd s status).ledger = s.ledger := rfl
@[simp] theorem secEnd_brake (s : State) (status : Nat) : (secEnd s status).brake = s.brake := rfl
@[simp] theorem secEnd_therm (s : State) (status : Nat) : (secEnd s status).therm = s.therm := rfl
@[simp] theorem secEnd_fault (s : State) (status : Nat) : (secEnd s status).fault = s.fault := rfl
@[simp] theorem secEnd_svc (s : State) (status : Nat) : (secEnd s status).svc = s.svc := rfl
@[simp] theorem secEnd_map (s : State) (status : Nat) : (secEnd s status).map = s.map := rfl
@[simp] theorem secEnd_sb (s : State) (status : Nat) : (secEnd s status).sb = s.sb := rfl

end Sys2Proof.Machine
end

