-- ==== Sys2Proof/Laws/Tables.lean ====
section
/-! SUPPORT. Sparse tables: a key put reads back, every other key stays. -/
namespace Sys2Proof.Machine
open Sys2Proof

variable {α : Type}

theorem tfind_append_none (l r : Tbl α) (k : Nat) (h : ∀ e ∈ l, e.1 ≠ k) : tfind (l ++ r) k = tfind r k := by
  induction l with
  | nil => rfl
  | cons e l ih =>
    have : e.1 ≠ k := h e (by simp)
    simp only [List.cons_append, tfind, if_neg this]
    exact ih fun x hx => h x (by simp [hx])

theorem tfind_none (l : Tbl α) (k : Nat) (h : ∀ e ∈ l, e.1 ≠ k) : tfind l k = none := by
  have := tfind_append_none l [] k h
  rw [List.append_nil] at this; exact this

theorem tfind_filter (l : Tbl α) (p : Nat → Bool) (k : Nat) (h : p k = true) : tfind (l.filter fun e => p e.1) k = tfind l k := by
  induction l with
  | nil => rfl
  | cons e l ih =>
    by_cases hp : p e.1 = true
    · rw [List.filter_cons_of_pos (p := fun e : Nat × α => p e.1) hp]; simp only [tfind, ih]
    · rw [List.filter_cons_of_neg (p := fun e : Nat × α => p e.1) hp, ih]
      have : e.1 ≠ k := fun he => hp (he ▸ h)
      simp only [tfind, if_neg this]

theorem tfind_append_ne (l r : Tbl α) (k : Nat) (h : ∀ e ∈ r, e.1 ≠ k) : tfind (l ++ r) k = tfind l k := by
  induction l with
  | nil => simpa [tfind] using tfind_none r k h
  | cons e l ih => simp only [List.cons_append, tfind, ih]

@[simp] theorem tfind_tdel_self (t : Tbl α) (k : Nat) : tfind (tdel t k) k = none := by
  apply tfind_none; intro e he; simpa using (List.mem_filter.1 he).2

theorem tfind_tdel_ne (t : Tbl α) {k j : Nat} (h : j ≠ k) : tfind (tdel t k) j = tfind t j :=
  tfind_filter t (fun x => x != k) j (by simpa using h)

@[simp] theorem tfind_tput_self (t : Tbl α) (k : Nat) (v : α) : tfind (tput t k v) k = some v := by
  unfold tput
  rw [tfind_append_none]
  · simp [tfind]
  · intro e he; have := (List.mem_filter.1 he).2; simp only [decide_eq_true_eq] at this; omega

theorem tfind_tput_ne (t : Tbl α) {k j : Nat} (v : α) (h : j ≠ k) : tfind (tput t k v) j = tfind t j := by
  unfold tput
  by_cases hlt : j < k
  · rw [tfind_append_ne]
    · exact tfind_filter t (fun x => decide (x < k)) j (by simpa using hlt)
    · intro e he
      rcases List.mem_cons.1 he with rfl | he
      · exact fun x => h x.symm
      · have := (List.mem_filter.1 he).2; simp only [decide_eq_true_eq] at this; omega
  · rw [tfind_append_none]
    · simp only [tfind, if_neg (Ne.symm h)]
      exact tfind_filter t (fun x => decide (k < x)) j (by simp only [decide_eq_true_eq]; omega)
    · intro e he; have := (List.mem_filter.1 he).2; simp only [decide_eq_true_eq] at this; omega

@[simp] theorem tget_tput_self (d : α) (t : Tbl α) (k : Nat) (v : α) : tget d (tput t k v) k = v := by simp [tget]

theorem tget_tput_ne (d : α) (t : Tbl α) {k j : Nat} (v : α) (h : j ≠ k) : tget d (tput t k v) j = tget d t j := by
  simp [tget, tfind_tput_ne t v h]

@[simp] theorem tget_tset_self [DecidableEq α] (d : α) (t : Tbl α) (k : Nat) (v : α) : tget d (tset d t k v) k = v := by
  unfold tset; split
  · simp_all [tget]
  · simp

theorem tget_tset_ne [DecidableEq α] (d : α) (t : Tbl α) {k j : Nat} (v : α) (h : j ≠ k) : tget d (tset d t k v) j = tget d t j := by
  unfold tset; split
  · simp [tget, tfind_tdel_ne t h]
  · exact tget_tput_ne d t v h

@[simp] theorem tget_tmod_self [DecidableEq α] (d : α) (t : Tbl α) (k : Nat) (f : α → α) : tget d (tmod d t k f) k = f (tget d t k) := by
  simp [tmod]

theorem tget_tmod_ne [DecidableEq α] (d : α) (t : Tbl α) {k j : Nat} (f : α → α) (h : j ≠ k) : tget d (tmod d t k f) j = tget d t j :=
  tget_tset_ne d t _ h

/-! ### Units by their accessors -/

@[simp] theorem clusterSt_setCluster (s : State) (c : Nat) (v : ClusterState) : clusterSt (setCluster s c v) c = v := tget_tset_self ..
theorem clusterSt_setCluster_ne (s : State) {c d : Nat} (v : ClusterState) (h : d ≠ c) : clusterSt (setCluster s c v) d = clusterSt s d :=
  tget_tset_ne _ _ _ h
@[simp] theorem stackSt_setStack (s : State) (i : Nat) (v : StackState) : stackSt (setStack s i v) i = v := tget_tset_self ..
theorem stackSt_setStack_ne (s : State) {i j : Nat} (v : StackState) (h : j ≠ i) : stackSt (setStack s i v) j = stackSt s j :=
  tget_tset_ne _ _ _ h
@[simp] theorem channelSt_setChannel (s : State) (n : Nat) (v : ChannelState) : channelSt (setChannel s n v) n = v := tget_tset_self ..
theorem channelSt_setChannel_ne (s : State) {n m : Nat} (v : ChannelState) (h : m ≠ n) :
    channelSt (setChannel s n v) m = channelSt s m := tget_tset_ne _ _ _ h
@[simp] theorem portOf_setPort (s : State) (p : Nat) (v : Port) : portOf (setPort s p v) p = v := tget_tset_self ..
theorem portOf_setPort_ne (s : State) {p q : Nat} (v : Port) (h : q ≠ p) : portOf (setPort s p v) q = portOf s q := tget_tset_ne _ _ _ h
@[simp] theorem unitOf_setUnit (s : State) (u : Nat) (v : OUnit) : unitOf (setUnit s u v) u = v := tget_tset_self ..
theorem unitOf_setUnit_ne (s : State) {u w : Nat} (v : OUnit) (h : w ≠ u) : unitOf (setUnit s u v) w = unitOf s w := tget_tset_ne _ _ _ h
@[simp] theorem ctxOf_setCtx (s : State) (c : Nat) (v : Ctx) : ctxOf (setCtx s c v) c = v := tget_tset_self ..
theorem ctxOf_setCtx_ne (s : State) {c d : Nat} (v : Ctx) (h : d ≠ c) : ctxOf (setCtx s c v) d = ctxOf s d := tget_tset_ne _ _ _ h
@[simp] theorem keySlot_setKey (s : State) (c : Nat) (v : KeySlot) : keySlot (setKey s c v) c = v := tget_tset_self ..
theorem keySlot_setKey_ne (s : State) {c d : Nat} (v : KeySlot) (h : d ≠ c) : keySlot (setKey s c v) d = keySlot s d := tget_tset_ne _ _ _ h
@[simp] theorem ringOf_setRing (s : State) (r : Nat) (v : Ring) : ringOf (setRing s r v) r = v := tget_tset_self ..
theorem ringOf_setRing_ne (s : State) {r q : Nat} (v : Ring) (h : q ≠ r) : ringOf (setRing s r v) q = ringOf s q := tget_tset_ne _ _ _ h
@[simp] theorem statusOf_statusPut (s : State) (off : Nat) (v : StatusReg) : statusOf (statusPut s off v) off = v := tget_tset_self ..
theorem statusOf_statusPut_ne (s : State) {off o : Nat} (v : StatusReg) (h : o ≠ off) : statusOf (statusPut s off v) o = statusOf s o :=
  tget_tset_ne _ _ _ h
@[simp] theorem cnt_count (s : State) (k n : Nat) : cnt (count s k n) k = (cnt s k + n) % 2 ^ 64 := by
  exact tget_tmod_self 0 s.regs.cnt k fun v => (v + n) % 2 ^ 64
theorem cnt_count_ne (s : State) {k j : Nat} (n : Nat) (h : j ≠ k) : cnt (count s k n) j = cnt s j := by
  exact tget_tmod_ne 0 s.regs.cnt (fun v => (v + n) % 2 ^ 64) h

/-! ### The register file -/

@[simp] theorem regWord_regPut_self (s : State) (k w : Nat) : regWord (regPut s k w) k = w % 2 ^ 32 := by
  unfold regWord regPut; dsimp only
  split <;> rename_i h <;> split at h <;> rename_i e
  · simp at h
  · simp at h; subst h; simp
  · exact e.symm
  · simp at h

theorem regWord_regPut_ne (s : State) {k j : Nat} (w : Nat) (h : j ≠ k) : regWord (regPut s k w) j = regWord s j := by
  unfold regWord regPut; dsimp only
  have : tfind (if w % 2 ^ 32 = resetWord k then tdel s.regs.store k else tput s.regs.store k (BitVec.ofNat 32 (w % 2 ^ 32))) j =
      tfind s.regs.store j := by
    split
    · exact tfind_tdel_ne _ h
    · exact tfind_tput_ne _ _ h
  rw [this]

theorem regWord_congr {s t : State} (h : t.regs.store = s.regs.store) (k : Nat) : regWord t k = regWord s k := by
  unfold regWord; rw [h]

end Sys2Proof.Machine
end

