-- ==== Sys2Proof/Laws/Regs.lean ====
section
/-! SUPPORT. The stored registers: events, counters and completions leave them alone; a typed write changes one instance. -/
namespace Sys2Proof.Machine
open Sys2Proof

@[simp] theorem count_regs_store (s : State) (key n : Nat) : (count s key n).regs.store = s.regs.store := rfl
@[simp] theorem count_regs_selPcie (s : State) (key n : Nat) : (count s key n).regs.selPcie = s.regs.selPcie := rfl
@[simp] theorem count_regs_selSb (s : State) (key n : Nat) : (count s key n).regs.selSb = s.regs.selSb := rfl
@[simp] theorem count_regs_badParity (s : State) (key n : Nat) : (count s key n).regs.badParity = s.regs.badParity := rfl

@[simp] theorem countSat_regs_store (s : State) (key n : Nat) : (countSat s key n).regs.store = s.regs.store := rfl
@[simp] theorem countSat_regs_selPcie (s : State) (key n : Nat) : (countSat s key n).regs.selPcie = s.regs.selPcie := rfl
@[simp] theorem countSat_regs_selSb (s : State) (key n : Nat) : (countSat s key n).regs.selSb = s.regs.selSb := rfl
@[simp] theorem countSat_regs_badParity (s : State) (key n : Nat) : (countSat s key n).regs.badParity = s.regs.badParity := rfl

@[simp] theorem statusPut_regs_store (s : State) (off : Nat) (v : StatusReg) : (statusPut s off v).regs.store = s.regs.store := rfl
@[simp] theorem statusPut_regs_selPcie (s : State) (off : Nat) (v : StatusReg) : (statusPut s off v).regs.selPcie = s.regs.selPcie := rfl
@[simp] theorem statusPut_regs_selSb (s : State) (off : Nat) (v : StatusReg) : (statusPut s off v).regs.selSb = s.regs.selSb := rfl
@[simp] theorem statusPut_regs_badParity (s : State) (off : Nat) (v : StatusReg) : (statusPut s off v).regs.badParity = s.regs.badParity := rfl

@[simp] theorem fireVec_regs_store (s : State) (fn pv : Nat) : (fireVec s fn pv).regs.store = s.regs.store := by
  unfold fireVec; (try dsimp only); (repeat' split) <;> simp
@[simp] theorem fireVec_regs_selPcie (s : State) (fn pv : Nat) : (fireVec s fn pv).regs.selPcie = s.regs.selPcie := by
  unfold fireVec; (try dsimp only); (repeat' split) <;> simp
@[simp] theorem fireVec_regs_selSb (s : State) (fn pv : Nat) : (fireVec s fn pv).regs.selSb = s.regs.selSb := by
  unfold fireVec; (try dsimp only); (repeat' split) <;> simp
@[simp] theorem fireVec_regs_badParity (s : State) (fn pv : Nat) : (fireVec s fn pv).regs.badParity = s.regs.badParity := by
  unfold fireVec; (try dsimp only); (repeat' split) <;> simp

@[simp] theorem armVec_regs_store (s : State) (fn pv : Nat) (now : Bool) : (armVec s fn pv now).regs.store = s.regs.store := by
  unfold armVec; (try dsimp only); (repeat' split) <;> simp
@[simp] theorem armVec_regs_selPcie (s : State) (fn pv : Nat) (now : Bool) : (armVec s fn pv now).regs.selPcie = s.regs.selPcie := by
  unfold armVec; (try dsimp only); (repeat' split) <;> simp
@[simp] theorem armVec_regs_selSb (s : State) (fn pv : Nat) (now : Bool) : (armVec s fn pv now).regs.selSb = s.regs.selSb := by
  unfold armVec; (try dsimp only); (repeat' split) <;> simp
@[simp] theorem armVec_regs_badParity (s : State) (fn pv : Nat) (now : Bool) : (armVec s fn pv now).regs.badParity = s.regs.badParity := by
  unfold armVec; (try dsimp only); (repeat' split) <;> simp

@[simp] theorem raise_regs_store (s : State) (off flags : Nat) (puts : List (Nat × Nat × Nat)) : (raise s off flags puts).regs.store = s.regs.store := by
  unfold raise; (try dsimp only); (repeat' split) <;> simp
@[simp] theorem raise_regs_selPcie (s : State) (off flags : Nat) (puts : List (Nat × Nat × Nat)) : (raise s off flags puts).regs.selPcie = s.regs.selPcie := by
  unfold raise; (try dsimp only); (repeat' split) <;> simp
@[simp] theorem raise_regs_selSb (s : State) (off flags : Nat) (puts : List (Nat × Nat × Nat)) : (raise s off flags puts).regs.selSb = s.regs.selSb := by
  unfold raise; (try dsimp only); (repeat' split) <;> simp
@[simp] theorem raise_regs_badParity (s : State) (off flags : Nat) (puts : List (Nat × Nat × Nat)) : (raise s off flags puts).regs.badParity = s.regs.badParity := by
  unfold raise; (try dsimp only); (repeat' split) <;> simp

@[simp] theorem faultRingWrite_regs_store (s : State) (r : FaultRec) : (faultRingWrite s r).regs.store = s.regs.store := by
  unfold faultRingWrite; (try dsimp only); (repeat' split) <;> simp
@[simp] theorem faultRingWrite_regs_selPcie (s : State) (r : FaultRec) : (faultRingWrite s r).regs.selPcie = s.regs.selPcie := by
  unfold faultRingWrite; (try dsimp only); (repeat' split) <;> simp
@[simp] theorem faultRingWrite_regs_selSb (s : State) (r : FaultRec) : (faultRingWrite s r).regs.selSb = s.regs.selSb := by
  unfold faultRingWrite; (try dsimp only); (repeat' split) <;> simp
@[simp] theorem faultRingWrite_regs_badParity (s : State) (r : FaultRec) : (faultRingWrite s r).regs.badParity = s.regs.badParity := by
  unfold faultRingWrite; (try dsimp only); (repeat' split) <;> simp

@[simp] theorem faultReportAs_regs_store (s : State) (cls : Nat) (r : FaultRec) : (faultReportAs s cls r).regs.store = s.regs.store := by
  unfold faultReportAs; (try dsimp only); (repeat' split) <;> simp
@[simp] theorem faultReportAs_regs_selPcie (s : State) (cls : Nat) (r : FaultRec) : (faultReportAs s cls r).regs.selPcie = s.regs.selPcie := by
  unfold faultReportAs; (try dsimp only); (repeat' split) <;> simp
@[simp] theorem faultReportAs_regs_selSb (s : State) (cls : Nat) (r : FaultRec) : (faultReportAs s cls r).regs.selSb = s.regs.selSb := by
  unfold faultReportAs; (try dsimp only); (repeat' split) <;> simp
@[simp] theorem faultReportAs_regs_badParity (s : State) (cls : Nat) (r : FaultRec) : (faultReportAs s cls r).regs.badParity = s.regs.badParity := by
  unfold faultReportAs; (try dsimp only); (repeat' split) <;> simp

@[simp] theorem faultReport_regs_store (s : State) (r : FaultRec) : (faultReport s r).regs.store = s.regs.store := by
  unfold faultReport; (try dsimp only); (repeat' split) <;> simp
@[simp] theorem faultReport_regs_selPcie (s : State) (r : FaultRec) : (faultReport s r).regs.selPcie = s.regs.selPcie := by
  unfold faultReport; (try dsimp only); (repeat' split) <;> simp
@[simp] theorem faultReport_regs_selSb (s : State) (r : FaultRec) : (faultReport s r).regs.selSb = s.regs.selSb := by
  unfold faultReport; (try dsimp only); (repeat' split) <;> simp
@[simp] theorem faultReport_regs_badParity (s : State) (r : FaultRec) : (faultReport s r).regs.badParity = s.regs.badParity := by
  unfold faultReport; (try dsimp only); (repeat' split) <;> simp

@[simp] theorem postRecord_regs_store (s : State) (r : Nat) (c : Completion) (now : Bool) : (postRecord s r c now).regs.store = s.regs.store := by
  unfold postRecord; (try dsimp only); (repeat' split) <;> simp
@[simp] theorem postRecord_regs_selPcie (s : State) (r : Nat) (c : Completion) (now : Bool) : (postRecord s r c now).regs.selPcie = s.regs.selPcie := by
  unfold postRecord; (try dsimp only); (repeat' split) <;> simp
@[simp] theorem postRecord_regs_selSb (s : State) (r : Nat) (c : Completion) (now : Bool) : (postRecord s r c now).regs.selSb = s.regs.selSb := by
  unfold postRecord; (try dsimp only); (repeat' split) <;> simp
@[simp] theorem postRecord_regs_badParity (s : State) (r : Nat) (c : Completion) (now : Bool) : (postRecord s r c now).regs.badParity = s.regs.badParity := by
  unfold postRecord; (try dsimp only); (repeat' split) <;> simp

@[simp] theorem complete_regs_store (s : State) (d : Desc) (status flags : Nat) (results : Bytes) : (complete s d status flags results).regs.store = s.regs.store := by
  unfold complete; (try dsimp only); (repeat' split) <;> simp
@[simp] theorem complete_regs_selPcie (s : State) (d : Desc) (status flags : Nat) (results : Bytes) : (complete s d status flags results).regs.selPcie = s.regs.selPcie := by
  unfold complete; (try dsimp only); (repeat' split) <;> simp
@[simp] theorem complete_regs_selSb (s : State) (d : Desc) (status flags : Nat) (results : Bytes) : (complete s d status flags results).regs.selSb = s.regs.selSb := by
  unfold complete; (try dsimp only); (repeat' split) <;> simp
@[simp] theorem complete_regs_badParity (s : State) (d : Desc) (status flags : Nat) (results : Bytes) : (complete s d status flags results).regs.badParity = s.regs.badParity := by
  unfold complete; (try dsimp only); (repeat' split) <;> simp

@[simp] theorem accessError_regs_store (s : State) (m : Master) (addr kind : Nat) : (accessError s m addr kind).regs.store = s.regs.store := by
  unfold accessError; (try dsimp only); (repeat' split) <;> simp
@[simp] theorem accessError_regs_selPcie (s : State) (m : Master) (addr kind : Nat) : (accessError s m addr kind).regs.selPcie = s.regs.selPcie := by
  unfold accessError; (try dsimp only); (repeat' split) <;> simp
@[simp] theorem accessError_regs_selSb (s : State) (m : Master) (addr kind : Nat) : (accessError s m addr kind).regs.selSb = s.regs.selSb := by
  unfold accessError; (try dsimp only); (repeat' split) <;> simp
@[simp] theorem accessError_regs_badParity (s : State) (m : Master) (addr kind : Nat) : (accessError s m addr kind).regs.badParity = s.regs.badParity := by
  unfold accessError; (try dsimp only); (repeat' split) <;> simp

@[simp] theorem guardRefuse_regs_store (s : State) (kind ring addr : Nat) : (guardRefuse s kind ring addr).regs.store = s.regs.store := by
  unfold guardRefuse; (try dsimp only); (repeat' split) <;> simp
@[simp] theorem guardRefuse_regs_selPcie (s : State) (kind ring addr : Nat) : (guardRefuse s kind ring addr).regs.selPcie = s.regs.selPcie := by
  unfold guardRefuse; (try dsimp only); (repeat' split) <;> simp
@[simp] theorem guardRefuse_regs_selSb (s : State) (kind ring addr : Nat) : (guardRefuse s kind ring addr).regs.selSb = s.regs.selSb := by
  unfold guardRefuse; (try dsimp only); (repeat' split) <;> simp
@[simp] theorem guardRefuse_regs_badParity (s : State) (kind ring addr : Nat) : (guardRefuse s kind ring addr).regs.badParity = s.regs.badParity := by
  unfold guardRefuse; (try dsimp only); (repeat' split) <;> simp

@[simp] theorem ledgerEvent_regs_store (s : State) (bit : Nat) : (ledgerEvent s bit).regs.store = s.regs.store := by
  unfold ledgerEvent; (try dsimp only); (repeat' split) <;> simp
@[simp] theorem ledgerEvent_regs_selPcie (s : State) (bit : Nat) : (ledgerEvent s bit).regs.selPcie = s.regs.selPcie := by
  unfold ledgerEvent; (try dsimp only); (repeat' split) <;> simp
@[simp] theorem ledgerEvent_regs_selSb (s : State) (bit : Nat) : (ledgerEvent s bit).regs.selSb = s.regs.selSb := by
  unfold ledgerEvent; (try dsimp only); (repeat' split) <;> simp
@[simp] theorem ledgerEvent_regs_badParity (s : State) (bit : Nat) : (ledgerEvent s bit).regs.badParity = s.regs.badParity := by
  unfold ledgerEvent; (try dsimp only); (repeat' split) <;> simp

@[simp] theorem ibiCheck_regs_store (s : State) : (ibiCheck s).regs.store = s.regs.store := by
  unfold ibiCheck; (try dsimp only); (repeat' split) <;> simp
@[simp] theorem ibiCheck_regs_selPcie (s : State) : (ibiCheck s).regs.selPcie = s.regs.selPcie := by
  unfold ibiCheck; (try dsimp only); (repeat' split) <;> simp
@[simp] theorem ibiCheck_regs_selSb (s : State) : (ibiCheck s).regs.selSb = s.regs.selSb := by
  unfold ibiCheck; (try dsimp only); (repeat' split) <;> simp
@[simp] theorem ibiCheck_regs_badParity (s : State) : (ibiCheck s).regs.badParity = s.regs.badParity := by
  unfold ibiCheck; (try dsimp only); (repeat' split) <;> simp

theorem selWord_congr {s t : State} (h : t.regs.selPcie = s.regs.selPcie) (h' : t.regs.selSb = s.regs.selSb) (m : Master) (off : Nat) :
    selWord t m off = selWord s m off := by
  cases m <;> simp only [selWord, h, h']

theorem selOf_congr {s t : State} (h : t.regs.selPcie = s.regs.selPcie) (h' : t.regs.selSb = s.regs.selSb) (m : Master) (off : Nat) :
    selOf t m off = selOf s m off := by
  unfold selOf tcSel gateSel selNum
  simp only [selWord_congr h h']

theorem keyOf_congr {s t : State} (h : t.regs.selPcie = s.regs.selPcie) (h' : t.regs.selSb = s.regs.selSb) (m : Master) (off : Nat) :
    keyOf t m off = keyOf s m off := by
  unfold keyOf; rw [selOf_congr h h']

theorem privileged_congr {s t : State} (h : t.regs.store = s.regs.store) (m : Master) : privileged t m = privileged s m := by
  cases m <;> simp only [privileged, rbit, rf, regWord_congr h]

@[simp] theorem takeWord_regs_store (s : State) (m : Master) (off : Nat) (r : Reg) (w : Nat) :
    (takeWord s m off r w).regs.store = (putStored s m off w).regs.store := by unfold takeWord; dsimp only; split <;> rfl
@[simp] theorem takeWord_regs_selPcie (s : State) (m : Master) (off : Nat) (r : Reg) (w : Nat) :
    (takeWord s m off r w).regs.selPcie = (putStored s m off w).regs.selPcie := by unfold takeWord; dsimp only; split <;> rfl
@[simp] theorem takeWord_regs_selSb (s : State) (m : Master) (off : Nat) (r : Reg) (w : Nat) :
    (takeWord s m off r w).regs.selSb = (putStored s m off w).regs.selSb := by unfold takeWord; dsimp only; split <;> rfl
theorem regWord_takeWord (s : State) (m : Master) (off : Nat) (r : Reg) (w k : Nat) :
    regWord (takeWord s m off r w) k = regWord (putStored s m off w) k := regWord_congr (takeWord_regs_store ..) k

/-- A typed write of a register that no master holds a copy of leaves every other instance alone. -/
theorem regWord_typedWrite_ne (s : State) (m : Master) (v : View) (addr : Nat) (r : Reg) (d : Nat) {j : Nat}
    (hp : perMaster (addr % 2 ^ 24) = false) (h : j ≠ keyOf s m (addr % 2 ^ 24)) :
    regWord (typedWrite s m v addr r d) j = regWord s j := by
  unfold typedWrite; dsimp only
  have hk : ∀ k a b, keyOf (guardRefuse s k a b) m (addr % 2 ^ 24) = keyOf s m (addr % 2 ^ 24) := fun k a b =>
    keyOf_congr (by simp) (by simp) m _
  split
  · exact regWord_congr (by simp) j
  · have hr : ∀ (u : State) w, u.regs.store = s.regs.store → keyOf u m (addr % 2 ^ 24) = keyOf s m (addr % 2 ^ 24) →
        regWord (takeWord u m (addr % 2 ^ 24) r w) j = regWord s j := fun u w e e' => by
      rw [regWord_takeWord]; unfold putStored; simp only [hp, Bool.false_eq_true, if_false]
      rw [e', regWord_regPut_ne u w h]; exact regWord_congr e j
    have ha : ∀ (u : State) a k, regWord (accessError u m a k) j = regWord u j := fun u a k => regWord_congr (accessError_regs_store ..) j
    by_cases hg : (hasGuarded r && !privileged s m) = true
    · simp only [hg, if_true]
      split
      · rw [ha]; exact hr _ _ (by simp) (hk ..)
      · exact hr _ _ (by simp) (hk ..)
    · simp only [Bool.not_eq_true] at hg; simp only [hg, Bool.false_eq_true, if_false]
      split
      · rw [ha]; exact hr _ _ rfl rfl
      · exact hr _ _ rfl rfl

/-- A typed write of a register that no master holds a copy of leaves the masters' copies alone. -/
theorem typedWrite_sel (s : State) (m : Master) (v : View) (addr : Nat) (r : Reg) (d : Nat) (hp : perMaster (addr % 2 ^ 24) = false) :
    (typedWrite s m v addr r d).regs.selPcie = s.regs.selPcie ∧ (typedWrite s m v addr r d).regs.selSb = s.regs.selSb := by
  have e : ∀ (u : State) k w, (regPut u k w).regs.selPcie = u.regs.selPcie ∧ (regPut u k w).regs.selSb = u.regs.selSb :=
    fun _ _ _ => by simp [regPut]
  unfold typedWrite; dsimp only
  generalize addr % 2 ^ 24 = o at hp ⊢
  have e' : ∀ (u : State) w, (putStored u m o w).regs.selPcie = u.regs.selPcie ∧ (putStored u m o w).regs.selSb = u.regs.selSb :=
    fun u w => by unfold putStored; rw [hp]; exact e _ _ _
  (repeat' split) <;> simp [e']

/-- The offset has instances that a selector chooses among. -/
def hasSel (off : Nat) : Bool :=
  let b := off / 0x10000
  (b == 0x2 && ((Off.HOSTQ_RING_SQ_LO ≤ off && off ≤ Off.HOSTQ_RING_CFG) || off == Off.HOSTQ_VEC_MOD || off == Off.HOSTQ_FUNC_VECTORS)) ||
  (b == 0x6 && (off == Off.FAULT_GROUP_CFG || off == Off.FAULT_GROUP_CTX || off == Off.FAULT_GROUP_MEMBER)) ||
  (b == 0xA && (off == Off.COMA_SEED_LO || off == Off.COMA_SEED_HI)) ||
  (b == 0xB && (Off.TIER_QUOTA_HBM ≤ off && off ≤ Off.TIER_QUOTA_REMOTE)) ||
  off == Off.FAB_ROUTE_PORTS || off == Off.FAB_QUIESCE || off == Off.QPE_PATH || (Off.EGR_POL_RATE ≤ off && off ≤ Off.EGR_POL_BURST) ||
  (0x70 ≤ b && b < 0x73)

theorem keyOf_plain (s : State) (m : Master) (off : Nat) (h : hasSel off = false) : keyOf s m off = off := by
  simp only [hasSel, Bool.or_eq_false_iff, Bool.and_eq_false_iff, beq_eq_false_iff_ne, ne_eq, decide_eq_false_iff_not,
    Off.HOSTQ_RING_SQ_LO, Off.HOSTQ_RING_CFG, Off.HOSTQ_VEC_MOD, Off.HOSTQ_FUNC_VECTORS, Off.FAULT_GROUP_CFG, Off.FAULT_GROUP_CTX, Off.FAULT_GROUP_MEMBER,
    Off.COMA_SEED_LO, Off.COMA_SEED_HI, Off.TIER_QUOTA_HBM, Off.TIER_QUOTA_REMOTE, Off.FAB_ROUTE_PORTS, Off.FAB_QUIESCE, Off.QPE_PATH,
    Off.EGR_POL_RATE, Off.EGR_POL_BURST] at h
  have hs : selOf s m off = 0 := by
    unfold selOf; simp only [Bool.or_eq_true, Bool.and_eq_true, decide_eq_true_eq, Off.HOSTQ_RING_SQ_LO, Off.HOSTQ_RING_CFG, Off.HOSTQ_VEC_MOD, Off.HOSTQ_FUNC_VECTORS, Off.FAULT_GROUP_CFG, Off.FAULT_GROUP_CTX, Off.FAULT_GROUP_MEMBER,
    Off.COMA_SEED_LO, Off.COMA_SEED_HI, Off.TIER_QUOTA_HBM, Off.TIER_QUOTA_REMOTE, Off.FAB_ROUTE_PORTS, Off.FAB_QUIESCE, Off.QPE_PATH,
    Off.EGR_POL_RATE, Off.EGR_POL_BURST]
    by_cases h2 : off / 65536 = 2
    · rw [if_pos h2, if_neg (by omega), if_neg (by omega), if_neg (by omega)]
    rw [if_neg h2]
    by_cases h6 : off / 65536 = 6
    · rw [if_pos h6, if_neg (by omega), if_neg (by omega)]
    rw [if_neg h6]
    by_cases ha : off / 65536 = 10
    · rw [if_pos ha, if_neg (by omega)]
    rw [if_neg ha]
    by_cases hb : off / 65536 = 11
    · rw [if_pos hb, if_neg (by omega)]
    rw [if_neg hb, if_neg (by omega), if_neg (by omega), if_neg (by omega), if_neg (by omega), if_neg (by omega)]
  simp [keyOf, rkey, hs]

end Sys2Proof.Machine
end

