-- ==== Sys2Proof/Laws/Access.lean ====
section
/-! SUPPORT. What a register access does where the block does not serve it, and what a served command register's write leaves
alone. -/
namespace Sys2Proof.Machine
open Sys2Proof

theorem whileAlive_dead (s t : State) (h : alive s = false) : whileAlive s t = .next s := by simp [whileAlive, h]

theorem whileAlive_live (s t : State) (h : alive s = true) : whileAlive s t = .next t := by simp [whileAlive, h]

theorem inSafe_dead (s : State) (h : inSafe s = true) : alive s = false := by simp [alive, h]

/-- What an access to a block that does not serve answers: nothing, or Completer Abort (R412, R425). -/
def unserved (s : State) (m : Master) : State := if inSafe s && m != .sideband then emit s .completerAbort else s

theorem regCmd_unserved (s : State) (m : Master) (off : Nat) (puts : List (Nat × Nat × Nat)) (run : State → State)
    (h : served s m off = false) : regCmd s m off puts run = unserved s m := by
  simp [regCmd, h, unserved]

theorem writeWord_unserved (s : State) (m : Master) (v : View) (off d : Nat) (h : served s m off = false) :
    writeWord m v off d s = unserved s m := by
  simp [writeWord, h, unserved]

/-- In FENCED_SAFE no master reaches a register outside the always-on domain and the fault log (R412). -/
theorem served_safe (s : State) (m : Master) (off : Nat) (hs : inSafe s = true)
    (h : (alwaysOn off || off == Off.FAULT_LOG_SEL || off == Off.FAULT_LOG_DATA) = false) : served s m off = false := by
  cases m with
  | pcie r => simp [served, hs]
  | sideband => simp only [served, hs, if_true, h, Bool.and_false]

/-- With MOD_POR_N low nothing is served (R466). -/
theorem served_por (s : State) (m : Master) (off : Nat) (h : s.pins.por = false) : served s m off = false := by simp [served, h]

/-- A served command register of a privileged master: the write of its fields, then its command. -/
theorem regCmd_served (s : State) (m : Master) (off : Nat) (puts : List (Nat × Nat × Nat)) (run : State → State) (r : Reg)
    (hv : served s m off = true) (hp : privileged s m = true) (hr : regAt off = some r) :
    regCmd s m off puts run = run (typedWrite s m .normal off r (withFields (storedWord s m off) puts)) := by
  simp [regCmd, hv, hp, hr]

/-- What a served command register's write leaves before its command runs: every part but the registers, and what a reserved bit's
access error touches, is as it was; so are every other instance and every master's copies. -/
structure CmdWritten (s u : State) (m : Master) (off : Nat) : Prop where
  pending : u.pending = s.pending
  freeCtr : u.freeCtr = s.freeCtr
  rngCtr : u.rngCtr = s.rngCtr
  pins : u.pins = s.pins
  boot : u.boot = s.boot
  clk : u.clk = s.clk
  weft : u.weft = s.weft
  tier : u.tier = s.tier
  mem : u.mem = s.mem
  plait : u.plait = s.plait
  attn : u.attn = s.attn
  osier : u.osier = s.osier
  coma : u.coma = s.coma
  ports : u.ports = s.ports
  fab : u.fab = s.fab
  qpe : u.qpe = s.qpe
  egr : u.egr = s.egr
  ledger : u.ledger = s.ledger
  brake : u.brake = s.brake
  therm : u.therm = s.therm
  sec : u.sec = s.sec
  fault : u.fault = s.fault
  svc : u.svc = s.svc
  map : u.map = s.map
  reg : ∀ j, j ≠ keyOf s m off → regWord u j = regWord s j
  selPcie : u.regs.selPcie = s.regs.selPcie
  selSb : u.regs.selSb = s.regs.selSb

theorem typedWrite_sec (s : State) (m : Master) (v : View) (addr : Nat) (r : Reg) (d : Nat) (hp : privileged s m = true) :
    (typedWrite s m v addr r d).sec = s.sec := by
  unfold typedWrite; dsimp only; split
  · simp
  · simp only [hp, Bool.not_true, Bool.and_false, Bool.false_eq_true, if_false]
    split <;> simp

/-- The state after a served command register's write, before its command runs. -/
def cmdState (s : State) (m : Master) (off : Nat) (puts : List (Nat × Nat × Nat)) : State :=
  match regAt off with
  | some r => typedWrite s m .normal off r (withFields (storedWord s m off) puts)
  | none => s

theorem regCmd_eq {s : State} {m : Master} {off : Nat} (puts : List (Nat × Nat × Nat)) (run : State → State)
    (hv : served s m off = true) (hp : privileged s m = true) (hr : (regAt off).isSome = true) :
    regCmd s m off puts run = run (cmdState s m off puts) := by
  obtain ⟨r, hr⟩ := Option.isSome_iff_exists.1 hr
  rw [regCmd_served s m off puts run r hv hp hr, cmdState, hr]

theorem cmdState_written {s : State} {m : Master} {off : Nat} (puts : List (Nat × Nat × Nat)) (hp : privileged s m = true)
    (hm : perMaster off = false) (ho : off < 2 ^ 24) : CmdWritten s (cmdState s m off puts) m off := by
  have he : off % 2 ^ 24 = off := Nat.mod_eq_of_lt ho
  unfold cmdState; split
  · rename_i r hr
    have hs := typedWrite_sel s m .normal off r (withFields (storedWord s m off) puts) (by rw [he]; exact hm)
    constructor
    case reg => exact fun j hj => regWord_typedWrite_ne s m .normal off r _ (by rw [he]; exact hm) (by rw [he]; exact hj)
    case sec => exact typedWrite_sec _ _ _ _ _ _ hp
    case selPcie => exact hs.1
    case selSb => exact hs.2
    all_goals simp
  · constructor <;> intros <;> rfl

end Sys2Proof.Machine
end

