-- ==== Sys2Proof/Laws/Fields.lean ====
section
/-! SUPPORT. What a register write leaves in one field: the view's bits under the masks of the types (18 R444). -/
namespace Sys2Proof.Machine
open Sys2Proof

theorem testBit_fld (v lo w i : Nat) : (fld v lo w).testBit i = (decide (i < w) && v.testBit (lo + i)) := by
  unfold fld
  rw [Nat.testBit_mod_two_pow, Nat.testBit_div_two_pow, Nat.add_comm]

theorem fld_mod32 {v lo w : Nat} (h : lo + w ≤ 32) : fld (v % 2 ^ 32) lo w = fld v lo w := by
  apply Nat.eq_of_testBit_eq; intro i
  rw [testBit_fld, testBit_fld, Nat.testBit_mod_two_pow]
  by_cases hi : i < w
  · have : lo + i < 32 := by omega
    simp [this]
  · simp [hi]

theorem fld_ext {a b lo w : Nat} (h : ∀ i, i < w → a.testBit (lo + i) = b.testBit (lo + i)) : fld a lo w = fld b lo w := by
  apply Nat.eq_of_testBit_eq; intro i
  rw [testBit_fld, testBit_fld]
  by_cases hi : i < w
  · rw [h i hi]
  · simp [hi]

theorem testBit_ones32 (i : Nat) : (0xFFFFFFFF : Nat).testBit i = decide (i < 32) := Nat.testBit_two_pow_sub_one 32 i

theorem testBit_under (mask old new i : Nat) (hi : i < 32) :
    (under mask old new).testBit i = if mask.testBit i then new.testBit i else old.testBit i := by
  unfold under
  rw [Nat.testBit_or, Nat.testBit_and, Nat.testBit_and, Nat.testBit_xor, testBit_ones32]
  cases mask.testBit i <;> simp [hi]

/-- A field inside the mask takes the new bits. -/
theorem fld_under_in {mask old new lo w : Nat} (h : ∀ i, i < w → mask.testBit (lo + i) = true) (hw : lo + w ≤ 32) :
    fld (under mask old new) lo w = fld new lo w :=
  fld_ext fun i hi => by rw [testBit_under _ _ _ _ (by omega), if_pos (h i hi)]

/-- A field outside the mask keeps its bits. -/
theorem fld_under_out {mask old new lo w : Nat} (h : ∀ i, i < w → mask.testBit (lo + i) = false) (hw : lo + w ≤ 32) :
    fld (under mask old new) lo w = fld old lo w :=
  fld_ext fun i hi => by rw [testBit_under _ _ _ _ (by omega), if_neg (by simp [h i hi])]

/-- A number with one field replaced, as its low bits, the field and its high bits. -/
theorem putFld_eq (v lo w x : Nat) : putFld v lo w x = 2 ^ lo * (2 ^ w * (v / 2 ^ lo / 2 ^ w) + x % 2 ^ w) + v % 2 ^ lo := by
  unfold putFld fld
  have a := Nat.div_add_mod v (2 ^ lo)
  have b := Nat.div_add_mod (v / 2 ^ lo) (2 ^ w)
  have c : 2 ^ lo * (v / 2 ^ lo) = 2 ^ lo * (2 ^ w * (v / 2 ^ lo / 2 ^ w)) + v / 2 ^ lo % 2 ^ w * 2 ^ lo := by
    conv => lhs; rw [← b]
    rw [Nat.mul_add, Nat.mul_comm (2 ^ lo) (v / 2 ^ lo % 2 ^ w)]
  rw [Nat.mul_add, Nat.mul_comm (2 ^ lo) (x % 2 ^ w)]
  omega

theorem testBit_putFld (v lo w x i : Nat) :
    (putFld v lo w x).testBit i = if lo ≤ i ∧ i < lo + w then x.testBit (i - lo) else v.testBit i := by
  rw [putFld_eq, Nat.testBit_two_pow_mul_add _ (Nat.mod_lt _ (Nat.two_pow_pos lo))]
  by_cases h : i < lo
  · rw [if_pos h, if_neg (by omega), Nat.testBit_mod_two_pow]; simp [h]
  · rw [if_neg h, Nat.testBit_two_pow_mul_add _ (Nat.mod_lt _ (Nat.two_pow_pos w))]
    by_cases h2 : i < lo + w
    · rw [if_pos (by omega), if_pos (by omega), Nat.testBit_mod_two_pow]; simp; omega
    · rw [if_neg (by omega), if_neg (by omega), Nat.testBit_div_two_pow, Nat.testBit_div_two_pow]; congr 1; omega

theorem fld_putFld (v lo w x : Nat) : fld (putFld v lo w x) lo w = x % 2 ^ w := by
  apply Nat.eq_of_testBit_eq; intro i
  rw [testBit_fld, testBit_putFld, Nat.testBit_mod_two_pow]
  by_cases hi : i < w <;> simp [hi]

/-- Putting one field leaves every field that does not overlap it. -/
theorem fld_putFld_ne (v : Nat) {lo w a b : Nat} (x : Nat) (h : a + b ≤ lo ∨ lo + w ≤ a) : fld (putFld v lo w x) a b = fld v a b :=
  fld_ext fun i hi => by rw [testBit_putFld, if_neg (by omega)]

theorem regs_status_ibiCheck (s : State) : (ibiCheck s).regs.status = s.regs.status := by
  unfold ibiCheck; dsimp only; (repeat' split) <;> rfl

theorem regs_status_armVec (s : State) (fn pv : Nat) (now : Bool) : (armVec s fn pv now).regs.status = s.regs.status := by
  unfold armVec fireVec; dsimp only
  (repeat' split) <;> first | rfl | (simp [emitAs]; (repeat' split) <;> rfl)

/-- What an event leaves in its status register: the sequence moves on, the flags are set, no write-back is pending (18 R450). -/
theorem statusOf_raise (s : State) (off flags : Nat) (puts : List (Nat × Nat × Nat)) :
    statusOf (raise s off flags puts) off =
      { seq := (statusOf s off).seq + 1,
        hi := BitVec.ofNat 16 (puts.foldl (fun h p => putFld h (p.1 - 16) p.2.1 p.2.2) ((statusOf s off).hi.toNat ||| flags)),
        markPcie := false, markSb := false } := by
  unfold raise; dsimp only; unfold statusOf; rw [regs_status_ibiCheck]
  split
  · rw [regs_status_armVec]; simp only [statusPut]; exact tget_tset_self ..
  · simp only [statusPut]; exact tget_tset_self ..

theorem statusOf_raise_ne (s : State) {off o : Nat} (flags : Nat) (puts : List (Nat × Nat × Nat)) (h : o ≠ off) :
    statusOf (raise s off flags puts) o = statusOf s o := by
  unfold raise; dsimp only; unfold statusOf; rw [regs_status_ibiCheck]
  split
  · rw [regs_status_armVec]; simp only [statusPut]; exact tget_tset_ne _ _ _ h
  · simp only [statusPut]; exact tget_tset_ne _ _ _ h

/-- An event sets its flag, where no field put beside it overlaps. -/
theorem raise_flag (s : State) (off b : Nat) (puts : List (Nat × Nat × Nat)) (hb : b < 16)
    (hp : ∀ p ∈ puts, b < p.1 - 16 ∨ p.1 - 16 + p.2.1 ≤ b) : (statusOf (raise s off (2 ^ b) puts) off).hi.getLsbD b = true := by
  rw [statusOf_raise]; dsimp only
  have k : ∀ (l : List (Nat × Nat × Nat)) (v : Nat), (∀ p ∈ l, b < p.1 - 16 ∨ p.1 - 16 + p.2.1 ≤ b) → v.testBit b = true →
      (l.foldl (fun h p => putFld h (p.1 - 16) p.2.1 p.2.2) v).testBit b = true := by
    intro l; induction l with
    | nil => exact fun v _ h => h
    | cons p l ih =>
      intro v hl hv; rw [List.foldl_cons]
      refine ih _ (fun q hq => hl q (List.mem_cons_of_mem _ hq)) ?_
      have := hl p (List.mem_cons_self ..)
      rw [testBit_putFld, if_neg (by omega)]; exact hv
  rw [BitVec.getLsbD_ofNat, k puts _ hp (by rw [Nat.testBit_or, Nat.testBit_two_pow_self, Bool.or_true])]
  simp [hb]

theorem ledgerEvent_flag (s : State) (b : Nat) (hb : b < 8) : (statusOf (ledgerEvent s b) Off.LEDGER_STATUS).hi.getLsbD b = true :=
  raise_flag _ _ _ _ (by omega) (by intro p hp; simp at hp; subst hp; left; omega)

/-- What a normal-view write leaves in its instance. -/
theorem regWord_typedWrite (s : State) (m : Master) (off : Nat) (r : Reg) (d : Nat) (hm : perMaster off = false) (ho : off < 2 ^ 24) :
    regWord (typedWrite s m .normal off r d) (keyOf s m off) = writtenWord s m .normal r (regWord s (keyOf s m off)) d % 2 ^ 32 := by
  have he : off % 2 ^ 24 = off := Nat.mod_eq_of_lt ho
  have hst : storedWord s m off = regWord s (keyOf s m off) := by simp [storedWord, hm]
  unfold typedWrite; dsimp only; rw [he, if_neg (by simp), hst]
  generalize hW : writtenWord s m .normal r _ _ = W
  have w1 : ∀ u : State, u.regs.store = s.regs.store → u.regs.selPcie = s.regs.selPcie → u.regs.selSb = s.regs.selSb →
      writtenWord u m .normal r (regWord s (keyOf s m off)) d = W := by
    intro u h1 _ _; rw [← hW]; unfold writtenWord writable; rw [privileged_congr h1]
  have w2 : ∀ u : State, u.regs.store = s.regs.store → u.regs.selPcie = s.regs.selPcie → u.regs.selSb = s.regs.selSb →
      regWord (takeWord u m off r W) (keyOf s m off) = W % 2 ^ 32 := by
    intro u h1 h2 h3; rw [regWord_takeWord]; unfold putStored; rw [hm]; simp only [Bool.false_eq_true, if_false]
    rw [keyOf_congr h2 h3, regWord_regPut_self]
  have w3 : ∀ (u : State), regWord u (keyOf s m off) = W % 2 ^ 32 → regWord (accessError u m off 3) (keyOf s m off) = W % 2 ^ 32 := by
    intro u h; rw [regWord_congr (accessError_regs_store ..), h]
  (repeat' split) <;> (try apply w3) <;> (rw [w1, w2] <;> simp)

/-- What a served command register's write leaves in its instance. -/
theorem regWord_cmdState {s : State} {m : Master} {off : Nat} {r : Reg} (puts : List (Nat × Nat × Nat)) (hr : regAt off = some r)
    (hm : perMaster off = false) (ho : off < 2 ^ 24) :
    regWord (cmdState s m off puts) (keyOf s m off) =
      writtenWord s m .normal r (regWord s (keyOf s m off)) (withFields (regWord s (keyOf s m off)) puts) % 2 ^ 32 := by
  have hst : storedWord s m off = regWord s (keyOf s m off) := by simp [storedWord, hm]
  unfold cmdState; rw [hr]; dsimp only; rw [regWord_typedWrite s m off r _ hm ho, hst]

/-- A privileged master writes every field that is RW or RW-G. -/
theorem fld_writtenWord {s : State} {m : Master} {r : Reg} {old d lo w : Nat} (hp : privileged s m = true)
    (hw : lo + w ≤ 32)
    (h : ∀ i, i < w → (typeMask r fun t => t == .rw || t == .rwg).testBit (lo + i) = true)
    (h' : ∀ i, i < w → (reservedMask r).testBit (lo + i) = false) :
    fld (writtenWord s m .normal r old d) lo w = fld d lo w := by
  unfold writtenWord; dsimp only; rw [if_pos (by simp [hp]), fld_under_out h' hw]
  have e : writable s m r = typeMask r fun t => t == .rw || t == .rwg := by unfold writable; simp [hp]
  rw [e, fld_under_in h hw]; rfl

/-- The field of a command register that a row's write sets reads as it was written. -/
theorem rf_cmdState {s : State} {m : Master} {off : Nat} {r : Reg} {lo w x : Nat} (hr : regAt off = some r)
    (hm : perMaster off = false) (ho : off < 2 ^ 24) (hp : privileged s m = true) (hk : hasSel off = false) (hw : lo + w ≤ 32)
    (h : ∀ i, i < w → (typeMask r fun t => t == .rw || t == .rwg).testBit (lo + i) = true)
    (h' : ∀ i, i < w → (reservedMask r).testBit (lo + i) = false) :
    rf (cmdState s m off [(lo, w, x)]) off lo w = x % 2 ^ w := by
  have k := keyOf_plain s m off hk
  have e := regWord_cmdState (s := s) (m := m) [(lo, w, x)] hr hm ho
  rw [k] at e
  unfold rf; rw [e, fld_mod32 hw, fld_writtenWord hp hw h h']
  exact fld_putFld _ _ _ _

theorem bitOf_testBit (v i : Nat) : bitOf v i = v.testBit i := by
  unfold bitOf; rw [Nat.testBit_eq_decide_div_mod_eq]; by_cases h : v / 2 ^ i % 2 = 1 <;> simp [h]

end Sys2Proof.Machine
end

