-- ==== Sys2Proof/Laws/Memory.lean ====
section
/-! SUPPORT. Memory: every operation keeps the canonical form, a byte written reads back, and every other byte stays. -/
namespace Sys2Proof.Machine
open Sys2Proof

/-! ### The canonical form -/

theorem wfFrom_le {n m : Nat} (h : m ≤ n) : ∀ {l : List Host.Cell}, wfFrom n l = true → wfFrom m l = true
  | [], _ => rfl
  | c :: cs, w => by
    simp only [wfFrom, Bool.and_eq_true, decide_eq_true_eq] at w ⊢
    exact ⟨⟨by omega, w.1.2⟩, w.2⟩

theorem wfFrom_filter (p : Host.Cell → Bool) : ∀ {l : List Host.Cell} {n : Nat}, wfFrom n l = true → wfFrom n (l.filter p) = true
  | [], _, _ => rfl
  | c :: cs, n, w => by
    simp only [wfFrom, Bool.and_eq_true, decide_eq_true_eq] at w
    by_cases hp : p c = true
    · rw [List.filter_cons_of_pos hp]
      simp only [wfFrom, Bool.and_eq_true, decide_eq_true_eq]
      exact ⟨w.1, wfFrom_filter p w.2⟩
    · rw [List.filter_cons_of_neg hp]
      exact wfFrom_le (by omega) (wfFrom_filter p w.2)

/-- Two canonical lists join when every address of the first lies below where the second begins. -/
theorem wfFrom_append {b : Nat} {r : List Host.Cell} (hr : wfFrom b r = true) :
    ∀ {l : List Host.Cell} {a : Nat}, a ≤ b → wfFrom a l = true → (∀ c ∈ l, c.1 < b) → wfFrom a (l ++ r) = true
  | [], a, hab, _, _ => wfFrom_le hab hr
  | c :: cs, a, hab, w, hb => by
    simp only [wfFrom, Bool.and_eq_true, decide_eq_true_eq, List.cons_append] at w ⊢
    exact ⟨w.1, wfFrom_append hr (hb c (List.mem_cons_self ..)) w.2 fun d hd => hb d (List.mem_cons_of_mem _ hd)⟩

theorem wfFrom_above {b : Nat} : ∀ {l : List Host.Cell} {a : Nat}, wfFrom a l = true → (∀ c ∈ l, b ≤ c.1) → wfFrom b l = true
  | [], _, _, _ => rfl
  | c :: cs, a, w, hb => by
    simp only [wfFrom, Bool.and_eq_true, decide_eq_true_eq] at w ⊢
    exact ⟨⟨hb c (List.mem_cons_self ..), w.1.2⟩, w.2⟩

theorem cellsOf_wf : ∀ (bs : Bytes) (a : Nat), wfFrom a (cellsOf a bs) = true
  | [], _ => rfl
  | b :: bs, a => by
    unfold cellsOf; split
    · exact wfFrom_le (by omega) (cellsOf_wf bs (a + 1))
    · simp only [wfFrom, Bool.and_eq_true, decide_eq_true_eq]
      refine ⟨⟨Nat.le_refl a, ?_⟩, cellsOf_wf bs (a + 1)⟩
      simpa using ‹¬ b = emptyByte›

theorem cellsOf_range : ∀ (bs : Bytes) (a : Nat), ∀ c ∈ cellsOf a bs, a ≤ c.1 ∧ c.1 < a + bs.length
  | [], _, c, h => by simp [cellsOf] at h
  | b :: bs, a, c, h => by
    have ih := cellsOf_range bs (a + 1) c
    unfold cellsOf at h; split at h
    · have := ih h; simp only [List.length_cons]; omega
    · rcases List.mem_cons.1 h with rfl | h
      · simp
      · have := ih h; simp only [List.length_cons]; omega

/-- A write keeps the canonical form. -/
theorem memWrite_wf {l : List Host.Cell} (h : wfFrom 0 l = true) (a : Nat) (bs : Bytes) : wfFrom 0 (memWrite l a bs) = true := by
  unfold memWrite
  have hi : wfFrom (a + bs.length) (l.filter fun c => a + bs.length ≤ c.1) = true :=
    wfFrom_above (wfFrom_filter _ h) (by simp)
  have mid : wfFrom a (cellsOf a bs ++ l.filter fun c => a + bs.length ≤ c.1) = true :=
    wfFrom_append hi (by omega) (cellsOf_wf bs a) fun c hc => (cellsOf_range bs a c hc).2
  rw [List.append_assoc]
  exact wfFrom_append mid (by omega) (wfFrom_filter _ h) (by simp)

theorem frameWrite_wf (s : State) (tag : EncTag) (pfn off : Nat) (bs : Bytes) (h : s.mem.wf = true) :
    (frameWrite s tag pfn off bs).mem.wf = true := by
  unfold frameWrite Mem.wf; dsimp only
  refine memWrite_wf ?_ _ _
  split
  · exact h
  · exact memWrite_wf h _ _

theorem frameScrub_wf (s : State) (pfn : Nat) (h : s.mem.wf = true) : (frameScrub s pfn).mem.wf = true := memWrite_wf h _ _

theorem reset_mem_wf : State.reset.mem.wf = true := rfl

/-! ### Reading what was written -/

/-- The first cell that a predicate on addresses picks out of a joined list. -/
theorem memByte_append (l r : List Host.Cell) (x : Nat) (h : ∀ c ∈ l, c.1 ≠ x) : memByte (l ++ r) x = memByte r x := by
  have hn : l.find? (fun c => c.1 == x) = none := by simpa [List.find?_eq_none] using h
  simp [memByte, List.find?_append, hn]

theorem memByte_left (l r : List Host.Cell) (x : Nat) (h : ∀ c ∈ r, c.1 ≠ x) : memByte (l ++ r) x = memByte l x := by
  have hn : r.find? (fun c => c.1 == x) = none := by simpa [List.find?_eq_none] using h
  simp [memByte, List.find?_append, hn]

theorem memByte_filter (l : List Host.Cell) (p : Nat → Bool) (x : Nat) (h : p x = true) :
    memByte (l.filter fun c => p c.1) x = memByte l x := by
  have : (l.filter fun c => p c.1).find? (fun c => c.1 == x) = l.find? (fun c => c.1 == x) := by
    rw [List.find?_filter]
    congr 1; funext c
    by_cases hc : c.1 = x
    · subst hc; simp [h]
    · simp [hc]
  simp only [memByte, this]

/-- Bytes outside a write read as before it. -/
theorem memByte_memWrite_outside (l : List Host.Cell) (a : Nat) (bs : Bytes) (x : Nat) (h : x < a ∨ a + bs.length ≤ x) :
    memByte (memWrite l a bs) x = memByte l x := by
  unfold memWrite
  rcases h with h | h
  · rw [List.append_assoc, memByte_left]
    · exact memByte_filter l (fun y => decide (y < a)) x (by simpa using h)
    · intro c hc
      rcases List.mem_append.1 hc with hc | hc
      · have := cellsOf_range bs a c hc; omega
      · have := (List.mem_filter.1 hc).2; simp only [decide_eq_true_eq] at this; omega
  · rw [memByte_append]
    · exact memByte_filter l (fun y => decide (a + bs.length ≤ y)) x (by simpa using h)
    · intro c hc
      rcases List.mem_append.1 hc with hc | hc
      · have := (List.mem_filter.1 hc).2; simp only [decide_eq_true_eq] at this; omega
      · have := cellsOf_range bs a c hc; omega

theorem memByte_cellsOf : ∀ (bs : Bytes) (a i : Nat), i < bs.length → memByte (cellsOf a bs) (a + i) = bs.getD i 0
  | [], _, _, h => by simp at h
  | b :: bs, a, 0, _ => by
    unfold cellsOf; split
    · rename_i hb
      have : memByte (cellsOf (a + 1) bs) a = emptyByte := by
        have hn : (cellsOf (a + 1) bs).find? (fun c => c.1 == a) = none := by
          simp only [List.find?_eq_none, beq_iff_eq]
          intro c hc; have := cellsOf_range bs (a + 1) c hc; omega
        simp [memByte, hn]
      simpa [hb] using this
    · simp [memByte]
  | b :: bs, a, i + 1, h => by
    have ih := memByte_cellsOf bs (a + 1) i (by simpa using h)
    have e : a + (i + 1) = a + 1 + i := by omega
    unfold cellsOf; split
    · simpa [e] using ih
    · have : memByte ((a, b) :: cellsOf (a + 1) bs) (a + (i + 1)) = memByte (cellsOf (a + 1) bs) (a + 1 + i) := by
        rw [e]; exact memByte_append [(a, b)] _ _ (by simp; omega)
      rw [this]; simpa using ih

/-- A byte written reads back. -/
theorem memByte_memWrite_inside (l : List Host.Cell) (a : Nat) (bs : Bytes) (i : Nat) (h : i < bs.length) :
    memByte (memWrite l a bs) (a + i) = bs.getD i 0 := by
  unfold memWrite
  rw [memByte_left, memByte_append, memByte_cellsOf bs a i h]
  · intro c hc; have := (List.mem_filter.1 hc).2; simp only [decide_eq_true_eq] at this; omega
  · intro c hc; have := (List.mem_filter.1 hc).2; simp only [decide_eq_true_eq] at this; omega

end Sys2Proof.Machine
end

