-- ==== Sys2Proof/Laws/Frames.lean ====
section
/-! SUPPORT. What an access to frames through the page cache leaves alone, and that it keeps the memory's canonical form. -/
namespace Sys2Proof.Machine
open Sys2Proof

/-- What every round of a fold keeps, the fold keeps. -/
theorem foldl_keep {α β : Type} (g : State → β) (f : State → α → State) (h : ∀ s x, g (f s x) = g s) :
    ∀ (l : List α) (s : State), g (l.foldl f s) = g s
  | [], _ => rfl
  | x :: l, s => by rw [List.foldl_cons, foldl_keep g f h l, h]

/-- What every round of a fold preserves, the fold preserves. -/
theorem foldl_inv {α : Type} (p : State → Prop) (f : State → α → State) (h : ∀ s x, p s → p (f s x)) :
    ∀ (l : List α) (s : State), p s → p (l.foldl f s)
  | [], _, w => w
  | x :: l, s, w => foldl_inv p f h l _ (h s x w)

/-- One line of a frame takes the bytes that the DRAM holds. -/
abbrev putLine (t : State) (e : Nat × Bytes) : State := frameWrite t {} (e.1 / 128) (e.1 % 128 * 128) e.2

@[simp] theorem setRegion_pending (s : State) (key : Nat) (v : Region) : (setRegion s key v).pending = s.pending := rfl
@[simp] theorem setRegion_out (s : State) (key : Nat) (v : Region) : (setRegion s key v).out = s.out := rfl
@[simp] theorem setRegion_freeCtr (s : State) (key : Nat) (v : Region) : (setRegion s key v).freeCtr = s.freeCtr := rfl
@[simp] theorem setRegion_rngCtr (s : State) (key : Nat) (v : Region) : (setRegion s key v).rngCtr = s.rngCtr := rfl
@[simp] theorem setRegion_pins (s : State) (key : Nat) (v : Region) : (setRegion s key v).pins = s.pins := rfl
@[simp] theorem setRegion_boot (s : State) (key : Nat) (v : Region) : (setRegion s key v).boot = s.boot := rfl
@[simp] theorem setRegion_clk (s : State) (key : Nat) (v : Region) : (setRegion s key v).clk = s.clk := rfl
@[simp] theorem setRegion_regs (s : State) (key : Nat) (v : Region) : (setRegion s key v).regs = s.regs := rfl
@[simp] theorem setRegion_hostq (s : State) (key : Nat) (v : Region) : (setRegion s key v).hostq = s.hostq := rfl
@[simp] theorem setRegion_weft (s : State) (key : Nat) (v : Region) : (setRegion s key v).weft = s.weft := rfl
@[simp] theorem setRegion_tier (s : State) (key : Nat) (v : Region) : (setRegion s key v).tier = s.tier := rfl
@[simp] theorem setRegion_mem (s : State) (key : Nat) (v : Region) : (setRegion s key v).mem = s.mem := rfl
@[simp] theorem setRegion_plait (s : State) (key : Nat) (v : Region) : (setRegion s key v).plait = s.plait := rfl
@[simp] theorem setRegion_attn (s : State) (key : Nat) (v : Region) : (setRegion s key v).attn = s.attn := rfl
@[simp] theorem setRegion_coma (s : State) (key : Nat) (v : Region) : (setRegion s key v).coma = s.coma := rfl
@[simp] theorem setRegion_ports (s : State) (key : Nat) (v : Region) : (setRegion s key v).ports = s.ports := rfl
@[simp] theorem setRegion_fab (s : State) (key : Nat) (v : Region) : (setRegion s key v).fab = s.fab := rfl
@[simp] theorem setRegion_qpe (s : State) (key : Nat) (v : Region) : (setRegion s key v).qpe = s.qpe := rfl
@[simp] theorem setRegion_egr (s : State) (key : Nat) (v : Region) : (setRegion s key v).egr = s.egr := rfl
@[simp] theorem setRegion_ledger (s : State) (key : Nat) (v : Region) : (setRegion s key v).ledger = s.ledger := rfl
@[simp] theorem setRegion_brake (s : State) (key : Nat) (v : Region) : (setRegion s key v).brake = s.brake := rfl
@[simp] theorem setRegion_therm (s : State) (key : Nat) (v : Region) : (setRegion s key v).therm = s.therm := rfl
@[simp] theorem setRegion_sec (s : State) (key : Nat) (v : Region) : (setRegion s key v).sec = s.sec := rfl
@[simp] theorem setRegion_fault (s : State) (key : Nat) (v : Region) : (setRegion s key v).fault = s.fault := rfl
@[simp] theorem setRegion_svc (s : State) (key : Nat) (v : Region) : (setRegion s key v).svc = s.svc := rfl
@[simp] theorem setRegion_map (s : State) (key : Nat) (v : Region) : (setRegion s key v).map = s.map := rfl
@[simp] theorem setRegion_sb (s : State) (key : Nat) (v : Region) : (setRegion s key v).sb = s.sb := rfl

@[simp] theorem wakeFrame_pending (s : State) (pfn : Nat) : (wakeFrame s pfn).pending = s.pending := by unfold wakeFrame; split <;> rfl
@[simp] theorem wakeFrame_out (s : State) (pfn : Nat) : (wakeFrame s pfn).out = s.out := by unfold wakeFrame; split <;> rfl
@[simp] theorem wakeFrame_freeCtr (s : State) (pfn : Nat) : (wakeFrame s pfn).freeCtr = s.freeCtr := by unfold wakeFrame; split <;> rfl
@[simp] theorem wakeFrame_rngCtr (s : State) (pfn : Nat) : (wakeFrame s pfn).rngCtr = s.rngCtr := by unfold wakeFrame; split <;> rfl
@[simp] theorem wakeFrame_pins (s : State) (pfn : Nat) : (wakeFrame s pfn).pins = s.pins := by unfold wakeFrame; split <;> rfl
@[simp] theorem wakeFrame_boot (s : State) (pfn : Nat) : (wakeFrame s pfn).boot = s.boot := by unfold wakeFrame; split <;> rfl
@[simp] theorem wakeFrame_clk (s : State) (pfn : Nat) : (wakeFrame s pfn).clk = s.clk := by unfold wakeFrame; split <;> rfl
@[simp] theorem wakeFrame_regs (s : State) (pfn : Nat) : (wakeFrame s pfn).regs = s.regs := by unfold wakeFrame; split <;> rfl
@[simp] theorem wakeFrame_hostq (s : State) (pfn : Nat) : (wakeFrame s pfn).hostq = s.hostq := by unfold wakeFrame; split <;> rfl
@[simp] theorem wakeFrame_weft (s : State) (pfn : Nat) : (wakeFrame s pfn).weft = s.weft := by unfold wakeFrame; split <;> rfl
@[simp] theorem wakeFrame_tier (s : State) (pfn : Nat) : (wakeFrame s pfn).tier = s.tier := by unfold wakeFrame; split <;> rfl
@[simp] theorem wakeFrame_plait (s : State) (pfn : Nat) : (wakeFrame s pfn).plait = s.plait := by unfold wakeFrame; split <;> rfl
@[simp] theorem wakeFrame_attn (s : State) (pfn : Nat) : (wakeFrame s pfn).attn = s.attn := by unfold wakeFrame; split <;> rfl
@[simp] theorem wakeFrame_osier (s : State) (pfn : Nat) : (wakeFrame s pfn).osier = s.osier := by unfold wakeFrame; split <;> rfl
@[simp] theorem wakeFrame_coma (s : State) (pfn : Nat) : (wakeFrame s pfn).coma = s.coma := by unfold wakeFrame; split <;> rfl
@[simp] theorem wakeFrame_ports (s : State) (pfn : Nat) : (wakeFrame s pfn).ports = s.ports := by unfold wakeFrame; split <;> rfl
@[simp] theorem wakeFrame_fab (s : State) (pfn : Nat) : (wakeFrame s pfn).fab = s.fab := by unfold wakeFrame; split <;> rfl
@[simp] theorem wakeFrame_qpe (s : State) (pfn : Nat) : (wakeFrame s pfn).qpe = s.qpe := by unfold wakeFrame; split <;> rfl
@[simp] theorem wakeFrame_egr (s : State) (pfn : Nat) : (wakeFrame s pfn).egr = s.egr := by unfold wakeFrame; split <;> rfl
@[simp] theorem wakeFrame_ledger (s : State) (pfn : Nat) : (wakeFrame s pfn).ledger = s.ledger := by unfold wakeFrame; split <;> rfl
@[simp] theorem wakeFrame_brake (s : State) (pfn : Nat) : (wakeFrame s pfn).brake = s.brake := by unfold wakeFrame; split <;> rfl
@[simp] theorem wakeFrame_therm (s : State) (pfn : Nat) : (wakeFrame s pfn).therm = s.therm := by unfold wakeFrame; split <;> rfl
@[simp] theorem wakeFrame_sec (s : State) (pfn : Nat) : (wakeFrame s pfn).sec = s.sec := by unfold wakeFrame; split <;> rfl
@[simp] theorem wakeFrame_fault (s : State) (pfn : Nat) : (wakeFrame s pfn).fault = s.fault := by unfold wakeFrame; split <;> rfl
@[simp] theorem wakeFrame_svc (s : State) (pfn : Nat) : (wakeFrame s pfn).svc = s.svc := by unfold wakeFrame; split <;> rfl
@[simp] theorem wakeFrame_map (s : State) (pfn : Nat) : (wakeFrame s pfn).map = s.map := by unfold wakeFrame; split <;> rfl
@[simp] theorem wakeFrame_sb (s : State) (pfn : Nat) : (wakeFrame s pfn).sb = s.sb := by unfold wakeFrame; split <;> rfl
@[simp] theorem wakeFrame_cells (s : State) (pfn : Nat) : (wakeFrame s pfn).mem.cells = s.mem.cells := by unfold wakeFrame; split <;> rfl
@[simp] theorem wakeFrame_tags (s : State) (pfn : Nat) : (wakeFrame s pfn).mem.tags = s.mem.tags := by unfold wakeFrame; split <;> rfl
theorem wakeFrame_inCompute (s : State) (pfn q : Nat) : inCompute (wakeFrame s pfn) q = inCompute s q := by
  unfold inCompute regionSt; rw [wakeFrame_osier]
theorem wakeFrame_wf (s : State) (pfn : Nat) (h : s.mem.wf = true) : (wakeFrame s pfn).mem.wf = true := by unfold wakeFrame; split <;> exact h
@[simp] theorem touchRegion_pending (s : State) (pfn : Nat) : (touchRegion s pfn).pending = s.pending := by
  unfold touchRegion; (try dsimp only); (repeat' split) <;> rfl
@[simp] theorem touchRegion_out (s : State) (pfn : Nat) : (touchRegion s pfn).out = s.out := by
  unfold touchRegion; (try dsimp only); (repeat' split) <;> rfl
@[simp] theorem touchRegion_freeCtr (s : State) (pfn : Nat) : (touchRegion s pfn).freeCtr = s.freeCtr := by
  unfold touchRegion; (try dsimp only); (repeat' split) <;> rfl
@[simp] theorem touchRegion_rngCtr (s : State) (pfn : Nat) : (touchRegion s pfn).rngCtr = s.rngCtr := by
  unfold touchRegion; (try dsimp only); (repeat' split) <;> rfl
@[simp] theorem touchRegion_pins (s : State) (pfn : Nat) : (touchRegion s pfn).pins = s.pins := by
  unfold touchRegion; (try dsimp only); (repeat' split) <;> rfl
@[simp] theorem touchRegion_boot (s : State) (pfn : Nat) : (touchRegion s pfn).boot = s.boot := by
  unfold touchRegion; (try dsimp only); (repeat' split) <;> rfl
@[simp] theorem touchRegion_clk (s : State) (pfn : Nat) : (touchRegion s pfn).clk = s.clk := by
  unfold touchRegion; (try dsimp only); (repeat' split) <;> rfl
@[simp] theorem touchRegion_regs (s : State) (pfn : Nat) : (touchRegion s pfn).regs = s.regs := by
  unfold touchRegion; (try dsimp only); (repeat' split) <;> rfl
@[simp] theorem touchRegion_hostq (s : State) (pfn : Nat) : (touchRegion s pfn).hostq = s.hostq := by
  unfold touchRegion; (try dsimp only); (repeat' split) <;> rfl
@[simp] theorem touchRegion_weft (s : State) (pfn : Nat) : (touchRegion s pfn).weft = s.weft := by
  unfold touchRegion; (try dsimp only); (repeat' split) <;> rfl
@[simp] theorem touchRegion_tier (s : State) (pfn : Nat) : (touchRegion s pfn).tier = s.tier := by
  unfold touchRegion; (try dsimp only); (repeat' split) <;> rfl
@[simp] theorem touchRegion_mem (s : State) (pfn : Nat) : (touchRegion s pfn).mem = s.mem := by
  unfold touchRegion; (try dsimp only); (repeat' split) <;> rfl
@[simp] theorem touchRegion_plait (s : State) (pfn : Nat) : (touchRegion s pfn).plait = s.plait := by
  unfold touchRegion; (try dsimp only); (repeat' split) <;> rfl
@[simp] theorem touchRegion_attn (s : State) (pfn : Nat) : (touchRegion s pfn).attn = s.attn := by
  unfold touchRegion; (try dsimp only); (repeat' split) <;> rfl
@[simp] theorem touchRegion_coma (s : State) (pfn : Nat) : (touchRegion s pfn).coma = s.coma := by
  unfold touchRegion; (try dsimp only); (repeat' split) <;> rfl
@[simp] theorem touchRegion_ports (s : State) (pfn : Nat) : (touchRegion s pfn).ports = s.ports := by
  unfold touchRegion; (try dsimp only); (repeat' split) <;> rfl
@[simp] theorem touchRegion_fab (s : State) (pfn : Nat) : (touchRegion s pfn).fab = s.fab := by
  unfold touchRegion; (try dsimp only); (repeat' split) <;> rfl
@[simp] theorem touchRegion_qpe (s : State) (pfn : Nat) : (touchRegion s pfn).qpe = s.qpe := by
  unfold touchRegion; (try dsimp only); (repeat' split) <;> rfl
@[simp] theorem touchRegion_egr (s : State) (pfn : Nat) : (touchRegion s pfn).egr = s.egr := by
  unfold touchRegion; (try dsimp only); (repeat' split) <;> rfl
@[simp] theorem touchRegion_ledger (s : State) (pfn : Nat) : (touchRegion s pfn).ledger = s.ledger := by
  unfold touchRegion; (try dsimp only); (repeat' split) <;> rfl
@[simp] theorem touchRegion_brake (s : State) (pfn : Nat) : (touchRegion s pfn).brake = s.brake := by
  unfold touchRegion; (try dsimp only); (repeat' split) <;> rfl
@[simp] theorem touchRegion_therm (s : State) (pfn : Nat) : (touchRegion s pfn).therm = s.therm := by
  unfold touchRegion; (try dsimp only); (repeat' split) <;> rfl
@[simp] theorem touchRegion_sec (s : State) (pfn : Nat) : (touchRegion s pfn).sec = s.sec := by
  unfold touchRegion; (try dsimp only); (repeat' split) <;> rfl
@[simp] theorem touchRegion_fault (s : State) (pfn : Nat) : (touchRegion s pfn).fault = s.fault := by
  unfold touchRegion; (try dsimp only); (repeat' split) <;> rfl
@[simp] theorem touchRegion_svc (s : State) (pfn : Nat) : (touchRegion s pfn).svc = s.svc := by
  unfold touchRegion; (try dsimp only); (repeat' split) <;> rfl
@[simp] theorem touchRegion_map (s : State) (pfn : Nat) : (touchRegion s pfn).map = s.map := by
  unfold touchRegion; (try dsimp only); (repeat' split) <;> rfl
@[simp] theorem touchRegion_sb (s : State) (pfn : Nat) : (touchRegion s pfn).sb = s.sb := by
  unfold touchRegion; (try dsimp only); (repeat' split) <;> rfl

@[simp] theorem cleanFrames_pending (s : State) (p : Nat → Bool) : (cleanFrames s p).pending = s.pending := rfl
@[simp] theorem cleanFrames_out (s : State) (p : Nat → Bool) : (cleanFrames s p).out = s.out := rfl
@[simp] theorem cleanFrames_freeCtr (s : State) (p : Nat → Bool) : (cleanFrames s p).freeCtr = s.freeCtr := rfl
@[simp] theorem cleanFrames_rngCtr (s : State) (p : Nat → Bool) : (cleanFrames s p).rngCtr = s.rngCtr := rfl
@[simp] theorem cleanFrames_pins (s : State) (p : Nat → Bool) : (cleanFrames s p).pins = s.pins := rfl
@[simp] theorem cleanFrames_boot (s : State) (p : Nat → Bool) : (cleanFrames s p).boot = s.boot := rfl
@[simp] theorem cleanFrames_clk (s : State) (p : Nat → Bool) : (cleanFrames s p).clk = s.clk := rfl
@[simp] theorem cleanFrames_regs (s : State) (p : Nat → Bool) : (cleanFrames s p).regs = s.regs := rfl
@[simp] theorem cleanFrames_hostq (s : State) (p : Nat → Bool) : (cleanFrames s p).hostq = s.hostq := rfl
@[simp] theorem cleanFrames_weft (s : State) (p : Nat → Bool) : (cleanFrames s p).weft = s.weft := rfl
@[simp] theorem cleanFrames_plait (s : State) (p : Nat → Bool) : (cleanFrames s p).plait = s.plait := rfl
@[simp] theorem cleanFrames_attn (s : State) (p : Nat → Bool) : (cleanFrames s p).attn = s.attn := rfl
@[simp] theorem cleanFrames_osier (s : State) (p : Nat → Bool) : (cleanFrames s p).osier = s.osier := rfl
@[simp] theorem cleanFrames_coma (s : State) (p : Nat → Bool) : (cleanFrames s p).coma = s.coma := rfl
@[simp] theorem cleanFrames_ports (s : State) (p : Nat → Bool) : (cleanFrames s p).ports = s.ports := rfl
@[simp] theorem cleanFrames_fab (s : State) (p : Nat → Bool) : (cleanFrames s p).fab = s.fab := rfl
@[simp] theorem cleanFrames_qpe (s : State) (p : Nat → Bool) : (cleanFrames s p).qpe = s.qpe := rfl
@[simp] theorem cleanFrames_egr (s : State) (p : Nat → Bool) : (cleanFrames s p).egr = s.egr := rfl
@[simp] theorem cleanFrames_ledger (s : State) (p : Nat → Bool) : (cleanFrames s p).ledger = s.ledger := rfl
@[simp] theorem cleanFrames_brake (s : State) (p : Nat → Bool) : (cleanFrames s p).brake = s.brake := rfl
@[simp] theorem cleanFrames_therm (s : State) (p : Nat → Bool) : (cleanFrames s p).therm = s.therm := rfl
@[simp] theorem cleanFrames_sec (s : State) (p : Nat → Bool) : (cleanFrames s p).sec = s.sec := rfl
@[simp] theorem cleanFrames_fault (s : State) (p : Nat → Bool) : (cleanFrames s p).fault = s.fault := rfl
@[simp] theorem cleanFrames_svc (s : State) (p : Nat → Bool) : (cleanFrames s p).svc = s.svc := rfl
@[simp] theorem cleanFrames_map (s : State) (p : Nat → Bool) : (cleanFrames s p).map = s.map := rfl
@[simp] theorem cleanFrames_sb (s : State) (p : Nat → Bool) : (cleanFrames s p).sb = s.sb := rfl

@[simp] theorem forgetFrames_pending (s : State) (p : Nat → Bool) : (forgetFrames s p).pending = s.pending := rfl
@[simp] theorem forgetFrames_out (s : State) (p : Nat → Bool) : (forgetFrames s p).out = s.out := rfl
@[simp] theorem forgetFrames_freeCtr (s : State) (p : Nat → Bool) : (forgetFrames s p).freeCtr = s.freeCtr := rfl
@[simp] theorem forgetFrames_rngCtr (s : State) (p : Nat → Bool) : (forgetFrames s p).rngCtr = s.rngCtr := rfl
@[simp] theorem forgetFrames_pins (s : State) (p : Nat → Bool) : (forgetFrames s p).pins = s.pins := rfl
@[simp] theorem forgetFrames_boot (s : State) (p : Nat → Bool) : (forgetFrames s p).boot = s.boot := rfl
@[simp] theorem forgetFrames_clk (s : State) (p : Nat → Bool) : (forgetFrames s p).clk = s.clk := rfl
@[simp] theorem forgetFrames_regs (s : State) (p : Nat → Bool) : (forgetFrames s p).regs = s.regs := rfl
@[simp] theorem forgetFrames_hostq (s : State) (p : Nat → Bool) : (forgetFrames s p).hostq = s.hostq := rfl
@[simp] theorem forgetFrames_weft (s : State) (p : Nat → Bool) : (forgetFrames s p).weft = s.weft := rfl
@[simp] theorem forgetFrames_plait (s : State) (p : Nat → Bool) : (forgetFrames s p).plait = s.plait := rfl
@[simp] theorem forgetFrames_attn (s : State) (p : Nat → Bool) : (forgetFrames s p).attn = s.attn := rfl
@[simp] theorem forgetFrames_osier (s : State) (p : Nat → Bool) : (forgetFrames s p).osier = s.osier := rfl
@[simp] theorem forgetFrames_coma (s : State) (p : Nat → Bool) : (forgetFrames s p).coma = s.coma := rfl
@[simp] theorem forgetFrames_ports (s : State) (p : Nat → Bool) : (forgetFrames s p).ports = s.ports := rfl
@[simp] theorem forgetFrames_fab (s : State) (p : Nat → Bool) : (forgetFrames s p).fab = s.fab := rfl
@[simp] theorem forgetFrames_qpe (s : State) (p : Nat → Bool) : (forgetFrames s p).qpe = s.qpe := rfl
@[simp] theorem forgetFrames_egr (s : State) (p : Nat → Bool) : (forgetFrames s p).egr = s.egr := rfl
@[simp] theorem forgetFrames_ledger (s : State) (p : Nat → Bool) : (forgetFrames s p).ledger = s.ledger := rfl
@[simp] theorem forgetFrames_brake (s : State) (p : Nat → Bool) : (forgetFrames s p).brake = s.brake := rfl
@[simp] theorem forgetFrames_therm (s : State) (p : Nat → Bool) : (forgetFrames s p).therm = s.therm := rfl
@[simp] theorem forgetFrames_sec (s : State) (p : Nat → Bool) : (forgetFrames s p).sec = s.sec := rfl
@[simp] theorem forgetFrames_fault (s : State) (p : Nat → Bool) : (forgetFrames s p).fault = s.fault := rfl
@[simp] theorem forgetFrames_svc (s : State) (p : Nat → Bool) : (forgetFrames s p).svc = s.svc := rfl
@[simp] theorem forgetFrames_map (s : State) (p : Nat → Bool) : (forgetFrames s p).map = s.map := rfl
@[simp] theorem forgetFrames_sb (s : State) (p : Nat → Bool) : (forgetFrames s p).sb = s.sb := rfl

@[simp] theorem dropFrames_pending (s : State) (p : Nat → Bool) : (dropFrames s p).pending = s.pending := foldl_keep (·.pending) putLine (fun _ _ => rfl) _ (cleanFrames s p)
@[simp] theorem dropFrames_out (s : State) (p : Nat → Bool) : (dropFrames s p).out = s.out := foldl_keep (·.out) putLine (fun _ _ => rfl) _ (cleanFrames s p)
@[simp] theorem dropFrames_freeCtr (s : State) (p : Nat → Bool) : (dropFrames s p).freeCtr = s.freeCtr := foldl_keep (·.freeCtr) putLine (fun _ _ => rfl) _ (cleanFrames s p)
@[simp] theorem dropFrames_rngCtr (s : State) (p : Nat → Bool) : (dropFrames s p).rngCtr = s.rngCtr := foldl_keep (·.rngCtr) putLine (fun _ _ => rfl) _ (cleanFrames s p)
@[simp] theorem dropFrames_pins (s : State) (p : Nat → Bool) : (dropFrames s p).pins = s.pins := foldl_keep (·.pins) putLine (fun _ _ => rfl) _ (cleanFrames s p)
@[simp] theorem dropFrames_boot (s : State) (p : Nat → Bool) : (dropFrames s p).boot = s.boot := foldl_keep (·.boot) putLine (fun _ _ => rfl) _ (cleanFrames s p)
@[simp] theorem dropFrames_clk (s : State) (p : Nat → Bool) : (dropFrames s p).clk = s.clk := foldl_keep (·.clk) putLine (fun _ _ => rfl) _ (cleanFrames s p)
@[simp] theorem dropFrames_regs (s : State) (p : Nat → Bool) : (dropFrames s p).regs = s.regs := foldl_keep (·.regs) putLine (fun _ _ => rfl) _ (cleanFrames s p)
@[simp] theorem dropFrames_hostq (s : State) (p : Nat → Bool) : (dropFrames s p).hostq = s.hostq := foldl_keep (·.hostq) putLine (fun _ _ => rfl) _ (cleanFrames s p)
@[simp] theorem dropFrames_weft (s : State) (p : Nat → Bool) : (dropFrames s p).weft = s.weft := foldl_keep (·.weft) putLine (fun _ _ => rfl) _ (cleanFrames s p)
@[simp] theorem dropFrames_plait (s : State) (p : Nat → Bool) : (dropFrames s p).plait = s.plait := foldl_keep (·.plait) putLine (fun _ _ => rfl) _ (cleanFrames s p)
@[simp] theorem dropFrames_attn (s : State) (p : Nat → Bool) : (dropFrames s p).attn = s.attn := foldl_keep (·.attn) putLine (fun _ _ => rfl) _ (cleanFrames s p)
@[simp] theorem dropFrames_osier (s : State) (p : Nat → Bool) : (dropFrames s p).osier = s.osier := foldl_keep (·.osier) putLine (fun _ _ => rfl) _ (cleanFrames s p)
@[simp] theorem dropFrames_coma (s : State) (p : Nat → Bool) : (dropFrames s p).coma = s.coma := foldl_keep (·.coma) putLine (fun _ _ => rfl) _ (cleanFrames s p)
@[simp] theorem dropFrames_ports (s : State) (p : Nat → Bool) : (dropFrames s p).ports = s.ports := foldl_keep (·.ports) putLine (fun _ _ => rfl) _ (cleanFrames s p)
@[simp] theorem dropFrames_fab (s : State) (p : Nat → Bool) : (dropFrames s p).fab = s.fab := foldl_keep (·.fab) putLine (fun _ _ => rfl) _ (cleanFrames s p)
@[simp] theorem dropFrames_qpe (s : State) (p : Nat → Bool) : (dropFrames s p).qpe = s.qpe := foldl_keep (·.qpe) putLine (fun _ _ => rfl) _ (cleanFrames s p)
@[simp] theorem dropFrames_egr (s : State) (p : Nat → Bool) : (dropFrames s p).egr = s.egr := foldl_keep (·.egr) putLine (fun _ _ => rfl) _ (cleanFrames s p)
@[simp] theorem dropFrames_ledger (s : State) (p : Nat → Bool) : (dropFrames s p).ledger = s.ledger := foldl_keep (·.ledger) putLine (fun _ _ => rfl) _ (cleanFrames s p)
@[simp] theorem dropFrames_brake (s : State) (p : Nat → Bool) : (dropFrames s p).brake = s.brake := foldl_keep (·.brake) putLine (fun _ _ => rfl) _ (cleanFrames s p)
@[simp] theorem dropFrames_therm (s : State) (p : Nat → Bool) : (dropFrames s p).therm = s.therm := foldl_keep (·.therm) putLine (fun _ _ => rfl) _ (cleanFrames s p)
@[simp] theorem dropFrames_sec (s : State) (p : Nat → Bool) : (dropFrames s p).sec = s.sec := foldl_keep (·.sec) putLine (fun _ _ => rfl) _ (cleanFrames s p)
@[simp] theorem dropFrames_fault (s : State) (p : Nat → Bool) : (dropFrames s p).fault = s.fault := foldl_keep (·.fault) putLine (fun _ _ => rfl) _ (cleanFrames s p)
@[simp] theorem dropFrames_svc (s : State) (p : Nat → Bool) : (dropFrames s p).svc = s.svc := foldl_keep (·.svc) putLine (fun _ _ => rfl) _ (cleanFrames s p)
@[simp] theorem dropFrames_map (s : State) (p : Nat → Bool) : (dropFrames s p).map = s.map := foldl_keep (·.map) putLine (fun _ _ => rfl) _ (cleanFrames s p)
@[simp] theorem dropFrames_sb (s : State) (p : Nat → Bool) : (dropFrames s p).sb = s.sb := foldl_keep (·.sb) putLine (fun _ _ => rfl) _ (cleanFrames s p)

@[simp] theorem evict_pending (s : State) (c : Nat) : (evict s c).pending = s.pending := rfl
@[simp] theorem evict_out (s : State) (c : Nat) : (evict s c).out = s.out := rfl
@[simp] theorem evict_freeCtr (s : State) (c : Nat) : (evict s c).freeCtr = s.freeCtr := rfl
@[simp] theorem evict_rngCtr (s : State) (c : Nat) : (evict s c).rngCtr = s.rngCtr := rfl
@[simp] theorem evict_pins (s : State) (c : Nat) : (evict s c).pins = s.pins := rfl
@[simp] theorem evict_boot (s : State) (c : Nat) : (evict s c).boot = s.boot := rfl
@[simp] theorem evict_clk (s : State) (c : Nat) : (evict s c).clk = s.clk := rfl
@[simp] theorem evict_regs (s : State) (c : Nat) : (evict s c).regs = s.regs := rfl
@[simp] theorem evict_hostq (s : State) (c : Nat) : (evict s c).hostq = s.hostq := rfl
@[simp] theorem evict_weft (s : State) (c : Nat) : (evict s c).weft = s.weft := rfl
@[simp] theorem evict_plait (s : State) (c : Nat) : (evict s c).plait = s.plait := rfl
@[simp] theorem evict_attn (s : State) (c : Nat) : (evict s c).attn = s.attn := rfl
@[simp] theorem evict_osier (s : State) (c : Nat) : (evict s c).osier = s.osier := rfl
@[simp] theorem evict_coma (s : State) (c : Nat) : (evict s c).coma = s.coma := rfl
@[simp] theorem evict_ports (s : State) (c : Nat) : (evict s c).ports = s.ports := rfl
@[simp] theorem evict_fab (s : State) (c : Nat) : (evict s c).fab = s.fab := rfl
@[simp] theorem evict_qpe (s : State) (c : Nat) : (evict s c).qpe = s.qpe := rfl
@[simp] theorem evict_egr (s : State) (c : Nat) : (evict s c).egr = s.egr := rfl
@[simp] theorem evict_ledger (s : State) (c : Nat) : (evict s c).ledger = s.ledger := rfl
@[simp] theorem evict_brake (s : State) (c : Nat) : (evict s c).brake = s.brake := rfl
@[simp] theorem evict_therm (s : State) (c : Nat) : (evict s c).therm = s.therm := rfl
@[simp] theorem evict_sec (s : State) (c : Nat) : (evict s c).sec = s.sec := rfl
@[simp] theorem evict_fault (s : State) (c : Nat) : (evict s c).fault = s.fault := rfl
@[simp] theorem evict_svc (s : State) (c : Nat) : (evict s c).svc = s.svc := rfl
@[simp] theorem evict_map (s : State) (c : Nat) : (evict s c).map = s.map := rfl
@[simp] theorem evict_sb (s : State) (c : Nat) : (evict s c).sb = s.sb := rfl

@[simp] theorem fillLines_pending (s : State) (pfn off n : Nat) : (fillLines s pfn off n).pending = s.pending := by
  unfold fillLines; split
  · rfl
  · exact foldl_keep (·.pending) _ (fun t l => by split <;> rfl) _ _
@[simp] theorem fillLines_out (s : State) (pfn off n : Nat) : (fillLines s pfn off n).out = s.out := by
  unfold fillLines; split
  · rfl
  · exact foldl_keep (·.out) _ (fun t l => by split <;> rfl) _ _
@[simp] theorem fillLines_freeCtr (s : State) (pfn off n : Nat) : (fillLines s pfn off n).freeCtr = s.freeCtr := by
  unfold fillLines; split
  · rfl
  · exact foldl_keep (·.freeCtr) _ (fun t l => by split <;> rfl) _ _
@[simp] theorem fillLines_rngCtr (s : State) (pfn off n : Nat) : (fillLines s pfn off n).rngCtr = s.rngCtr := by
  unfold fillLines; split
  · rfl
  · exact foldl_keep (·.rngCtr) _ (fun t l => by split <;> rfl) _ _
@[simp] theorem fillLines_pins (s : State) (pfn off n : Nat) : (fillLines s pfn off n).pins = s.pins := by
  unfold fillLines; split
  · rfl
  · exact foldl_keep (·.pins) _ (fun t l => by split <;> rfl) _ _
@[simp] theorem fillLines_boot (s : State) (pfn off n : Nat) : (fillLines s pfn off n).boot = s.boot := by
  unfold fillLines; split
  · rfl
  · exact foldl_keep (·.boot) _ (fun t l => by split <;> rfl) _ _
@[simp] theorem fillLines_clk (s : State) (pfn off n : Nat) : (fillLines s pfn off n).clk = s.clk := by
  unfold fillLines; split
  · rfl
  · exact foldl_keep (·.clk) _ (fun t l => by split <;> rfl) _ _
@[simp] theorem fillLines_regs (s : State) (pfn off n : Nat) : (fillLines s pfn off n).regs = s.regs := by
  unfold fillLines; split
  · rfl
  · exact foldl_keep (·.regs) _ (fun t l => by split <;> rfl) _ _
@[simp] theorem fillLines_hostq (s : State) (pfn off n : Nat) : (fillLines s pfn off n).hostq = s.hostq := by
  unfold fillLines; split
  · rfl
  · exact foldl_keep (·.hostq) _ (fun t l => by split <;> rfl) _ _
@[simp] theorem fillLines_weft (s : State) (pfn off n : Nat) : (fillLines s pfn off n).weft = s.weft := by
  unfold fillLines; split
  · rfl
  · exact foldl_keep (·.weft) _ (fun t l => by split <;> rfl) _ _
@[simp] theorem fillLines_tier (s : State) (pfn off n : Nat) : (fillLines s pfn off n).tier = s.tier := by
  unfold fillLines; split
  · rfl
  · exact foldl_keep (·.tier) _ (fun t l => by split <;> rfl) _ _
@[simp] theorem fillLines_plait (s : State) (pfn off n : Nat) : (fillLines s pfn off n).plait = s.plait := by
  unfold fillLines; split
  · rfl
  · exact foldl_keep (·.plait) _ (fun t l => by split <;> rfl) _ _
@[simp] theorem fillLines_attn (s : State) (pfn off n : Nat) : (fillLines s pfn off n).attn = s.attn := by
  unfold fillLines; split
  · rfl
  · exact foldl_keep (·.attn) _ (fun t l => by split <;> rfl) _ _
@[simp] theorem fillLines_osier (s : State) (pfn off n : Nat) : (fillLines s pfn off n).osier = s.osier := by
  unfold fillLines; split
  · rfl
  · exact foldl_keep (·.osier) _ (fun t l => by split <;> rfl) _ _
@[simp] theorem fillLines_coma (s : State) (pfn off n : Nat) : (fillLines s pfn off n).coma = s.coma := by
  unfold fillLines; split
  · rfl
  · exact foldl_keep (·.coma) _ (fun t l => by split <;> rfl) _ _
@[simp] theorem fillLines_ports (s : State) (pfn off n : Nat) : (fillLines s pfn off n).ports = s.ports := by
  unfold fillLines; split
  · rfl
  · exact foldl_keep (·.ports) _ (fun t l => by split <;> rfl) _ _
@[simp] theorem fillLines_fab (s : State) (pfn off n : Nat) : (fillLines s pfn off n).fab = s.fab := by
  unfold fillLines; split
  · rfl
  · exact foldl_keep (·.fab) _ (fun t l => by split <;> rfl) _ _
@[simp] theorem fillLines_qpe (s : State) (pfn off n : Nat) : (fillLines s pfn off n).qpe = s.qpe := by
  unfold fillLines; split
  · rfl
  · exact foldl_keep (·.qpe) _ (fun t l => by split <;> rfl) _ _
@[simp] theorem fillLines_egr (s : State) (pfn off n : Nat) : (fillLines s pfn off n).egr = s.egr := by
  unfold fillLines; split
  · rfl
  · exact foldl_keep (·.egr) _ (fun t l => by split <;> rfl) _ _
@[simp] theorem fillLines_ledger (s : State) (pfn off n : Nat) : (fillLines s pfn off n).ledger = s.ledger := by
  unfold fillLines; split
  · rfl
  · exact foldl_keep (·.ledger) _ (fun t l => by split <;> rfl) _ _
@[simp] theorem fillLines_brake (s : State) (pfn off n : Nat) : (fillLines s pfn off n).brake = s.brake := by
  unfold fillLines; split
  · rfl
  · exact foldl_keep (·.brake) _ (fun t l => by split <;> rfl) _ _
@[simp] theorem fillLines_therm (s : State) (pfn off n : Nat) : (fillLines s pfn off n).therm = s.therm := by
  unfold fillLines; split
  · rfl
  · exact foldl_keep (·.therm) _ (fun t l => by split <;> rfl) _ _
@[simp] theorem fillLines_sec (s : State) (pfn off n : Nat) : (fillLines s pfn off n).sec = s.sec := by
  unfold fillLines; split
  · rfl
  · exact foldl_keep (·.sec) _ (fun t l => by split <;> rfl) _ _
@[simp] theorem fillLines_fault (s : State) (pfn off n : Nat) : (fillLines s pfn off n).fault = s.fault := by
  unfold fillLines; split
  · rfl
  · exact foldl_keep (·.fault) _ (fun t l => by split <;> rfl) _ _
@[simp] theorem fillLines_svc (s : State) (pfn off n : Nat) : (fillLines s pfn off n).svc = s.svc := by
  unfold fillLines; split
  · rfl
  · exact foldl_keep (·.svc) _ (fun t l => by split <;> rfl) _ _
@[simp] theorem fillLines_map (s : State) (pfn off n : Nat) : (fillLines s pfn off n).map = s.map := by
  unfold fillLines; split
  · rfl
  · exact foldl_keep (·.map) _ (fun t l => by split <;> rfl) _ _
@[simp] theorem fillLines_sb (s : State) (pfn off n : Nat) : (fillLines s pfn off n).sb = s.sb := by
  unfold fillLines; split
  · rfl
  · exact foldl_keep (·.sb) _ (fun t l => by split <;> rfl) _ _

@[simp] theorem putFrame_pending (s : State) (slot pfn off : Nat) (bs : Bytes) : (putFrame s slot pfn off bs).pending = s.pending := by simp [putFrame]
@[simp] theorem putFrame_out (s : State) (slot pfn off : Nat) (bs : Bytes) : (putFrame s slot pfn off bs).out = s.out := by simp [putFrame]
@[simp] theorem putFrame_freeCtr (s : State) (slot pfn off : Nat) (bs : Bytes) : (putFrame s slot pfn off bs).freeCtr = s.freeCtr := by simp [putFrame]
@[simp] theorem putFrame_rngCtr (s : State) (slot pfn off : Nat) (bs : Bytes) : (putFrame s slot pfn off bs).rngCtr = s.rngCtr := by simp [putFrame]
@[simp] theorem putFrame_pins (s : State) (slot pfn off : Nat) (bs : Bytes) : (putFrame s slot pfn off bs).pins = s.pins := by simp [putFrame]
@[simp] theorem putFrame_boot (s : State) (slot pfn off : Nat) (bs : Bytes) : (putFrame s slot pfn off bs).boot = s.boot := by simp [putFrame]
@[simp] theorem putFrame_clk (s : State) (slot pfn off : Nat) (bs : Bytes) : (putFrame s slot pfn off bs).clk = s.clk := by simp [putFrame]
@[simp] theorem putFrame_regs (s : State) (slot pfn off : Nat) (bs : Bytes) : (putFrame s slot pfn off bs).regs = s.regs := by simp [putFrame]
@[simp] theorem putFrame_hostq (s : State) (slot pfn off : Nat) (bs : Bytes) : (putFrame s slot pfn off bs).hostq = s.hostq := by simp [putFrame]
@[simp] theorem putFrame_weft (s : State) (slot pfn off : Nat) (bs : Bytes) : (putFrame s slot pfn off bs).weft = s.weft := by simp [putFrame]
@[simp] theorem putFrame_plait (s : State) (slot pfn off : Nat) (bs : Bytes) : (putFrame s slot pfn off bs).plait = s.plait := by simp [putFrame]
@[simp] theorem putFrame_attn (s : State) (slot pfn off : Nat) (bs : Bytes) : (putFrame s slot pfn off bs).attn = s.attn := by simp [putFrame]
@[simp] theorem putFrame_coma (s : State) (slot pfn off : Nat) (bs : Bytes) : (putFrame s slot pfn off bs).coma = s.coma := by simp [putFrame]
@[simp] theorem putFrame_ports (s : State) (slot pfn off : Nat) (bs : Bytes) : (putFrame s slot pfn off bs).ports = s.ports := by simp [putFrame]
@[simp] theorem putFrame_fab (s : State) (slot pfn off : Nat) (bs : Bytes) : (putFrame s slot pfn off bs).fab = s.fab := by simp [putFrame]
@[simp] theorem putFrame_qpe (s : State) (slot pfn off : Nat) (bs : Bytes) : (putFrame s slot pfn off bs).qpe = s.qpe := by simp [putFrame]
@[simp] theorem putFrame_egr (s : State) (slot pfn off : Nat) (bs : Bytes) : (putFrame s slot pfn off bs).egr = s.egr := by simp [putFrame]
@[simp] theorem putFrame_ledger (s : State) (slot pfn off : Nat) (bs : Bytes) : (putFrame s slot pfn off bs).ledger = s.ledger := by simp [putFrame]
@[simp] theorem putFrame_brake (s : State) (slot pfn off : Nat) (bs : Bytes) : (putFrame s slot pfn off bs).brake = s.brake := by simp [putFrame]
@[simp] theorem putFrame_therm (s : State) (slot pfn off : Nat) (bs : Bytes) : (putFrame s slot pfn off bs).therm = s.therm := by simp [putFrame]
@[simp] theorem putFrame_sec (s : State) (slot pfn off : Nat) (bs : Bytes) : (putFrame s slot pfn off bs).sec = s.sec := by simp [putFrame]
@[simp] theorem putFrame_fault (s : State) (slot pfn off : Nat) (bs : Bytes) : (putFrame s slot pfn off bs).fault = s.fault := by simp [putFrame]
@[simp] theorem putFrame_svc (s : State) (slot pfn off : Nat) (bs : Bytes) : (putFrame s slot pfn off bs).svc = s.svc := by simp [putFrame]
@[simp] theorem putFrame_map (s : State) (slot pfn off : Nat) (bs : Bytes) : (putFrame s slot pfn off bs).map = s.map := by simp [putFrame]
@[simp] theorem putFrame_sb (s : State) (slot pfn off : Nat) (bs : Bytes) : (putFrame s slot pfn off bs).sb = s.sb := by simp [putFrame]

@[simp] theorem spaceWrite_pending (s : State) (c off : Nat) (bs : Bytes) : (spaceWrite s c off bs).pending = s.pending := by
  unfold spaceWrite; exact foldl_keep (·.pending) _ (fun _ _ => putFrame_pending ..) _ _
@[simp] theorem spaceWrite_out (s : State) (c off : Nat) (bs : Bytes) : (spaceWrite s c off bs).out = s.out := by
  unfold spaceWrite; exact foldl_keep (·.out) _ (fun _ _ => putFrame_out ..) _ _
@[simp] theorem spaceWrite_freeCtr (s : State) (c off : Nat) (bs : Bytes) : (spaceWrite s c off bs).freeCtr = s.freeCtr := by
  unfold spaceWrite; exact foldl_keep (·.freeCtr) _ (fun _ _ => putFrame_freeCtr ..) _ _
@[simp] theorem spaceWrite_rngCtr (s : State) (c off : Nat) (bs : Bytes) : (spaceWrite s c off bs).rngCtr = s.rngCtr := by
  unfold spaceWrite; exact foldl_keep (·.rngCtr) _ (fun _ _ => putFrame_rngCtr ..) _ _
@[simp] theorem spaceWrite_pins (s : State) (c off : Nat) (bs : Bytes) : (spaceWrite s c off bs).pins = s.pins := by
  unfold spaceWrite; exact foldl_keep (·.pins) _ (fun _ _ => putFrame_pins ..) _ _
@[simp] theorem spaceWrite_boot (s : State) (c off : Nat) (bs : Bytes) : (spaceWrite s c off bs).boot = s.boot := by
  unfold spaceWrite; exact foldl_keep (·.boot) _ (fun _ _ => putFrame_boot ..) _ _
@[simp] theorem spaceWrite_clk (s : State) (c off : Nat) (bs : Bytes) : (spaceWrite s c off bs).clk = s.clk := by
  unfold spaceWrite; exact foldl_keep (·.clk) _ (fun _ _ => putFrame_clk ..) _ _
@[simp] theorem spaceWrite_regs (s : State) (c off : Nat) (bs : Bytes) : (spaceWrite s c off bs).regs = s.regs := by
  unfold spaceWrite; exact foldl_keep (·.regs) _ (fun _ _ => putFrame_regs ..) _ _
@[simp] theorem spaceWrite_hostq (s : State) (c off : Nat) (bs : Bytes) : (spaceWrite s c off bs).hostq = s.hostq := by
  unfold spaceWrite; exact foldl_keep (·.hostq) _ (fun _ _ => putFrame_hostq ..) _ _
@[simp] theorem spaceWrite_weft (s : State) (c off : Nat) (bs : Bytes) : (spaceWrite s c off bs).weft = s.weft := by
  unfold spaceWrite; exact foldl_keep (·.weft) _ (fun _ _ => putFrame_weft ..) _ _
@[simp] theorem spaceWrite_plait (s : State) (c off : Nat) (bs : Bytes) : (spaceWrite s c off bs).plait = s.plait := by
  unfold spaceWrite; exact foldl_keep (·.plait) _ (fun _ _ => putFrame_plait ..) _ _
@[simp] theorem spaceWrite_attn (s : State) (c off : Nat) (bs : Bytes) : (spaceWrite s c off bs).attn = s.attn := by
  unfold spaceWrite; exact foldl_keep (·.attn) _ (fun _ _ => putFrame_attn ..) _ _
@[simp] theorem spaceWrite_coma (s : State) (c off : Nat) (bs : Bytes) : (spaceWrite s c off bs).coma = s.coma := by
  unfold spaceWrite; exact foldl_keep (·.coma) _ (fun _ _ => putFrame_coma ..) _ _
@[simp] theorem spaceWrite_ports (s : State) (c off : Nat) (bs : Bytes) : (spaceWrite s c off bs).ports = s.ports := by
  unfold spaceWrite; exact foldl_keep (·.ports) _ (fun _ _ => putFrame_ports ..) _ _
@[simp] theorem spaceWrite_fab (s : State) (c off : Nat) (bs : Bytes) : (spaceWrite s c off bs).fab = s.fab := by
  unfold spaceWrite; exact foldl_keep (·.fab) _ (fun _ _ => putFrame_fab ..) _ _
@[simp] theorem spaceWrite_qpe (s : State) (c off : Nat) (bs : Bytes) : (spaceWrite s c off bs).qpe = s.qpe := by
  unfold spaceWrite; exact foldl_keep (·.qpe) _ (fun _ _ => putFrame_qpe ..) _ _
@[simp] theorem spaceWrite_egr (s : State) (c off : Nat) (bs : Bytes) : (spaceWrite s c off bs).egr = s.egr := by
  unfold spaceWrite; exact foldl_keep (·.egr) _ (fun _ _ => putFrame_egr ..) _ _
@[simp] theorem spaceWrite_ledger (s : State) (c off : Nat) (bs : Bytes) : (spaceWrite s c off bs).ledger = s.ledger := by
  unfold spaceWrite; exact foldl_keep (·.ledger) _ (fun _ _ => putFrame_ledger ..) _ _
@[simp] theorem spaceWrite_brake (s : State) (c off : Nat) (bs : Bytes) : (spaceWrite s c off bs).brake = s.brake := by
  unfold spaceWrite; exact foldl_keep (·.brake) _ (fun _ _ => putFrame_brake ..) _ _
@[simp] theorem spaceWrite_therm (s : State) (c off : Nat) (bs : Bytes) : (spaceWrite s c off bs).therm = s.therm := by
  unfold spaceWrite; exact foldl_keep (·.therm) _ (fun _ _ => putFrame_therm ..) _ _
@[simp] theorem spaceWrite_sec (s : State) (c off : Nat) (bs : Bytes) : (spaceWrite s c off bs).sec = s.sec := by
  unfold spaceWrite; exact foldl_keep (·.sec) _ (fun _ _ => putFrame_sec ..) _ _
@[simp] theorem spaceWrite_fault (s : State) (c off : Nat) (bs : Bytes) : (spaceWrite s c off bs).fault = s.fault := by
  unfold spaceWrite; exact foldl_keep (·.fault) _ (fun _ _ => putFrame_fault ..) _ _
@[simp] theorem spaceWrite_svc (s : State) (c off : Nat) (bs : Bytes) : (spaceWrite s c off bs).svc = s.svc := by
  unfold spaceWrite; exact foldl_keep (·.svc) _ (fun _ _ => putFrame_svc ..) _ _
@[simp] theorem spaceWrite_map (s : State) (c off : Nat) (bs : Bytes) : (spaceWrite s c off bs).map = s.map := by
  unfold spaceWrite; exact foldl_keep (·.map) _ (fun _ _ => putFrame_map ..) _ _
@[simp] theorem spaceWrite_sb (s : State) (c off : Nat) (bs : Bytes) : (spaceWrite s c off bs).sb = s.sb := by
  unfold spaceWrite; exact foldl_keep (·.sb) _ (fun _ _ => putFrame_sb ..) _ _

@[simp] theorem nodeWrite_pending (s : State) (pfn off : Nat) (bs : Bytes) : (nodeWrite s pfn off bs).pending = s.pending := by
  unfold nodeWrite; split <;> simp
@[simp] theorem nodeWrite_out (s : State) (pfn off : Nat) (bs : Bytes) : (nodeWrite s pfn off bs).out = s.out := by
  unfold nodeWrite; split <;> simp
@[simp] theorem nodeWrite_freeCtr (s : State) (pfn off : Nat) (bs : Bytes) : (nodeWrite s pfn off bs).freeCtr = s.freeCtr := by
  unfold nodeWrite; split <;> simp
@[simp] theorem nodeWrite_rngCtr (s : State) (pfn off : Nat) (bs : Bytes) : (nodeWrite s pfn off bs).rngCtr = s.rngCtr := by
  unfold nodeWrite; split <;> simp
@[simp] theorem nodeWrite_pins (s : State) (pfn off : Nat) (bs : Bytes) : (nodeWrite s pfn off bs).pins = s.pins := by
  unfold nodeWrite; split <;> simp
@[simp] theorem nodeWrite_boot (s : State) (pfn off : Nat) (bs : Bytes) : (nodeWrite s pfn off bs).boot = s.boot := by
  unfold nodeWrite; split <;> simp
@[simp] theorem nodeWrite_clk (s : State) (pfn off : Nat) (bs : Bytes) : (nodeWrite s pfn off bs).clk = s.clk := by
  unfold nodeWrite; split <;> simp
@[simp] theorem nodeWrite_regs (s : State) (pfn off : Nat) (bs : Bytes) : (nodeWrite s pfn off bs).regs = s.regs := by
  unfold nodeWrite; split <;> simp
@[simp] theorem nodeWrite_hostq (s : State) (pfn off : Nat) (bs : Bytes) : (nodeWrite s pfn off bs).hostq = s.hostq := by
  unfold nodeWrite; split <;> simp
@[simp] theorem nodeWrite_weft (s : State) (pfn off : Nat) (bs : Bytes) : (nodeWrite s pfn off bs).weft = s.weft := by
  unfold nodeWrite; split <;> simp
@[simp] theorem nodeWrite_plait (s : State) (pfn off : Nat) (bs : Bytes) : (nodeWrite s pfn off bs).plait = s.plait := by
  unfold nodeWrite; split <;> simp
@[simp] theorem nodeWrite_attn (s : State) (pfn off : Nat) (bs : Bytes) : (nodeWrite s pfn off bs).attn = s.attn := by
  unfold nodeWrite; split <;> simp
@[simp] theorem nodeWrite_coma (s : State) (pfn off : Nat) (bs : Bytes) : (nodeWrite s pfn off bs).coma = s.coma := by
  unfold nodeWrite; split <;> simp
@[simp] theorem nodeWrite_ports (s : State) (pfn off : Nat) (bs : Bytes) : (nodeWrite s pfn off bs).ports = s.ports := by
  unfold nodeWrite; split <;> simp
@[simp] theorem nodeWrite_fab (s : State) (pfn off : Nat) (bs : Bytes) : (nodeWrite s pfn off bs).fab = s.fab := by
  unfold nodeWrite; split <;> simp
@[simp] theorem nodeWrite_qpe (s : State) (pfn off : Nat) (bs : Bytes) : (nodeWrite s pfn off bs).qpe = s.qpe := by
  unfold nodeWrite; split <;> simp
@[simp] theorem nodeWrite_egr (s : State) (pfn off : Nat) (bs : Bytes) : (nodeWrite s pfn off bs).egr = s.egr := by
  unfold nodeWrite; split <;> simp
@[simp] theorem nodeWrite_ledger (s : State) (pfn off : Nat) (bs : Bytes) : (nodeWrite s pfn off bs).ledger = s.ledger := by
  unfold nodeWrite; split <;> simp
@[simp] theorem nodeWrite_brake (s : State) (pfn off : Nat) (bs : Bytes) : (nodeWrite s pfn off bs).brake = s.brake := by
  unfold nodeWrite; split <;> simp
@[simp] theorem nodeWrite_therm (s : State) (pfn off : Nat) (bs : Bytes) : (nodeWrite s pfn off bs).therm = s.therm := by
  unfold nodeWrite; split <;> simp
@[simp] theorem nodeWrite_sec (s : State) (pfn off : Nat) (bs : Bytes) : (nodeWrite s pfn off bs).sec = s.sec := by
  unfold nodeWrite; split <;> simp
@[simp] theorem nodeWrite_fault (s : State) (pfn off : Nat) (bs : Bytes) : (nodeWrite s pfn off bs).fault = s.fault := by
  unfold nodeWrite; split <;> simp
@[simp] theorem nodeWrite_svc (s : State) (pfn off : Nat) (bs : Bytes) : (nodeWrite s pfn off bs).svc = s.svc := by
  unfold nodeWrite; split <;> simp
@[simp] theorem nodeWrite_map (s : State) (pfn off : Nat) (bs : Bytes) : (nodeWrite s pfn off bs).map = s.map := by
  unfold nodeWrite; split <;> simp
@[simp] theorem nodeWrite_sb (s : State) (pfn off : Nat) (bs : Bytes) : (nodeWrite s pfn off bs).sb = s.sb := by
  unfold nodeWrite; split <;> simp

/-! ### The canonical form -/

theorem fillLines_wf (s : State) (pfn off n : Nat) (h : s.mem.wf = true) : (fillLines s pfn off n).mem.wf = true := by
  unfold fillLines; split
  · exact h
  · exact foldl_inv (·.mem.wf = true) _ (fun t l w => by split <;> first | exact frameWrite_wf _ _ _ _ _ w | exact w) _ _ h

theorem dropFrames_wf (s : State) (p : Nat → Bool) (h : s.mem.wf = true) : (dropFrames s p).mem.wf = true :=
  foldl_inv (·.mem.wf = true) putLine (fun _ _ w => frameWrite_wf _ _ _ _ _ w) _ (cleanFrames s p) h

theorem evict_wf (s : State) (c : Nat) (h : s.mem.wf = true) : (evict s c).mem.wf = true := h

theorem forgetFrames_wf (s : State) (p : Nat → Bool) (h : s.mem.wf = true) : (forgetFrames s p).mem.wf = true := h

theorem cleanFrames_wf (s : State) (p : Nat → Bool) (h : s.mem.wf = true) : (cleanFrames s p).mem.wf = true := h

/-- A controller's write keeps the canonical form. -/
theorem putFrame_wf (s : State) (slot pfn off : Nat) (bs : Bytes) (h : s.mem.wf = true) : (putFrame s slot pfn off bs).mem.wf = true := by
  unfold putFrame; dsimp only; apply evict_wf
  show (touchRegion _ pfn).mem.wf = true
  rw [touchRegion_mem]; exact frameWrite_wf _ _ _ _ _ (fillLines_wf _ _ _ _ (wakeFrame_wf _ _ h))

theorem spaceWrite_wf (s : State) (c off : Nat) (bs : Bytes) (h : s.mem.wf = true) : (spaceWrite s c off bs).mem.wf = true :=
  foldl_inv (·.mem.wf = true) _ (fun _ _ w => putFrame_wf _ _ _ _ _ w) _ _ h

theorem nodeWrite_wf (s : State) (pfn off : Nat) (bs : Bytes) (h : s.mem.wf = true) : (nodeWrite s pfn off bs).mem.wf = true := by
  unfold nodeWrite; split
  · exact spaceWrite_wf _ _ _ _ h
  · exact h

/-- A unit's write keeps the canonical form. -/
theorem dramWrite_wf (s : State) (pfn off : Nat) (b : Byte) (h : s.mem.wf = true) : (dramWrite s pfn off b).mem.wf = true := h

/-! ### Outside the COMPUTE regions the data path sees one memory (03 R69) -/

theorem touchRegion_inCompute (s : State) (pfn q : Nat) : inCompute (touchRegion s pfn) q = inCompute s q := by
  have k : ∀ (key : Nat) (v : Region) (j : Nat), v.st = (regionSt s key).st → (regionSt (setRegion s key v) j).st = (regionSt s j).st := by
    intro key v j h; unfold regionSt setRegion; dsimp only
    by_cases e : j = key
    · subst e; rw [tget_tset_self, h]; rfl
    · rw [tget_tset_ne _ _ _ e]
  unfold inCompute touchRegion; dsimp only
  cases regionOf q with
  | none => rfl
  | some j => dsimp only; (repeat' split) <;> first | rfl | (rw [k]; rfl)

/-- What a controller's write leaves of a frame outside the COMPUTE regions. -/
theorem putFrame_plain (s : State) (slot pfn off : Nat) (bs : Bytes) (h : inCompute s pfn = false) :
    (putFrame s slot pfn off bs).mem.cells = (frameWrite s (tagOf s slot) pfn off bs).mem.cells := by
  have c : inCompute (wakeFrame s pfn) pfn = false := by rw [wakeFrame_inCompute]; exact h
  have f : fillLines (wakeFrame s pfn) pfn off bs.length = wakeFrame s pfn := by unfold fillLines; simp [c]
  have g : tagOf (wakeFrame s pfn) slot = tagOf s slot := by unfold tagOf keySlot; rw [wakeFrame_sec]
  unfold putFrame; dsimp only; rw [f]
  show (touchRegion _ pfn).mem.cells = _
  rw [touchRegion_mem]; simp [frameTag, c, g, frameWrite]

/-- A frame of which no line differs in the DRAM reads as the controllers hold it. -/
theorem getFrame_plain (s : State) (slot pfn off n : Nat) (h : ∀ e ∈ s.mem.behind, e.1 / 128 ≠ pfn) :
    getFrame s slot pfn off n = frameRead s (frameTag s slot pfn) pfn off n := by
  have e : (s.mem.behind.filter fun e => e.1 / 128 == pfn) = [] := by
    simp only [List.filter_eq_nil_iff, beq_iff_eq]; intro x hx; exact h x hx
  unfold getFrame; rw [e]; rfl

end Sys2Proof.Machine
end

