-- ==== Sys2Proof/Laws/Steps.lean ====
section
/-! SUPPORT. What ending, faulting and cutting a step leaves alone, and the same of fencing a unit or the node. -/
namespace Sys2Proof.Machine
open Sys2Proof

@[simp] theorem free64_pending (s : State) : (free64 s).2.pending = s.pending := rfl
@[simp] theorem draw_pending (s : State) : (draw s).2.pending = s.pending := rfl
theorem foldl_pending {α : Type} (f : State → α → State) (h : ∀ s x, (f s x).pending = s.pending) (l : List α) (s : State) :
    (l.foldl f s).pending = s.pending := foldl_keep (·.pending) f h l s
@[simp] theorem free64_pins (s : State) : (free64 s).2.pins = s.pins := rfl
@[simp] theorem draw_pins (s : State) : (draw s).2.pins = s.pins := rfl
theorem foldl_pins {α : Type} (f : State → α → State) (h : ∀ s x, (f s x).pins = s.pins) (l : List α) (s : State) :
    (l.foldl f s).pins = s.pins := foldl_keep (·.pins) f h l s
@[simp] theorem free64_boot (s : State) : (free64 s).2.boot = s.boot := rfl
@[simp] theorem draw_boot (s : State) : (draw s).2.boot = s.boot := rfl
theorem foldl_boot {α : Type} (f : State → α → State) (h : ∀ s x, (f s x).boot = s.boot) (l : List α) (s : State) :
    (l.foldl f s).boot = s.boot := foldl_keep (·.boot) f h l s
@[simp] theorem free64_clk (s : State) : (free64 s).2.clk = s.clk := rfl
@[simp] theorem draw_clk (s : State) : (draw s).2.clk = s.clk := rfl
theorem foldl_clk {α : Type} (f : State → α → State) (h : ∀ s x, (f s x).clk = s.clk) (l : List α) (s : State) :
    (l.foldl f s).clk = s.clk := foldl_keep (·.clk) f h l s
@[simp] theorem free64_ledger (s : State) : (free64 s).2.ledger = s.ledger := rfl
@[simp] theorem draw_ledger (s : State) : (draw s).2.ledger = s.ledger := rfl
theorem foldl_ledger {α : Type} (f : State → α → State) (h : ∀ s x, (f s x).ledger = s.ledger) (l : List α) (s : State) :
    (l.foldl f s).ledger = s.ledger := foldl_keep (·.ledger) f h l s
@[simp] theorem free64_brake (s : State) : (free64 s).2.brake = s.brake := rfl
@[simp] theorem draw_brake (s : State) : (draw s).2.brake = s.brake := rfl
theorem foldl_brake {α : Type} (f : State → α → State) (h : ∀ s x, (f s x).brake = s.brake) (l : List α) (s : State) :
    (l.foldl f s).brake = s.brake := foldl_keep (·.brake) f h l s
@[simp] theorem free64_therm (s : State) : (free64 s).2.therm = s.therm := rfl
@[simp] theorem draw_therm (s : State) : (draw s).2.therm = s.therm := rfl
theorem foldl_therm {α : Type} (f : State → α → State) (h : ∀ s x, (f s x).therm = s.therm) (l : List α) (s : State) :
    (l.foldl f s).therm = s.therm := foldl_keep (·.therm) f h l s
@[simp] theorem free64_map (s : State) : (free64 s).2.map = s.map := rfl
@[simp] theorem draw_map (s : State) : (draw s).2.map = s.map := rfl
theorem foldl_map {α : Type} (f : State → α → State) (h : ∀ s x, (f s x).map = s.map) (l : List α) (s : State) :
    (l.foldl f s).map = s.map := foldl_keep (·.map) f h l s

@[simp] theorem setFrameInfo_pending (s : State) (pfn : Nat) (i : FrameInfo) : (setFrameInfo s pfn i).pending = s.pending := rfl
@[simp] theorem setFrameInfo_pins (s : State) (pfn : Nat) (i : FrameInfo) : (setFrameInfo s pfn i).pins = s.pins := rfl
@[simp] theorem setFrameInfo_boot (s : State) (pfn : Nat) (i : FrameInfo) : (setFrameInfo s pfn i).boot = s.boot := rfl
@[simp] theorem setFrameInfo_clk (s : State) (pfn : Nat) (i : FrameInfo) : (setFrameInfo s pfn i).clk = s.clk := rfl
@[simp] theorem setFrameInfo_ledger (s : State) (pfn : Nat) (i : FrameInfo) : (setFrameInfo s pfn i).ledger = s.ledger := rfl
@[simp] theorem setFrameInfo_brake (s : State) (pfn : Nat) (i : FrameInfo) : (setFrameInfo s pfn i).brake = s.brake := rfl
@[simp] theorem setFrameInfo_therm (s : State) (pfn : Nat) (i : FrameInfo) : (setFrameInfo s pfn i).therm = s.therm := rfl
@[simp] theorem setFrameInfo_map (s : State) (pfn : Nat) (i : FrameInfo) : (setFrameInfo s pfn i).map = s.map := rfl
@[simp] theorem releaseFrames_pending (s : State) (ps : List Nat) : (releaseFrames s ps).pending = s.pending := by
  apply foldl_pending; intro s x; (try dsimp only); (repeat' split) <;> first | rfl | (simp; done) | simp_all
@[simp] theorem releaseFrames_pins (s : State) (ps : List Nat) : (releaseFrames s ps).pins = s.pins := by
  apply foldl_pins; intro s x; (try dsimp only); (repeat' split) <;> first | rfl | (simp; done) | simp_all
@[simp] theorem releaseFrames_boot (s : State) (ps : List Nat) : (releaseFrames s ps).boot = s.boot := by
  apply foldl_boot; intro s x; (try dsimp only); (repeat' split) <;> first | rfl | (simp; done) | simp_all
@[simp] theorem releaseFrames_clk (s : State) (ps : List Nat) : (releaseFrames s ps).clk = s.clk := by
  apply foldl_clk; intro s x; (try dsimp only); (repeat' split) <;> first | rfl | (simp; done) | simp_all
@[simp] theorem releaseFrames_ledger (s : State) (ps : List Nat) : (releaseFrames s ps).ledger = s.ledger := by
  apply foldl_ledger; intro s x; (try dsimp only); (repeat' split) <;> first | rfl | (simp; done) | simp_all
@[simp] theorem releaseFrames_brake (s : State) (ps : List Nat) : (releaseFrames s ps).brake = s.brake := by
  apply foldl_brake; intro s x; (try dsimp only); (repeat' split) <;> first | rfl | (simp; done) | simp_all
@[simp] theorem releaseFrames_therm (s : State) (ps : List Nat) : (releaseFrames s ps).therm = s.therm := by
  apply foldl_therm; intro s x; (try dsimp only); (repeat' split) <;> first | rfl | (simp; done) | simp_all
@[simp] theorem releaseFrames_map (s : State) (ps : List Nat) : (releaseFrames s ps).map = s.map := by
  apply foldl_map; intro s x; (try dsimp only); (repeat' split) <;> first | rfl | (simp; done) | simp_all
@[simp] theorem retireFrames_pending (s : State) (ps : List Nat) (waits : List Nat) : (retireFrames s ps waits).pending = s.pending := by
  unfold retireFrames; dsimp only; (repeat' split)
  · rfl
  · simp
  · apply foldl_pending; intro s x; (try dsimp only); split <;> simp
@[simp] theorem retireFrames_pins (s : State) (ps : List Nat) (waits : List Nat) : (retireFrames s ps waits).pins = s.pins := by
  unfold retireFrames; dsimp only; (repeat' split)
  · rfl
  · simp
  · apply foldl_pins; intro s x; (try dsimp only); split <;> simp
@[simp] theorem retireFrames_boot (s : State) (ps : List Nat) (waits : List Nat) : (retireFrames s ps waits).boot = s.boot := by
  unfold retireFrames; dsimp only; (repeat' split)
  · rfl
  · simp
  · apply foldl_boot; intro s x; (try dsimp only); split <;> simp
@[simp] theorem retireFrames_clk (s : State) (ps : List Nat) (waits : List Nat) : (retireFrames s ps waits).clk = s.clk := by
  unfold retireFrames; dsimp only; (repeat' split)
  · rfl
  · simp
  · apply foldl_clk; intro s x; (try dsimp only); split <;> simp
@[simp] theorem retireFrames_ledger (s : State) (ps : List Nat) (waits : List Nat) : (retireFrames s ps waits).ledger = s.ledger := by
  unfold retireFrames; dsimp only; (repeat' split)
  · rfl
  · simp
  · apply foldl_ledger; intro s x; (try dsimp only); split <;> simp
@[simp] theorem retireFrames_brake (s : State) (ps : List Nat) (waits : List Nat) : (retireFrames s ps waits).brake = s.brake := by
  unfold retireFrames; dsimp only; (repeat' split)
  · rfl
  · simp
  · apply foldl_brake; intro s x; (try dsimp only); split <;> simp
@[simp] theorem retireFrames_therm (s : State) (ps : List Nat) (waits : List Nat) : (retireFrames s ps waits).therm = s.therm := by
  unfold retireFrames; dsimp only; (repeat' split)
  · rfl
  · simp
  · apply foldl_therm; intro s x; (try dsimp only); split <;> simp
@[simp] theorem retireFrames_map (s : State) (ps : List Nat) (waits : List Nat) : (retireFrames s ps waits).map = s.map := by
  unfold retireFrames; dsimp only; (repeat' split)
  · rfl
  · simp
  · apply foldl_map; intro s x; (try dsimp only); split <;> simp
@[simp] theorem returnFrames_pending (s : State) (ps : List Nat) : (returnFrames s ps).pending = s.pending := rfl
@[simp] theorem returnFrames_pins (s : State) (ps : List Nat) : (returnFrames s ps).pins = s.pins := rfl
@[simp] theorem returnFrames_boot (s : State) (ps : List Nat) : (returnFrames s ps).boot = s.boot := rfl
@[simp] theorem returnFrames_clk (s : State) (ps : List Nat) : (returnFrames s ps).clk = s.clk := rfl
@[simp] theorem returnFrames_ledger (s : State) (ps : List Nat) : (returnFrames s ps).ledger = s.ledger := rfl
@[simp] theorem returnFrames_brake (s : State) (ps : List Nat) : (returnFrames s ps).brake = s.brake := rfl
@[simp] theorem returnFrames_therm (s : State) (ps : List Nat) : (returnFrames s ps).therm = s.therm := rfl
@[simp] theorem returnFrames_map (s : State) (ps : List Nat) : (returnFrames s ps).map = s.map := rfl
@[simp] theorem giveBack_pending (s : State) (t : Step) (ps : List Nat) : (giveBack s t ps).pending = s.pending := by simp [giveBack]
@[simp] theorem giveBack_pins (s : State) (t : Step) (ps : List Nat) : (giveBack s t ps).pins = s.pins := by simp [giveBack]
@[simp] theorem giveBack_boot (s : State) (t : Step) (ps : List Nat) : (giveBack s t ps).boot = s.boot := by simp [giveBack]
@[simp] theorem giveBack_clk (s : State) (t : Step) (ps : List Nat) : (giveBack s t ps).clk = s.clk := by simp [giveBack]
@[simp] theorem giveBack_ledger (s : State) (t : Step) (ps : List Nat) : (giveBack s t ps).ledger = s.ledger := by simp [giveBack]
@[simp] theorem giveBack_brake (s : State) (t : Step) (ps : List Nat) : (giveBack s t ps).brake = s.brake := by simp [giveBack]
@[simp] theorem giveBack_therm (s : State) (t : Step) (ps : List Nat) : (giveBack s t ps).therm = s.therm := by simp [giveBack]
@[simp] theorem giveBack_map (s : State) (t : Step) (ps : List Nat) : (giveBack s t ps).map = s.map := by simp [giveBack]
@[simp] theorem setQp_pending (s : State) (n : Nat) (q : Qp) : (setQp s n q).pending = s.pending := rfl
@[simp] theorem setQp_pins (s : State) (n : Nat) (q : Qp) : (setQp s n q).pins = s.pins := rfl
@[simp] theorem setQp_boot (s : State) (n : Nat) (q : Qp) : (setQp s n q).boot = s.boot := rfl
@[simp] theorem setQp_clk (s : State) (n : Nat) (q : Qp) : (setQp s n q).clk = s.clk := rfl
@[simp] theorem setQp_ledger (s : State) (n : Nat) (q : Qp) : (setQp s n q).ledger = s.ledger := rfl
@[simp] theorem setQp_brake (s : State) (n : Nat) (q : Qp) : (setQp s n q).brake = s.brake := rfl
@[simp] theorem setQp_therm (s : State) (n : Nat) (q : Qp) : (setQp s n q).therm = s.therm := rfl
@[simp] theorem setQp_map (s : State) (n : Nat) (q : Qp) : (setQp s n q).map = s.map := rfl
@[simp] theorem putWr_pending (s : State) (qpn : Nat) (w : Wr) : (putWr s qpn w).pending = s.pending := by simp [putWr]
@[simp] theorem putWr_pins (s : State) (qpn : Nat) (w : Wr) : (putWr s qpn w).pins = s.pins := by simp [putWr]
@[simp] theorem putWr_boot (s : State) (qpn : Nat) (w : Wr) : (putWr s qpn w).boot = s.boot := by simp [putWr]
@[simp] theorem putWr_clk (s : State) (qpn : Nat) (w : Wr) : (putWr s qpn w).clk = s.clk := by simp [putWr]
@[simp] theorem putWr_ledger (s : State) (qpn : Nat) (w : Wr) : (putWr s qpn w).ledger = s.ledger := by simp [putWr]
@[simp] theorem putWr_brake (s : State) (qpn : Nat) (w : Wr) : (putWr s qpn w).brake = s.brake := by simp [putWr]
@[simp] theorem putWr_therm (s : State) (qpn : Nat) (w : Wr) : (putWr s qpn w).therm = s.therm := by simp [putWr]
@[simp] theorem putWr_map (s : State) (qpn : Nat) (w : Wr) : (putWr s qpn w).map = s.map := by simp [putWr]
@[simp] theorem postWr_pending (s : State) (qpn : Nat) (w : Wr) : (postWr s qpn w).pending = s.pending := by
  unfold postWr; (try dsimp only); (repeat' split) <;> first | done | rfl | (simp; done) | (simp_all; done)
@[simp] theorem postWr_pins (s : State) (qpn : Nat) (w : Wr) : (postWr s qpn w).pins = s.pins := by
  unfold postWr; (try dsimp only); (repeat' split) <;> first | done | rfl | (simp; done) | (simp_all; done)
@[simp] theorem postWr_boot (s : State) (qpn : Nat) (w : Wr) : (postWr s qpn w).boot = s.boot := by
  unfold postWr; (try dsimp only); (repeat' split) <;> first | done | rfl | (simp; done) | (simp_all; done)
@[simp] theorem postWr_clk (s : State) (qpn : Nat) (w : Wr) : (postWr s qpn w).clk = s.clk := by
  unfold postWr; (try dsimp only); (repeat' split) <;> first | done | rfl | (simp; done) | (simp_all; done)
@[simp] theorem postWr_ledger (s : State) (qpn : Nat) (w : Wr) : (postWr s qpn w).ledger = s.ledger := by
  unfold postWr; (try dsimp only); (repeat' split) <;> first | done | rfl | (simp; done) | (simp_all; done)
@[simp] theorem postWr_brake (s : State) (qpn : Nat) (w : Wr) : (postWr s qpn w).brake = s.brake := by
  unfold postWr; (try dsimp only); (repeat' split) <;> first | done | rfl | (simp; done) | (simp_all; done)
@[simp] theorem postWr_therm (s : State) (qpn : Nat) (w : Wr) : (postWr s qpn w).therm = s.therm := by
  unfold postWr; (try dsimp only); (repeat' split) <;> first | done | rfl | (simp; done) | (simp_all; done)
@[simp] theorem postWr_map (s : State) (qpn : Nat) (w : Wr) : (postWr s qpn w).map = s.map := by
  unfold postWr; (try dsimp only); (repeat' split) <;> first | done | rfl | (simp; done) | (simp_all; done)
@[simp] theorem postSend_pending (s : State) (qpn : Nat) (type : Nat) (id : Nat) (body : Bytes) : (postSend s qpn type id body).pending = s.pending := by
  unfold postSend; (try dsimp only); (repeat' split) <;> first | done | rfl | (simp; done) | (simp_all; done)
@[simp] theorem postSend_pins (s : State) (qpn : Nat) (type : Nat) (id : Nat) (body : Bytes) : (postSend s qpn type id body).pins = s.pins := by
  unfold postSend; (try dsimp only); (repeat' split) <;> first | done | rfl | (simp; done) | (simp_all; done)
@[simp] theorem postSend_boot (s : State) (qpn : Nat) (type : Nat) (id : Nat) (body : Bytes) : (postSend s qpn type id body).boot = s.boot := by
  unfold postSend; (try dsimp only); (repeat' split) <;> first | done | rfl | (simp; done) | (simp_all; done)
@[simp] theorem postSend_clk (s : State) (qpn : Nat) (type : Nat) (id : Nat) (body : Bytes) : (postSend s qpn type id body).clk = s.clk := by
  unfold postSend; (try dsimp only); (repeat' split) <;> first | done | rfl | (simp; done) | (simp_all; done)
@[simp] theorem postSend_ledger (s : State) (qpn : Nat) (type : Nat) (id : Nat) (body : Bytes) : (postSend s qpn type id body).ledger = s.ledger := by
  unfold postSend; (try dsimp only); (repeat' split) <;> first | done | rfl | (simp; done) | (simp_all; done)
@[simp] theorem postSend_brake (s : State) (qpn : Nat) (type : Nat) (id : Nat) (body : Bytes) : (postSend s qpn type id body).brake = s.brake := by
  unfold postSend; (try dsimp only); (repeat' split) <;> first | done | rfl | (simp; done) | (simp_all; done)
@[simp] theorem postSend_therm (s : State) (qpn : Nat) (type : Nat) (id : Nat) (body : Bytes) : (postSend s qpn type id body).therm = s.therm := by
  unfold postSend; (try dsimp only); (repeat' split) <;> first | done | rfl | (simp; done) | (simp_all; done)
@[simp] theorem postSend_map (s : State) (qpn : Nat) (type : Nat) (id : Nat) (body : Bytes) : (postSend s qpn type id body).map = s.map := by
  unfold postSend; (try dsimp only); (repeat' split) <;> first | done | rfl | (simp; done) | (simp_all; done)
@[simp] theorem dropStep_pending (s : State) (id : Nat) : (dropStep s id).pending = s.pending := rfl
@[simp] theorem dropStep_pins (s : State) (id : Nat) : (dropStep s id).pins = s.pins := rfl
@[simp] theorem dropStep_boot (s : State) (id : Nat) : (dropStep s id).boot = s.boot := rfl
@[simp] theorem dropStep_clk (s : State) (id : Nat) : (dropStep s id).clk = s.clk := rfl
@[simp] theorem dropStep_ledger (s : State) (id : Nat) : (dropStep s id).ledger = s.ledger := rfl
@[simp] theorem dropStep_brake (s : State) (id : Nat) : (dropStep s id).brake = s.brake := rfl
@[simp] theorem dropStep_therm (s : State) (id : Nat) : (dropStep s id).therm = s.therm := rfl
@[simp] theorem dropStep_map (s : State) (id : Nat) : (dropStep s id).map = s.map := rfl
@[simp] theorem dropDesc_pending (s : State) (id : Nat) : (dropDesc s id).pending = s.pending := rfl
@[simp] theorem dropDesc_pins (s : State) (id : Nat) : (dropDesc s id).pins = s.pins := rfl
@[simp] theorem dropDesc_boot (s : State) (id : Nat) : (dropDesc s id).boot = s.boot := rfl
@[simp] theorem dropDesc_clk (s : State) (id : Nat) : (dropDesc s id).clk = s.clk := rfl
@[simp] theorem dropDesc_ledger (s : State) (id : Nat) : (dropDesc s id).ledger = s.ledger := rfl
@[simp] theorem dropDesc_brake (s : State) (id : Nat) : (dropDesc s id).brake = s.brake := rfl
@[simp] theorem dropDesc_therm (s : State) (id : Nat) : (dropDesc s id).therm = s.therm := rfl
@[simp] theorem dropDesc_map (s : State) (id : Nat) : (dropDesc s id).map = s.map := rfl
@[simp] theorem putStep_pending (s : State) (t : Step) : (putStep s t).pending = s.pending := rfl
@[simp] theorem putStep_pins (s : State) (t : Step) : (putStep s t).pins = s.pins := rfl
@[simp] theorem putStep_boot (s : State) (t : Step) : (putStep s t).boot = s.boot := rfl
@[simp] theorem putStep_clk (s : State) (t : Step) : (putStep s t).clk = s.clk := rfl
@[simp] theorem putStep_ledger (s : State) (t : Step) : (putStep s t).ledger = s.ledger := rfl
@[simp] theorem putStep_brake (s : State) (t : Step) : (putStep s t).brake = s.brake := rfl
@[simp] theorem putStep_therm (s : State) (t : Step) : (putStep s t).therm = s.therm := rfl
@[simp] theorem putStep_map (s : State) (t : Step) : (putStep s t).map = s.map := rfl
@[simp] theorem addStep_pending (s : State) (t : Step) : (addStep s t).pending = s.pending := rfl
@[simp] theorem addStep_pins (s : State) (t : Step) : (addStep s t).pins = s.pins := rfl
@[simp] theorem addStep_boot (s : State) (t : Step) : (addStep s t).boot = s.boot := rfl
@[simp] theorem addStep_clk (s : State) (t : Step) : (addStep s t).clk = s.clk := rfl
@[simp] theorem addStep_ledger (s : State) (t : Step) : (addStep s t).ledger = s.ledger := rfl
@[simp] theorem addStep_brake (s : State) (t : Step) : (addStep s t).brake = s.brake := rfl
@[simp] theorem addStep_therm (s : State) (t : Step) : (addStep s t).therm = s.therm := rfl
@[simp] theorem addStep_map (s : State) (t : Step) : (addStep s t).map = s.map := rfl
@[simp] theorem weftEvent_pending (s : State) (bit : Nat) (handle : Nat) : (weftEvent s bit handle).pending = s.pending := by
  unfold weftEvent; (try dsimp only); (repeat' split) <;> first | done | rfl | (simp; done) | (simp_all; done)
@[simp] theorem weftEvent_pins (s : State) (bit : Nat) (handle : Nat) : (weftEvent s bit handle).pins = s.pins := by
  unfold weftEvent; (try dsimp only); (repeat' split) <;> first | done | rfl | (simp; done) | (simp_all; done)
@[simp] theorem weftEvent_boot (s : State) (bit : Nat) (handle : Nat) : (weftEvent s bit handle).boot = s.boot := by
  unfold weftEvent; (try dsimp only); (repeat' split) <;> first | done | rfl | (simp; done) | (simp_all; done)
@[simp] theorem weftEvent_clk (s : State) (bit : Nat) (handle : Nat) : (weftEvent s bit handle).clk = s.clk := by
  unfold weftEvent; (try dsimp only); (repeat' split) <;> first | done | rfl | (simp; done) | (simp_all; done)
@[simp] theorem weftEvent_ledger (s : State) (bit : Nat) (handle : Nat) : (weftEvent s bit handle).ledger = s.ledger := by
  unfold weftEvent; (try dsimp only); (repeat' split) <;> first | done | rfl | (simp; done) | (simp_all; done)
@[simp] theorem weftEvent_brake (s : State) (bit : Nat) (handle : Nat) : (weftEvent s bit handle).brake = s.brake := by
  unfold weftEvent; (try dsimp only); (repeat' split) <;> first | done | rfl | (simp; done) | (simp_all; done)
@[simp] theorem weftEvent_therm (s : State) (bit : Nat) (handle : Nat) : (weftEvent s bit handle).therm = s.therm := by
  unfold weftEvent; (try dsimp only); (repeat' split) <;> first | done | rfl | (simp; done) | (simp_all; done)
@[simp] theorem weftEvent_map (s : State) (bit : Nat) (handle : Nat) : (weftEvent s bit handle).map = s.map := by
  unfold weftEvent; (try dsimp only); (repeat' split) <;> first | done | rfl | (simp; done) | (simp_all; done)
@[simp] theorem freeSlots_pending (s : State) (p : RimSlot → Bool) : (freeSlots s p).pending = s.pending := rfl
@[simp] theorem freeSlots_pins (s : State) (p : RimSlot → Bool) : (freeSlots s p).pins = s.pins := rfl
@[simp] theorem freeSlots_boot (s : State) (p : RimSlot → Bool) : (freeSlots s p).boot = s.boot := rfl
@[simp] theorem freeSlots_clk (s : State) (p : RimSlot → Bool) : (freeSlots s p).clk = s.clk := rfl
@[simp] theorem freeSlots_ledger (s : State) (p : RimSlot → Bool) : (freeSlots s p).ledger = s.ledger := rfl
@[simp] theorem freeSlots_brake (s : State) (p : RimSlot → Bool) : (freeSlots s p).brake = s.brake := rfl
@[simp] theorem freeSlots_therm (s : State) (p : RimSlot → Bool) : (freeSlots s p).therm = s.therm := rfl
@[simp] theorem freeSlots_map (s : State) (p : RimSlot → Bool) : (freeSlots s p).map = s.map := rfl
@[simp] theorem staleSlots_pending (s : State) (p : RimSlot → Bool) : (staleSlots s p).pending = s.pending := by
  unfold staleSlots; dsimp only; rw [freeSlots_pending]
  apply foldl_pending; intro s x; (try dsimp only); split <;> simp
@[simp] theorem staleSlots_pins (s : State) (p : RimSlot → Bool) : (staleSlots s p).pins = s.pins := by
  unfold staleSlots; dsimp only; rw [freeSlots_pins]
  apply foldl_pins; intro s x; (try dsimp only); split <;> simp
@[simp] theorem staleSlots_boot (s : State) (p : RimSlot → Bool) : (staleSlots s p).boot = s.boot := by
  unfold staleSlots; dsimp only; rw [freeSlots_boot]
  apply foldl_boot; intro s x; (try dsimp only); split <;> simp
@[simp] theorem staleSlots_clk (s : State) (p : RimSlot → Bool) : (staleSlots s p).clk = s.clk := by
  unfold staleSlots; dsimp only; rw [freeSlots_clk]
  apply foldl_clk; intro s x; (try dsimp only); split <;> simp
@[simp] theorem staleSlots_ledger (s : State) (p : RimSlot → Bool) : (staleSlots s p).ledger = s.ledger := by
  unfold staleSlots; dsimp only; rw [freeSlots_ledger]
  apply foldl_ledger; intro s x; (try dsimp only); split <;> simp
@[simp] theorem staleSlots_brake (s : State) (p : RimSlot → Bool) : (staleSlots s p).brake = s.brake := by
  unfold staleSlots; dsimp only; rw [freeSlots_brake]
  apply foldl_brake; intro s x; (try dsimp only); split <;> simp
@[simp] theorem staleSlots_therm (s : State) (p : RimSlot → Bool) : (staleSlots s p).therm = s.therm := by
  unfold staleSlots; dsimp only; rw [freeSlots_therm]
  apply foldl_therm; intro s x; (try dsimp only); split <;> simp
@[simp] theorem staleSlots_map (s : State) (p : RimSlot → Bool) : (staleSlots s p).map = s.map := by
  unfold staleSlots; dsimp only; rw [freeSlots_map]
  apply foldl_map; intro s x; (try dsimp only); split <;> simp
@[simp] theorem setStream_pending (s : State) (n : Nat) (v : Stream) : (setStream s n v).pending = s.pending := rfl
@[simp] theorem setStream_pins (s : State) (n : Nat) (v : Stream) : (setStream s n v).pins = s.pins := rfl
@[simp] theorem setStream_boot (s : State) (n : Nat) (v : Stream) : (setStream s n v).boot = s.boot := rfl
@[simp] theorem setStream_clk (s : State) (n : Nat) (v : Stream) : (setStream s n v).clk = s.clk := rfl
@[simp] theorem setStream_ledger (s : State) (n : Nat) (v : Stream) : (setStream s n v).ledger = s.ledger := rfl
@[simp] theorem setStream_brake (s : State) (n : Nat) (v : Stream) : (setStream s n v).brake = s.brake := rfl
@[simp] theorem setStream_therm (s : State) (n : Nat) (v : Stream) : (setStream s n v).therm = s.therm := rfl
@[simp] theorem setStream_map (s : State) (n : Nat) (v : Stream) : (setStream s n v).map = s.map := rfl
@[simp] theorem finish_pending (s : State) (t : Step) (status flags : Nat) (results : Bytes) : (finish s t status flags results).pending = s.pending := by
  unfold finish; (try dsimp only); (repeat' split) <;> first | done | rfl | (simp; done) | (simp_all; done)
@[simp] theorem finish_pins (s : State) (t : Step) (status flags : Nat) (results : Bytes) : (finish s t status flags results).pins = s.pins := by
  unfold finish; (try dsimp only); (repeat' split) <;> first | done | rfl | (simp; done) | (simp_all; done)
@[simp] theorem finish_boot (s : State) (t : Step) (status flags : Nat) (results : Bytes) : (finish s t status flags results).boot = s.boot := by
  unfold finish; (try dsimp only); (repeat' split) <;> first | done | rfl | (simp; done) | (simp_all; done)
@[simp] theorem finish_clk (s : State) (t : Step) (status flags : Nat) (results : Bytes) : (finish s t status flags results).clk = s.clk := by
  unfold finish; (try dsimp only); (repeat' split) <;> first | done | rfl | (simp; done) | (simp_all; done)
@[simp] theorem finish_ledger (s : State) (t : Step) (status flags : Nat) (results : Bytes) : (finish s t status flags results).ledger = s.ledger := by
  unfold finish; (try dsimp only); (repeat' split) <;> first | done | rfl | (simp; done) | (simp_all; done)
@[simp] theorem finish_brake (s : State) (t : Step) (status flags : Nat) (results : Bytes) : (finish s t status flags results).brake = s.brake := by
  unfold finish; (try dsimp only); (repeat' split) <;> first | done | rfl | (simp; done) | (simp_all; done)
@[simp] theorem finish_therm (s : State) (t : Step) (status flags : Nat) (results : Bytes) : (finish s t status flags results).therm = s.therm := by
  unfold finish; (try dsimp only); (repeat' split) <;> first | done | rfl | (simp; done) | (simp_all; done)
@[simp] theorem finish_map (s : State) (t : Step) (status flags : Nat) (results : Bytes) : (finish s t status flags results).map = s.map := by
  unfold finish; (try dsimp only); (repeat' split) <;> first | done | rfl | (simp; done) | (simp_all; done)
@[simp] theorem refuse_pending (s : State) (d : Desc) (status flags : Nat) (results : Bytes) : (refuse s d status flags results).pending = s.pending := by
  unfold refuse; (try dsimp only); (repeat' split) <;> first | done | rfl | (simp; done) | (simp_all; done)
@[simp] theorem refuse_pins (s : State) (d : Desc) (status flags : Nat) (results : Bytes) : (refuse s d status flags results).pins = s.pins := by
  unfold refuse; (try dsimp only); (repeat' split) <;> first | done | rfl | (simp; done) | (simp_all; done)
@[simp] theorem refuse_boot (s : State) (d : Desc) (status flags : Nat) (results : Bytes) : (refuse s d status flags results).boot = s.boot := by
  unfold refuse; (try dsimp only); (repeat' split) <;> first | done | rfl | (simp; done) | (simp_all; done)
@[simp] theorem refuse_clk (s : State) (d : Desc) (status flags : Nat) (results : Bytes) : (refuse s d status flags results).clk = s.clk := by
  unfold refuse; (try dsimp only); (repeat' split) <;> first | done | rfl | (simp; done) | (simp_all; done)
@[simp] theorem refuse_ledger (s : State) (d : Desc) (status flags : Nat) (results : Bytes) : (refuse s d status flags results).ledger = s.ledger := by
  unfold refuse; (try dsimp only); (repeat' split) <;> first | done | rfl | (simp; done) | (simp_all; done)
@[simp] theorem refuse_brake (s : State) (d : Desc) (status flags : Nat) (results : Bytes) : (refuse s d status flags results).brake = s.brake := by
  unfold refuse; (try dsimp only); (repeat' split) <;> first | done | rfl | (simp; done) | (simp_all; done)
@[simp] theorem refuse_therm (s : State) (d : Desc) (status flags : Nat) (results : Bytes) : (refuse s d status flags results).therm = s.therm := by
  unfold refuse; (try dsimp only); (repeat' split) <;> first | done | rfl | (simp; done) | (simp_all; done)
@[simp] theorem refuse_map (s : State) (d : Desc) (status flags : Nat) (results : Bytes) : (refuse s d status flags results).map = s.map := by
  unfold refuse; (try dsimp only); (repeat' split) <;> first | done | rfl | (simp; done) | (simp_all; done)
@[simp] theorem setPfx_pending (s : State) (n : Nat) (v : PfxRec) : (setPfx s n v).pending = s.pending := rfl
@[simp] theorem setPfx_pins (s : State) (n : Nat) (v : PfxRec) : (setPfx s n v).pins = s.pins := rfl
@[simp] theorem setPfx_boot (s : State) (n : Nat) (v : PfxRec) : (setPfx s n v).boot = s.boot := rfl
@[simp] theorem setPfx_clk (s : State) (n : Nat) (v : PfxRec) : (setPfx s n v).clk = s.clk := rfl
@[simp] theorem setPfx_ledger (s : State) (n : Nat) (v : PfxRec) : (setPfx s n v).ledger = s.ledger := rfl
@[simp] theorem setPfx_brake (s : State) (n : Nat) (v : PfxRec) : (setPfx s n v).brake = s.brake := rfl
@[simp] theorem setPfx_therm (s : State) (n : Nat) (v : PfxRec) : (setPfx s n v).therm = s.therm := rfl
@[simp] theorem setPfx_map (s : State) (n : Nat) (v : PfxRec) : (setPfx s n v).map = s.map := rfl
@[simp] theorem pfxDrop_pending (s : State) (n : Nat) : (pfxDrop s n).pending = s.pending := by
  unfold pfxDrop; (try dsimp only); (repeat' split) <;> first | done | rfl | (simp; done) | (simp_all; done)
@[simp] theorem pfxDrop_pins (s : State) (n : Nat) : (pfxDrop s n).pins = s.pins := by
  unfold pfxDrop; (try dsimp only); (repeat' split) <;> first | done | rfl | (simp; done) | (simp_all; done)
@[simp] theorem pfxDrop_boot (s : State) (n : Nat) : (pfxDrop s n).boot = s.boot := by
  unfold pfxDrop; (try dsimp only); (repeat' split) <;> first | done | rfl | (simp; done) | (simp_all; done)
@[simp] theorem pfxDrop_clk (s : State) (n : Nat) : (pfxDrop s n).clk = s.clk := by
  unfold pfxDrop; (try dsimp only); (repeat' split) <;> first | done | rfl | (simp; done) | (simp_all; done)
@[simp] theorem pfxDrop_ledger (s : State) (n : Nat) : (pfxDrop s n).ledger = s.ledger := by
  unfold pfxDrop; (try dsimp only); (repeat' split) <;> first | done | rfl | (simp; done) | (simp_all; done)
@[simp] theorem pfxDrop_brake (s : State) (n : Nat) : (pfxDrop s n).brake = s.brake := by
  unfold pfxDrop; (try dsimp only); (repeat' split) <;> first | done | rfl | (simp; done) | (simp_all; done)
@[simp] theorem pfxDrop_therm (s : State) (n : Nat) : (pfxDrop s n).therm = s.therm := by
  unfold pfxDrop; (try dsimp only); (repeat' split) <;> first | done | rfl | (simp; done) | (simp_all; done)
@[simp] theorem pfxDrop_map (s : State) (n : Nat) : (pfxDrop s n).map = s.map := by
  unfold pfxDrop; (try dsimp only); (repeat' split) <;> first | done | rfl | (simp; done) | (simp_all; done)
theorem sendMsg_pending {s t : State} {ctx node type id : Nat} {body : Bytes} (h : sendMsg s ctx node type id body = some t) :
    t.pending = s.pending := by
  unfold sendMsg at h; cases hq : pathQp s ctx node with
  | none => simp [hq] at h
  | some n => simp only [hq, Option.map_some, Option.some.injEq] at h; subst h; simp
theorem sendMsg_pins {s t : State} {ctx node type id : Nat} {body : Bytes} (h : sendMsg s ctx node type id body = some t) :
    t.pins = s.pins := by
  unfold sendMsg at h; cases hq : pathQp s ctx node with
  | none => simp [hq] at h
  | some n => simp only [hq, Option.map_some, Option.some.injEq] at h; subst h; simp
theorem sendMsg_boot {s t : State} {ctx node type id : Nat} {body : Bytes} (h : sendMsg s ctx node type id body = some t) :
    t.boot = s.boot := by
  unfold sendMsg at h; cases hq : pathQp s ctx node with
  | none => simp [hq] at h
  | some n => simp only [hq, Option.map_some, Option.some.injEq] at h; subst h; simp
theorem sendMsg_clk {s t : State} {ctx node type id : Nat} {body : Bytes} (h : sendMsg s ctx node type id body = some t) :
    t.clk = s.clk := by
  unfold sendMsg at h; cases hq : pathQp s ctx node with
  | none => simp [hq] at h
  | some n => simp only [hq, Option.map_some, Option.some.injEq] at h; subst h; simp
theorem sendMsg_ledger {s t : State} {ctx node type id : Nat} {body : Bytes} (h : sendMsg s ctx node type id body = some t) :
    t.ledger = s.ledger := by
  unfold sendMsg at h; cases hq : pathQp s ctx node with
  | none => simp [hq] at h
  | some n => simp only [hq, Option.map_some, Option.some.injEq] at h; subst h; simp
theorem sendMsg_brake {s t : State} {ctx node type id : Nat} {body : Bytes} (h : sendMsg s ctx node type id body = some t) :
    t.brake = s.brake := by
  unfold sendMsg at h; cases hq : pathQp s ctx node with
  | none => simp [hq] at h
  | some n => simp only [hq, Option.map_some, Option.some.injEq] at h; subst h; simp
theorem sendMsg_therm {s t : State} {ctx node type id : Nat} {body : Bytes} (h : sendMsg s ctx node type id body = some t) :
    t.therm = s.therm := by
  unfold sendMsg at h; cases hq : pathQp s ctx node with
  | none => simp [hq] at h
  | some n => simp only [hq, Option.map_some, Option.some.injEq] at h; subst h; simp
theorem sendMsg_map {s t : State} {ctx node type id : Nat} {body : Bytes} (h : sendMsg s ctx node type id body = some t) :
    t.map = s.map := by
  unfold sendMsg at h; cases hq : pathQp s ctx node with
  | none => simp [hq] at h
  | some n => simp only [hq, Option.map_some, Option.some.injEq] at h; subst h; simp
@[simp] theorem cancelDeltas_pending (s : State) (t : Step) : (cancelDeltas s t).pending = s.pending := by
  apply foldl_pending; intro s x; (try dsimp only); split
  · rename_i h; simp [sendMsg_pending h]
  · rfl
@[simp] theorem cancelDeltas_pins (s : State) (t : Step) : (cancelDeltas s t).pins = s.pins := by
  apply foldl_pins; intro s x; (try dsimp only); split
  · rename_i h; simp [sendMsg_pins h]
  · rfl
@[simp] theorem cancelDeltas_boot (s : State) (t : Step) : (cancelDeltas s t).boot = s.boot := by
  apply foldl_boot; intro s x; (try dsimp only); split
  · rename_i h; simp [sendMsg_boot h]
  · rfl
@[simp] theorem cancelDeltas_clk (s : State) (t : Step) : (cancelDeltas s t).clk = s.clk := by
  apply foldl_clk; intro s x; (try dsimp only); split
  · rename_i h; simp [sendMsg_clk h]
  · rfl
@[simp] theorem cancelDeltas_ledger (s : State) (t : Step) : (cancelDeltas s t).ledger = s.ledger := by
  apply foldl_ledger; intro s x; (try dsimp only); split
  · rename_i h; simp [sendMsg_ledger h]
  · rfl
@[simp] theorem cancelDeltas_brake (s : State) (t : Step) : (cancelDeltas s t).brake = s.brake := by
  apply foldl_brake; intro s x; (try dsimp only); split
  · rename_i h; simp [sendMsg_brake h]
  · rfl
@[simp] theorem cancelDeltas_therm (s : State) (t : Step) : (cancelDeltas s t).therm = s.therm := by
  apply foldl_therm; intro s x; (try dsimp only); split
  · rename_i h; simp [sendMsg_therm h]
  · rfl
@[simp] theorem cancelDeltas_map (s : State) (t : Step) : (cancelDeltas s t).map = s.map := by
  apply foldl_map; intro s x; (try dsimp only); split
  · rename_i h; simp [sendMsg_map h]
  · rfl
@[simp] theorem writeTables_pending (s : State) (c : Nat) (old new : Stream) : (writeTables s c old new).pending = s.pending := by
  unfold writeTables; dsimp only
  iterate 5 rw [foldl_pending _ (fun s x => by (repeat' split) <;> simp)]
@[simp] theorem writeTables_pins (s : State) (c : Nat) (old new : Stream) : (writeTables s c old new).pins = s.pins := by
  unfold writeTables; dsimp only
  iterate 5 rw [foldl_pins _ (fun s x => by (repeat' split) <;> simp)]
@[simp] theorem writeTables_boot (s : State) (c : Nat) (old new : Stream) : (writeTables s c old new).boot = s.boot := by
  unfold writeTables; dsimp only
  iterate 5 rw [foldl_boot _ (fun s x => by (repeat' split) <;> simp)]
@[simp] theorem writeTables_clk (s : State) (c : Nat) (old new : Stream) : (writeTables s c old new).clk = s.clk := by
  unfold writeTables; dsimp only
  iterate 5 rw [foldl_clk _ (fun s x => by (repeat' split) <;> simp)]
@[simp] theorem writeTables_ledger (s : State) (c : Nat) (old new : Stream) : (writeTables s c old new).ledger = s.ledger := by
  unfold writeTables; dsimp only
  iterate 5 rw [foldl_ledger _ (fun s x => by (repeat' split) <;> simp)]
@[simp] theorem writeTables_brake (s : State) (c : Nat) (old new : Stream) : (writeTables s c old new).brake = s.brake := by
  unfold writeTables; dsimp only
  iterate 5 rw [foldl_brake _ (fun s x => by (repeat' split) <;> simp)]
@[simp] theorem writeTables_therm (s : State) (c : Nat) (old new : Stream) : (writeTables s c old new).therm = s.therm := by
  unfold writeTables; dsimp only
  iterate 5 rw [foldl_therm _ (fun s x => by (repeat' split) <;> simp)]
@[simp] theorem writeTables_map (s : State) (c : Nat) (old new : Stream) : (writeTables s c old new).map = s.map := by
  unfold writeTables; dsimp only
  iterate 5 rw [foldl_map _ (fun s x => by (repeat' split) <;> simp)]
@[simp] theorem putStream_pending (s : State) (n : Nat) (v : Stream) : (putStream s n v).pending = s.pending := by simp [putStream]
@[simp] theorem putStream_pins (s : State) (n : Nat) (v : Stream) : (putStream s n v).pins = s.pins := by simp [putStream]
@[simp] theorem putStream_boot (s : State) (n : Nat) (v : Stream) : (putStream s n v).boot = s.boot := by simp [putStream]
@[simp] theorem putStream_clk (s : State) (n : Nat) (v : Stream) : (putStream s n v).clk = s.clk := by simp [putStream]
@[simp] theorem putStream_ledger (s : State) (n : Nat) (v : Stream) : (putStream s n v).ledger = s.ledger := by simp [putStream]
@[simp] theorem putStream_brake (s : State) (n : Nat) (v : Stream) : (putStream s n v).brake = s.brake := by simp [putStream]
@[simp] theorem putStream_therm (s : State) (n : Nat) (v : Stream) : (putStream s n v).therm = s.therm := by simp [putStream]
@[simp] theorem putStream_map (s : State) (n : Nat) (v : Stream) : (putStream s n v).map = s.map := by simp [putStream]
@[simp] theorem commitMarks_pending (s : State) (n : Nat) (ms : List (Nat × BlockEntry)) : (commitMarks s n ms).pending = s.pending := by
  unfold commitMarks; (try dsimp only); (repeat' split) <;> first | done | rfl | (simp; done) | (simp_all; done)
@[simp] theorem commitMarks_pins (s : State) (n : Nat) (ms : List (Nat × BlockEntry)) : (commitMarks s n ms).pins = s.pins := by
  unfold commitMarks; (try dsimp only); (repeat' split) <;> first | done | rfl | (simp; done) | (simp_all; done)
@[simp] theorem commitMarks_boot (s : State) (n : Nat) (ms : List (Nat × BlockEntry)) : (commitMarks s n ms).boot = s.boot := by
  unfold commitMarks; (try dsimp only); (repeat' split) <;> first | done | rfl | (simp; done) | (simp_all; done)
@[simp] theorem commitMarks_clk (s : State) (n : Nat) (ms : List (Nat × BlockEntry)) : (commitMarks s n ms).clk = s.clk := by
  unfold commitMarks; (try dsimp only); (repeat' split) <;> first | done | rfl | (simp; done) | (simp_all; done)
@[simp] theorem commitMarks_ledger (s : State) (n : Nat) (ms : List (Nat × BlockEntry)) : (commitMarks s n ms).ledger = s.ledger := by
  unfold commitMarks; (try dsimp only); (repeat' split) <;> first | done | rfl | (simp; done) | (simp_all; done)
@[simp] theorem commitMarks_brake (s : State) (n : Nat) (ms : List (Nat × BlockEntry)) : (commitMarks s n ms).brake = s.brake := by
  unfold commitMarks; (try dsimp only); (repeat' split) <;> first | done | rfl | (simp; done) | (simp_all; done)
@[simp] theorem commitMarks_therm (s : State) (n : Nat) (ms : List (Nat × BlockEntry)) : (commitMarks s n ms).therm = s.therm := by
  unfold commitMarks; (try dsimp only); (repeat' split) <;> first | done | rfl | (simp; done) | (simp_all; done)
@[simp] theorem commitMarks_map (s : State) (n : Nat) (ms : List (Nat × BlockEntry)) : (commitMarks s n ms).map = s.map := by
  unfold commitMarks; (try dsimp only); (repeat' split) <;> first | done | rfl | (simp; done) | (simp_all; done)
@[simp] theorem settleOps_pending (s : State) : (settleOps s).pending = s.pending := rfl
@[simp] theorem settleOps_pins (s : State) : (settleOps s).pins = s.pins := rfl
@[simp] theorem settleOps_boot (s : State) : (settleOps s).boot = s.boot := rfl
@[simp] theorem settleOps_clk (s : State) : (settleOps s).clk = s.clk := rfl
@[simp] theorem settleOps_ledger (s : State) : (settleOps s).ledger = s.ledger := rfl
@[simp] theorem settleOps_brake (s : State) : (settleOps s).brake = s.brake := rfl
@[simp] theorem settleOps_therm (s : State) : (settleOps s).therm = s.therm := rfl
@[simp] theorem settleOps_map (s : State) : (settleOps s).map = s.map := rfl
@[simp] theorem dropOps_pending (s : State) (id : Nat) : (dropOps s id).pending = s.pending := rfl
@[simp] theorem dropOps_pins (s : State) (id : Nat) : (dropOps s id).pins = s.pins := rfl
@[simp] theorem dropOps_boot (s : State) (id : Nat) : (dropOps s id).boot = s.boot := rfl
@[simp] theorem dropOps_clk (s : State) (id : Nat) : (dropOps s id).clk = s.clk := rfl
@[simp] theorem dropOps_ledger (s : State) (id : Nat) : (dropOps s id).ledger = s.ledger := rfl
@[simp] theorem dropOps_brake (s : State) (id : Nat) : (dropOps s id).brake = s.brake := rfl
@[simp] theorem dropOps_therm (s : State) (id : Nat) : (dropOps s id).therm = s.therm := rfl
@[simp] theorem dropOps_map (s : State) (id : Nat) : (dropOps s id).map = s.map := rfl
@[simp] theorem cutPublish_pending (s : State) (t : Step) : (cutPublish s t).pending = s.pending := by
  unfold cutPublish; split
  · rfl
  · dsimp only; rw [foldl_pending _ (fun s x => by simp)]; simp
@[simp] theorem cutPublish_pins (s : State) (t : Step) : (cutPublish s t).pins = s.pins := by
  unfold cutPublish; split
  · rfl
  · dsimp only; rw [foldl_pins _ (fun s x => by simp)]; simp
@[simp] theorem cutPublish_boot (s : State) (t : Step) : (cutPublish s t).boot = s.boot := by
  unfold cutPublish; split
  · rfl
  · dsimp only; rw [foldl_boot _ (fun s x => by simp)]; simp
@[simp] theorem cutPublish_clk (s : State) (t : Step) : (cutPublish s t).clk = s.clk := by
  unfold cutPublish; split
  · rfl
  · dsimp only; rw [foldl_clk _ (fun s x => by simp)]; simp
@[simp] theorem cutPublish_ledger (s : State) (t : Step) : (cutPublish s t).ledger = s.ledger := by
  unfold cutPublish; split
  · rfl
  · dsimp only; rw [foldl_ledger _ (fun s x => by simp)]; simp
@[simp] theorem cutPublish_brake (s : State) (t : Step) : (cutPublish s t).brake = s.brake := by
  unfold cutPublish; split
  · rfl
  · dsimp only; rw [foldl_brake _ (fun s x => by simp)]; simp
@[simp] theorem cutPublish_therm (s : State) (t : Step) : (cutPublish s t).therm = s.therm := by
  unfold cutPublish; split
  · rfl
  · dsimp only; rw [foldl_therm _ (fun s x => by simp)]; simp
@[simp] theorem cutPublish_map (s : State) (t : Step) : (cutPublish s t).map = s.map := by
  unfold cutPublish; split
  · rfl
  · dsimp only; rw [foldl_map _ (fun s x => by simp)]; simp
@[simp] theorem cutStep_pending (s : State) (t : Step) : (cutStep s t).pending = s.pending := by
  have h : ∀ (l : List (Nat × Nat)) (u : State), (l.foldl (fun s e => pfxDrop s e.2) u).pending = u.pending := fun l u =>
    foldl_pending _ (fun s x => by simp) l u
  unfold cutStep; dsimp only; split <;> simp [h]
@[simp] theorem cutStep_pins (s : State) (t : Step) : (cutStep s t).pins = s.pins := by
  have h : ∀ (l : List (Nat × Nat)) (u : State), (l.foldl (fun s e => pfxDrop s e.2) u).pins = u.pins := fun l u =>
    foldl_pins _ (fun s x => by simp) l u
  unfold cutStep; dsimp only; split <;> simp [h]
@[simp] theorem cutStep_boot (s : State) (t : Step) : (cutStep s t).boot = s.boot := by
  have h : ∀ (l : List (Nat × Nat)) (u : State), (l.foldl (fun s e => pfxDrop s e.2) u).boot = u.boot := fun l u =>
    foldl_boot _ (fun s x => by simp) l u
  unfold cutStep; dsimp only; split <;> simp [h]
@[simp] theorem cutStep_clk (s : State) (t : Step) : (cutStep s t).clk = s.clk := by
  have h : ∀ (l : List (Nat × Nat)) (u : State), (l.foldl (fun s e => pfxDrop s e.2) u).clk = u.clk := fun l u =>
    foldl_clk _ (fun s x => by simp) l u
  unfold cutStep; dsimp only; split <;> simp [h]
@[simp] theorem cutStep_ledger (s : State) (t : Step) : (cutStep s t).ledger = s.ledger := by
  have h : ∀ (l : List (Nat × Nat)) (u : State), (l.foldl (fun s e => pfxDrop s e.2) u).ledger = u.ledger := fun l u =>
    foldl_ledger _ (fun s x => by simp) l u
  unfold cutStep; dsimp only; split <;> simp [h]
@[simp] theorem cutStep_brake (s : State) (t : Step) : (cutStep s t).brake = s.brake := by
  have h : ∀ (l : List (Nat × Nat)) (u : State), (l.foldl (fun s e => pfxDrop s e.2) u).brake = u.brake := fun l u =>
    foldl_brake _ (fun s x => by simp) l u
  unfold cutStep; dsimp only; split <;> simp [h]
@[simp] theorem cutStep_therm (s : State) (t : Step) : (cutStep s t).therm = s.therm := by
  have h : ∀ (l : List (Nat × Nat)) (u : State), (l.foldl (fun s e => pfxDrop s e.2) u).therm = u.therm := fun l u =>
    foldl_therm _ (fun s x => by simp) l u
  unfold cutStep; dsimp only; split <;> simp [h]
@[simp] theorem cutStep_map (s : State) (t : Step) : (cutStep s t).map = s.map := by
  have h : ∀ (l : List (Nat × Nat)) (u : State), (l.foldl (fun s e => pfxDrop s e.2) u).map = u.map := fun l u =>
    foldl_map _ (fun s x => by simp) l u
  unfold cutStep; dsimp only; split <;> simp [h]
@[simp] theorem dropUnsent_pending (s : State) (id : Nat) : (dropUnsent s id).pending = s.pending := rfl
@[simp] theorem dropUnsent_pins (s : State) (id : Nat) : (dropUnsent s id).pins = s.pins := rfl
@[simp] theorem dropUnsent_boot (s : State) (id : Nat) : (dropUnsent s id).boot = s.boot := rfl
@[simp] theorem dropUnsent_clk (s : State) (id : Nat) : (dropUnsent s id).clk = s.clk := rfl
@[simp] theorem dropUnsent_ledger (s : State) (id : Nat) : (dropUnsent s id).ledger = s.ledger := rfl
@[simp] theorem dropUnsent_brake (s : State) (id : Nat) : (dropUnsent s id).brake = s.brake := rfl
@[simp] theorem dropUnsent_therm (s : State) (id : Nat) : (dropUnsent s id).therm = s.therm := rfl
@[simp] theorem dropUnsent_map (s : State) (id : Nat) : (dropUnsent s id).map = s.map := rfl
@[simp] theorem undrain_pending (s : State) (t : Step) (cause : Nat) : (undrain s t cause).pending = s.pending := by
  unfold undrain; (try dsimp only); (repeat' split) <;> first | done | rfl | (simp; done) | (simp_all; done)
@[simp] theorem undrain_pins (s : State) (t : Step) (cause : Nat) : (undrain s t cause).pins = s.pins := by
  unfold undrain; (try dsimp only); (repeat' split) <;> first | done | rfl | (simp; done) | (simp_all; done)
@[simp] theorem undrain_boot (s : State) (t : Step) (cause : Nat) : (undrain s t cause).boot = s.boot := by
  unfold undrain; (try dsimp only); (repeat' split) <;> first | done | rfl | (simp; done) | (simp_all; done)
@[simp] theorem undrain_clk (s : State) (t : Step) (cause : Nat) : (undrain s t cause).clk = s.clk := by
  unfold undrain; (try dsimp only); (repeat' split) <;> first | done | rfl | (simp; done) | (simp_all; done)
@[simp] theorem undrain_ledger (s : State) (t : Step) (cause : Nat) : (undrain s t cause).ledger = s.ledger := by
  unfold undrain; (try dsimp only); (repeat' split) <;> first | done | rfl | (simp; done) | (simp_all; done)
@[simp] theorem undrain_brake (s : State) (t : Step) (cause : Nat) : (undrain s t cause).brake = s.brake := by
  unfold undrain; (try dsimp only); (repeat' split) <;> first | done | rfl | (simp; done) | (simp_all; done)
@[simp] theorem undrain_therm (s : State) (t : Step) (cause : Nat) : (undrain s t cause).therm = s.therm := by
  unfold undrain; (try dsimp only); (repeat' split) <;> first | done | rfl | (simp; done) | (simp_all; done)
@[simp] theorem undrain_map (s : State) (t : Step) (cause : Nat) : (undrain s t cause).map = s.map := by
  unfold undrain; (try dsimp only); (repeat' split) <;> first | done | rfl | (simp; done) | (simp_all; done)
@[simp] theorem nodeFence_pending (s : State) : (nodeFence s).pending = s.pending := by
  unfold nodeFence; dsimp only; split
  · rfl
  · rw [foldl_pending _ (fun s x => by simp), foldl_pending _ (fun s x => by (repeat' split) <;> simp)]
@[simp] theorem nodeFence_pins (s : State) : (nodeFence s).pins = s.pins := by
  unfold nodeFence; dsimp only; split
  · rfl
  · rw [foldl_pins _ (fun s x => by simp), foldl_pins _ (fun s x => by (repeat' split) <;> simp)]
@[simp] theorem nodeFence_boot (s : State) : (nodeFence s).boot = s.boot := by
  unfold nodeFence; dsimp only; split
  · rfl
  · rw [foldl_boot _ (fun s x => by simp), foldl_boot _ (fun s x => by (repeat' split) <;> simp)]
@[simp] theorem nodeFence_clk (s : State) : (nodeFence s).clk = s.clk := by
  unfold nodeFence; dsimp only; split
  · rfl
  · rw [foldl_clk _ (fun s x => by simp), foldl_clk _ (fun s x => by (repeat' split) <;> simp)]
@[simp] theorem nodeFence_ledger (s : State) : (nodeFence s).ledger = s.ledger := by
  unfold nodeFence; dsimp only; split
  · rfl
  · rw [foldl_ledger _ (fun s x => by simp), foldl_ledger _ (fun s x => by (repeat' split) <;> simp)]
@[simp] theorem nodeFence_brake (s : State) : (nodeFence s).brake = s.brake := by
  unfold nodeFence; dsimp only; split
  · rfl
  · rw [foldl_brake _ (fun s x => by simp), foldl_brake _ (fun s x => by (repeat' split) <;> simp)]
@[simp] theorem nodeFence_therm (s : State) : (nodeFence s).therm = s.therm := by
  unfold nodeFence; dsimp only; split
  · rfl
  · rw [foldl_therm _ (fun s x => by simp), foldl_therm _ (fun s x => by (repeat' split) <;> simp)]
@[simp] theorem nodeFence_map (s : State) : (nodeFence s).map = s.map := by
  unfold nodeFence; dsimp only; split
  · rfl
  · rw [foldl_map _ (fun s x => by simp), foldl_map _ (fun s x => by (repeat' split) <;> simp)]
@[simp] theorem nodeFault_pending (s : State) (src : Nat) : (nodeFault s src).pending = s.pending := by
  unfold nodeFault; (try dsimp only); (repeat' split) <;> first | done | rfl | (simp; done) | (simp_all; done)
@[simp] theorem nodeFault_pins (s : State) (src : Nat) : (nodeFault s src).pins = s.pins := by
  unfold nodeFault; (try dsimp only); (repeat' split) <;> first | done | rfl | (simp; done) | (simp_all; done)
@[simp] theorem nodeFault_boot (s : State) (src : Nat) : (nodeFault s src).boot = s.boot := by
  unfold nodeFault; (try dsimp only); (repeat' split) <;> first | done | rfl | (simp; done) | (simp_all; done)
@[simp] theorem nodeFault_clk (s : State) (src : Nat) : (nodeFault s src).clk = s.clk := by
  unfold nodeFault; (try dsimp only); (repeat' split) <;> first | done | rfl | (simp; done) | (simp_all; done)
@[simp] theorem nodeFault_ledger (s : State) (src : Nat) : (nodeFault s src).ledger = s.ledger := by
  unfold nodeFault; (try dsimp only); (repeat' split) <;> first | done | rfl | (simp; done) | (simp_all; done)
@[simp] theorem nodeFault_brake (s : State) (src : Nat) : (nodeFault s src).brake = s.brake := by
  unfold nodeFault; (try dsimp only); (repeat' split) <;> first | done | rfl | (simp; done) | (simp_all; done)
@[simp] theorem nodeFault_therm (s : State) (src : Nat) : (nodeFault s src).therm = s.therm := by
  unfold nodeFault; (try dsimp only); (repeat' split) <;> first | done | rfl | (simp; done) | (simp_all; done)
@[simp] theorem nodeFault_map (s : State) (src : Nat) : (nodeFault s src).map = s.map := by
  unfold nodeFault; (try dsimp only); (repeat' split) <;> first | done | rfl | (simp; done) | (simp_all; done)
@[simp] theorem frameFault_pending (s : State) (pfn : Nat) : (frameFault s pfn).2.pending = s.pending := by
  unfold frameFault; (try dsimp only); (repeat' split) <;> first | done | rfl | (simp; done) | (simp_all; done)
@[simp] theorem frameFault_pins (s : State) (pfn : Nat) : (frameFault s pfn).2.pins = s.pins := by
  unfold frameFault; (try dsimp only); (repeat' split) <;> first | done | rfl | (simp; done) | (simp_all; done)
@[simp] theorem frameFault_boot (s : State) (pfn : Nat) : (frameFault s pfn).2.boot = s.boot := by
  unfold frameFault; (try dsimp only); (repeat' split) <;> first | done | rfl | (simp; done) | (simp_all; done)
@[simp] theorem frameFault_clk (s : State) (pfn : Nat) : (frameFault s pfn).2.clk = s.clk := by
  unfold frameFault; (try dsimp only); (repeat' split) <;> first | done | rfl | (simp; done) | (simp_all; done)
@[simp] theorem frameFault_ledger (s : State) (pfn : Nat) : (frameFault s pfn).2.ledger = s.ledger := by
  unfold frameFault; (try dsimp only); (repeat' split) <;> first | done | rfl | (simp; done) | (simp_all; done)
@[simp] theorem frameFault_brake (s : State) (pfn : Nat) : (frameFault s pfn).2.brake = s.brake := by
  unfold frameFault; (try dsimp only); (repeat' split) <;> first | done | rfl | (simp; done) | (simp_all; done)
@[simp] theorem frameFault_therm (s : State) (pfn : Nat) : (frameFault s pfn).2.therm = s.therm := by
  unfold frameFault; (try dsimp only); (repeat' split) <;> first | done | rfl | (simp; done) | (simp_all; done)
@[simp] theorem frameFault_map (s : State) (pfn : Nat) : (frameFault s pfn).2.map = s.map := by
  unfold frameFault; (try dsimp only); (repeat' split) <;> first | done | rfl | (simp; done) | (simp_all; done)
@[simp] theorem endFault_pending (s : State) (t : Step) : (endFault s t).pending = s.pending := by
  unfold endFault; (try dsimp only); (repeat' split) <;> first | done | rfl | (simp; done) | (simp_all; done)
@[simp] theorem endFault_pins (s : State) (t : Step) : (endFault s t).pins = s.pins := by
  unfold endFault; (try dsimp only); (repeat' split) <;> first | done | rfl | (simp; done) | (simp_all; done)
@[simp] theorem endFault_boot (s : State) (t : Step) : (endFault s t).boot = s.boot := by
  unfold endFault; (try dsimp only); (repeat' split) <;> first | done | rfl | (simp; done) | (simp_all; done)
@[simp] theorem endFault_clk (s : State) (t : Step) : (endFault s t).clk = s.clk := by
  unfold endFault; (try dsimp only); (repeat' split) <;> first | done | rfl | (simp; done) | (simp_all; done)
@[simp] theorem endFault_ledger (s : State) (t : Step) : (endFault s t).ledger = s.ledger := by
  unfold endFault; (try dsimp only); (repeat' split) <;> first | done | rfl | (simp; done) | (simp_all; done)
@[simp] theorem endFault_brake (s : State) (t : Step) : (endFault s t).brake = s.brake := by
  unfold endFault; (try dsimp only); (repeat' split) <;> first | done | rfl | (simp; done) | (simp_all; done)
@[simp] theorem endFault_therm (s : State) (t : Step) : (endFault s t).therm = s.therm := by
  unfold endFault; (try dsimp only); (repeat' split) <;> first | done | rfl | (simp; done) | (simp_all; done)
@[simp] theorem endFault_map (s : State) (t : Step) : (endFault s t).map = s.map := by
  unfold endFault; (try dsimp only); (repeat' split) <;> first | done | rfl | (simp; done) | (simp_all; done)
@[simp] theorem stepFault_pending (s : State) (t : Step) (src : Nat) (status : Nat) (detail : Nat) (peer : Nat) : (stepFault s t src status detail peer).pending = s.pending := by
  unfold stepFault; (try dsimp only); (repeat' split) <;> first | done | rfl | (simp; done) | (simp_all; done)
@[simp] theorem stepFault_pins (s : State) (t : Step) (src : Nat) (status : Nat) (detail : Nat) (peer : Nat) : (stepFault s t src status detail peer).pins = s.pins := by
  unfold stepFault; (try dsimp only); (repeat' split) <;> first | done | rfl | (simp; done) | (simp_all; done)
@[simp] theorem stepFault_boot (s : State) (t : Step) (src : Nat) (status : Nat) (detail : Nat) (peer : Nat) : (stepFault s t src status detail peer).boot = s.boot := by
  unfold stepFault; (try dsimp only); (repeat' split) <;> first | done | rfl | (simp; done) | (simp_all; done)
@[simp] theorem stepFault_clk (s : State) (t : Step) (src : Nat) (status : Nat) (detail : Nat) (peer : Nat) : (stepFault s t src status detail peer).clk = s.clk := by
  unfold stepFault; (try dsimp only); (repeat' split) <;> first | done | rfl | (simp; done) | (simp_all; done)
@[simp] theorem stepFault_ledger (s : State) (t : Step) (src : Nat) (status : Nat) (detail : Nat) (peer : Nat) : (stepFault s t src status detail peer).ledger = s.ledger := by
  unfold stepFault; (try dsimp only); (repeat' split) <;> first | done | rfl | (simp; done) | (simp_all; done)
@[simp] theorem stepFault_brake (s : State) (t : Step) (src : Nat) (status : Nat) (detail : Nat) (peer : Nat) : (stepFault s t src status detail peer).brake = s.brake := by
  unfold stepFault; (try dsimp only); (repeat' split) <;> first | done | rfl | (simp; done) | (simp_all; done)
@[simp] theorem stepFault_therm (s : State) (t : Step) (src : Nat) (status : Nat) (detail : Nat) (peer : Nat) : (stepFault s t src status detail peer).therm = s.therm := by
  unfold stepFault; (try dsimp only); (repeat' split) <;> first | done | rfl | (simp; done) | (simp_all; done)
@[simp] theorem stepFault_map (s : State) (t : Step) (src : Nat) (status : Nat) (detail : Nat) (peer : Nat) : (stepFault s t src status detail peer).map = s.map := by
  unfold stepFault; (try dsimp only); (repeat' split) <;> first | done | rfl | (simp; done) | (simp_all; done)
@[simp] theorem unitStepFault_pending (s : State) (t : Step) (kind : Nat) (ix : Nat) : (unitStepFault s t kind ix).pending = s.pending := by
  unfold unitStepFault; (try dsimp only); (repeat' split) <;> first | done | rfl | (simp; done) | (simp_all; done)
@[simp] theorem unitStepFault_pins (s : State) (t : Step) (kind : Nat) (ix : Nat) : (unitStepFault s t kind ix).pins = s.pins := by
  unfold unitStepFault; (try dsimp only); (repeat' split) <;> first | done | rfl | (simp; done) | (simp_all; done)
@[simp] theorem unitStepFault_boot (s : State) (t : Step) (kind : Nat) (ix : Nat) : (unitStepFault s t kind ix).boot = s.boot := by
  unfold unitStepFault; (try dsimp only); (repeat' split) <;> first | done | rfl | (simp; done) | (simp_all; done)
@[simp] theorem unitStepFault_clk (s : State) (t : Step) (kind : Nat) (ix : Nat) : (unitStepFault s t kind ix).clk = s.clk := by
  unfold unitStepFault; (try dsimp only); (repeat' split) <;> first | done | rfl | (simp; done) | (simp_all; done)
@[simp] theorem unitStepFault_ledger (s : State) (t : Step) (kind : Nat) (ix : Nat) : (unitStepFault s t kind ix).ledger = s.ledger := by
  unfold unitStepFault; (try dsimp only); (repeat' split) <;> first | done | rfl | (simp; done) | (simp_all; done)
@[simp] theorem unitStepFault_brake (s : State) (t : Step) (kind : Nat) (ix : Nat) : (unitStepFault s t kind ix).brake = s.brake := by
  unfold unitStepFault; (try dsimp only); (repeat' split) <;> first | done | rfl | (simp; done) | (simp_all; done)
@[simp] theorem unitStepFault_therm (s : State) (t : Step) (kind : Nat) (ix : Nat) : (unitStepFault s t kind ix).therm = s.therm := by
  unfold unitStepFault; (try dsimp only); (repeat' split) <;> first | done | rfl | (simp; done) | (simp_all; done)
@[simp] theorem unitStepFault_map (s : State) (t : Step) (kind : Nat) (ix : Nat) : (unitStepFault s t kind ix).map = s.map := by
  unfold unitStepFault; (try dsimp only); (repeat' split) <;> first | done | rfl | (simp; done) | (simp_all; done)
@[simp] theorem markFenced_pending (s : State) (kind : Nat) (ix : Nat) : (markFenced s kind ix).pending = s.pending := by
  unfold markFenced; (try dsimp only); (repeat' split) <;> first | done | rfl | (simp; done) | (simp_all; done)
@[simp] theorem markFenced_pins (s : State) (kind : Nat) (ix : Nat) : (markFenced s kind ix).pins = s.pins := by
  unfold markFenced; (try dsimp only); (repeat' split) <;> first | done | rfl | (simp; done) | (simp_all; done)
@[simp] theorem markFenced_boot (s : State) (kind : Nat) (ix : Nat) : (markFenced s kind ix).boot = s.boot := by
  unfold markFenced; (try dsimp only); (repeat' split) <;> first | done | rfl | (simp; done) | (simp_all; done)
@[simp] theorem markFenced_clk (s : State) (kind : Nat) (ix : Nat) : (markFenced s kind ix).clk = s.clk := by
  unfold markFenced; (try dsimp only); (repeat' split) <;> first | done | rfl | (simp; done) | (simp_all; done)
@[simp] theorem markFenced_ledger (s : State) (kind : Nat) (ix : Nat) : (markFenced s kind ix).ledger = s.ledger := by
  unfold markFenced; (try dsimp only); (repeat' split) <;> first | done | rfl | (simp; done) | (simp_all; done)
@[simp] theorem markFenced_brake (s : State) (kind : Nat) (ix : Nat) : (markFenced s kind ix).brake = s.brake := by
  unfold markFenced; (try dsimp only); (repeat' split) <;> first | done | rfl | (simp; done) | (simp_all; done)
@[simp] theorem markFenced_therm (s : State) (kind : Nat) (ix : Nat) : (markFenced s kind ix).therm = s.therm := by
  unfold markFenced; (try dsimp only); (repeat' split) <;> first | done | rfl | (simp; done) | (simp_all; done)
@[simp] theorem markFenced_map (s : State) (kind : Nat) (ix : Nat) : (markFenced s kind ix).map = s.map := by
  unfold markFenced; (try dsimp only); (repeat' split) <;> first | done | rfl | (simp; done) | (simp_all; done)
@[simp] theorem fenceUnitNow_pending (s : State) (kind : Nat) (ix : Nat) : (fenceUnitNow s kind ix).pending = s.pending := by
  unfold fenceUnitNow; dsimp only; split
  · rfl
  · rw [foldl_pending _ (fun s x => by simp)]; simp
@[simp] theorem fenceUnitNow_pins (s : State) (kind : Nat) (ix : Nat) : (fenceUnitNow s kind ix).pins = s.pins := by
  unfold fenceUnitNow; dsimp only; split
  · rfl
  · rw [foldl_pins _ (fun s x => by simp)]; simp
@[simp] theorem fenceUnitNow_boot (s : State) (kind : Nat) (ix : Nat) : (fenceUnitNow s kind ix).boot = s.boot := by
  unfold fenceUnitNow; dsimp only; split
  · rfl
  · rw [foldl_boot _ (fun s x => by simp)]; simp
@[simp] theorem fenceUnitNow_clk (s : State) (kind : Nat) (ix : Nat) : (fenceUnitNow s kind ix).clk = s.clk := by
  unfold fenceUnitNow; dsimp only; split
  · rfl
  · rw [foldl_clk _ (fun s x => by simp)]; simp
@[simp] theorem fenceUnitNow_ledger (s : State) (kind : Nat) (ix : Nat) : (fenceUnitNow s kind ix).ledger = s.ledger := by
  unfold fenceUnitNow; dsimp only; split
  · rfl
  · rw [foldl_ledger _ (fun s x => by simp)]; simp
@[simp] theorem fenceUnitNow_brake (s : State) (kind : Nat) (ix : Nat) : (fenceUnitNow s kind ix).brake = s.brake := by
  unfold fenceUnitNow; dsimp only; split
  · rfl
  · rw [foldl_brake _ (fun s x => by simp)]; simp
@[simp] theorem fenceUnitNow_therm (s : State) (kind : Nat) (ix : Nat) : (fenceUnitNow s kind ix).therm = s.therm := by
  unfold fenceUnitNow; dsimp only; split
  · rfl
  · rw [foldl_therm _ (fun s x => by simp)]; simp
@[simp] theorem fenceUnitNow_map (s : State) (kind : Nat) (ix : Nat) : (fenceUnitNow s kind ix).map = s.map := by
  unfold fenceUnitNow; dsimp only; split
  · rfl
  · rw [foldl_map _ (fun s x => by simp)]; simp
@[simp] theorem unitFault_pending (s : State) (src kind ix : Nat) (r : FaultRec) : (unitFault s src kind ix r).pending = s.pending := by
  unfold unitFault; (try dsimp only); (repeat' split) <;> first | done | rfl | (simp; done) | (simp_all; done)
@[simp] theorem unitFault_pins (s : State) (src kind ix : Nat) (r : FaultRec) : (unitFault s src kind ix r).pins = s.pins := by
  unfold unitFault; (try dsimp only); (repeat' split) <;> first | done | rfl | (simp; done) | (simp_all; done)
@[simp] theorem unitFault_boot (s : State) (src kind ix : Nat) (r : FaultRec) : (unitFault s src kind ix r).boot = s.boot := by
  unfold unitFault; (try dsimp only); (repeat' split) <;> first | done | rfl | (simp; done) | (simp_all; done)
@[simp] theorem unitFault_clk (s : State) (src kind ix : Nat) (r : FaultRec) : (unitFault s src kind ix r).clk = s.clk := by
  unfold unitFault; (try dsimp only); (repeat' split) <;> first | done | rfl | (simp; done) | (simp_all; done)
@[simp] theorem unitFault_ledger (s : State) (src kind ix : Nat) (r : FaultRec) : (unitFault s src kind ix r).ledger = s.ledger := by
  unfold unitFault; (try dsimp only); (repeat' split) <;> first | done | rfl | (simp; done) | (simp_all; done)
@[simp] theorem unitFault_brake (s : State) (src kind ix : Nat) (r : FaultRec) : (unitFault s src kind ix r).brake = s.brake := by
  unfold unitFault; (try dsimp only); (repeat' split) <;> first | done | rfl | (simp; done) | (simp_all; done)
@[simp] theorem unitFault_therm (s : State) (src kind ix : Nat) (r : FaultRec) : (unitFault s src kind ix r).therm = s.therm := by
  unfold unitFault; (try dsimp only); (repeat' split) <;> first | done | rfl | (simp; done) | (simp_all; done)
@[simp] theorem unitFault_map (s : State) (src kind ix : Nat) (r : FaultRec) : (unitFault s src kind ix r).map = s.map := by
  unfold unitFault; (try dsimp only); (repeat' split) <;> first | done | rfl | (simp; done) | (simp_all; done)
@[simp] theorem drawKey_pending (s : State) (slot : Nat) : (drawKey s slot).pending = s.pending := by
  unfold drawKey; (try dsimp only); (repeat' split) <;> first | done | rfl | (simp; done) | (simp_all; done)
@[simp] theorem drawKey_pins (s : State) (slot : Nat) : (drawKey s slot).pins = s.pins := by
  unfold drawKey; (try dsimp only); (repeat' split) <;> first | done | rfl | (simp; done) | (simp_all; done)
@[simp] theorem drawKey_boot (s : State) (slot : Nat) : (drawKey s slot).boot = s.boot := by
  unfold drawKey; (try dsimp only); (repeat' split) <;> first | done | rfl | (simp; done) | (simp_all; done)
@[simp] theorem drawKey_clk (s : State) (slot : Nat) : (drawKey s slot).clk = s.clk := by
  unfold drawKey; (try dsimp only); (repeat' split) <;> first | done | rfl | (simp; done) | (simp_all; done)
@[simp] theorem drawKey_ledger (s : State) (slot : Nat) : (drawKey s slot).ledger = s.ledger := by
  unfold drawKey; (try dsimp only); (repeat' split) <;> first | done | rfl | (simp; done) | (simp_all; done)
@[simp] theorem drawKey_brake (s : State) (slot : Nat) : (drawKey s slot).brake = s.brake := by
  unfold drawKey; (try dsimp only); (repeat' split) <;> first | done | rfl | (simp; done) | (simp_all; done)
@[simp] theorem drawKey_therm (s : State) (slot : Nat) : (drawKey s slot).therm = s.therm := by
  unfold drawKey; (try dsimp only); (repeat' split) <;> first | done | rfl | (simp; done) | (simp_all; done)
@[simp] theorem drawKey_map (s : State) (slot : Nat) : (drawKey s slot).map = s.map := by
  unfold drawKey; (try dsimp only); (repeat' split) <;> first | done | rfl | (simp; done) | (simp_all; done)
@[simp] theorem rngHealthFail_pending (s : State) : (rngHealthFail s).pending = s.pending := by
  unfold rngHealthFail; (try dsimp only); (repeat' split) <;> first | done | rfl | (simp; done) | (simp_all; done)
@[simp] theorem rngHealthFail_pins (s : State) : (rngHealthFail s).pins = s.pins := by
  unfold rngHealthFail; (try dsimp only); (repeat' split) <;> first | done | rfl | (simp; done) | (simp_all; done)
@[simp] theorem rngHealthFail_boot (s : State) : (rngHealthFail s).boot = s.boot := by
  unfold rngHealthFail; (try dsimp only); (repeat' split) <;> first | done | rfl | (simp; done) | (simp_all; done)
@[simp] theorem rngHealthFail_clk (s : State) : (rngHealthFail s).clk = s.clk := by
  unfold rngHealthFail; (try dsimp only); (repeat' split) <;> first | done | rfl | (simp; done) | (simp_all; done)
@[simp] theorem rngHealthFail_ledger (s : State) : (rngHealthFail s).ledger = s.ledger := by
  unfold rngHealthFail; (try dsimp only); (repeat' split) <;> first | done | rfl | (simp; done) | (simp_all; done)
@[simp] theorem rngHealthFail_brake (s : State) : (rngHealthFail s).brake = s.brake := by
  unfold rngHealthFail; (try dsimp only); (repeat' split) <;> first | done | rfl | (simp; done) | (simp_all; done)
@[simp] theorem rngHealthFail_therm (s : State) : (rngHealthFail s).therm = s.therm := by
  unfold rngHealthFail; (try dsimp only); (repeat' split) <;> first | done | rfl | (simp; done) | (simp_all; done)
@[simp] theorem rngHealthFail_map (s : State) : (rngHealthFail s).map = s.map := by
  unfold rngHealthFail; (try dsimp only); (repeat' split) <;> first | done | rfl | (simp; done) | (simp_all; done)

end Sys2Proof.Machine
end

