-- ==== Sys2Proof/Laws/Hostq.lean ====
section
/-! SUPPORT. The host rings: what events and messages leave of them, and what the node has sent only grows. -/
namespace Sys2Proof.Machine
open Sys2Proof

@[simp] theorem vecPut_hostq_rings (s : State) (pv : Nat) (v : Vec) : (vecPut s pv v).hostq.rings = s.hostq.rings := rfl
@[simp] theorem vecPut_hostq_fetched (s : State) (pv : Nat) (v : Vec) : (vecPut s pv v).hostq.fetched = s.hostq.fetched := rfl
@[simp] theorem vecPut_hostq_nextId (s : State) (pv : Nat) (v : Vec) : (vecPut s pv v).hostq.nextId = s.hostq.nextId := rfl
@[simp] theorem vecPut_hostq_interval (s : State) (pv : Nat) (v : Vec) : (vecPut s pv v).hostq.interval = s.hostq.interval := rfl
@[simp] theorem vecPut_hostq_lastFirst (s : State) (pv : Nat) (v : Vec) : (vecPut s pv v).hostq.lastFirst = s.hostq.lastFirst := rfl
@[simp] theorem vecPut_hostq_fnStopped (s : State) (pv : Nat) (v : Vec) : (vecPut s pv v).hostq.fnStopped = s.hostq.fnStopped := rfl
@[simp] theorem vecPut_hostq_pf0D3 (s : State) (pv : Nat) (v : Vec) : (vecPut s pv v).hostq.pf0D3 = s.hostq.pf0D3 := rfl
@[simp] theorem vecPut_hostq_held (s : State) (pv : Nat) (v : Vec) : (vecPut s pv v).hostq.held = s.hostq.held := rfl
@[simp] theorem vecPut_hostq_faulted (s : State) (pv : Nat) (v : Vec) : (vecPut s pv v).hostq.faulted = s.hostq.faulted := rfl

@[simp] theorem emitAs_hostq_rings (s : State) (fn : Nat) (o : Out) : (emitAs s fn o).hostq.rings = s.hostq.rings := by
  unfold emitAs; (try dsimp only); (repeat' split) <;> simp
@[simp] theorem emitAs_hostq_fetched (s : State) (fn : Nat) (o : Out) : (emitAs s fn o).hostq.fetched = s.hostq.fetched := by
  unfold emitAs; (try dsimp only); (repeat' split) <;> simp
@[simp] theorem emitAs_hostq_nextId (s : State) (fn : Nat) (o : Out) : (emitAs s fn o).hostq.nextId = s.hostq.nextId := by
  unfold emitAs; (try dsimp only); (repeat' split) <;> simp
@[simp] theorem emitAs_hostq_interval (s : State) (fn : Nat) (o : Out) : (emitAs s fn o).hostq.interval = s.hostq.interval := by
  unfold emitAs; (try dsimp only); (repeat' split) <;> simp
@[simp] theorem emitAs_hostq_lastFirst (s : State) (fn : Nat) (o : Out) : (emitAs s fn o).hostq.lastFirst = s.hostq.lastFirst := by
  unfold emitAs; (try dsimp only); (repeat' split) <;> simp
@[simp] theorem emitAs_hostq_fnStopped (s : State) (fn : Nat) (o : Out) : (emitAs s fn o).hostq.fnStopped = s.hostq.fnStopped := by
  unfold emitAs; (try dsimp only); (repeat' split) <;> simp
@[simp] theorem emitAs_hostq_pf0D3 (s : State) (fn : Nat) (o : Out) : (emitAs s fn o).hostq.pf0D3 = s.hostq.pf0D3 := by
  unfold emitAs; (try dsimp only); (repeat' split) <;> simp
@[simp] theorem emitAs_hostq_held (s : State) (fn : Nat) (o : Out) : (emitAs s fn o).hostq.held = s.hostq.held := by
  unfold emitAs; (try dsimp only); (repeat' split) <;> simp
@[simp] theorem emitAs_hostq_faulted (s : State) (fn : Nat) (o : Out) : (emitAs s fn o).hostq.faulted = s.hostq.faulted := by
  unfold emitAs; (try dsimp only); (repeat' split) <;> simp

@[simp] theorem fireVec_hostq_rings (s : State) (fn pv : Nat) : (fireVec s fn pv).hostq.rings = s.hostq.rings := by
  unfold fireVec; (try dsimp only); (repeat' split) <;> simp
@[simp] theorem fireVec_hostq_fetched (s : State) (fn pv : Nat) : (fireVec s fn pv).hostq.fetched = s.hostq.fetched := by
  unfold fireVec; (try dsimp only); (repeat' split) <;> simp
@[simp] theorem fireVec_hostq_nextId (s : State) (fn pv : Nat) : (fireVec s fn pv).hostq.nextId = s.hostq.nextId := by
  unfold fireVec; (try dsimp only); (repeat' split) <;> simp
@[simp] theorem fireVec_hostq_interval (s : State) (fn pv : Nat) : (fireVec s fn pv).hostq.interval = s.hostq.interval := by
  unfold fireVec; (try dsimp only); (repeat' split) <;> simp
@[simp] theorem fireVec_hostq_lastFirst (s : State) (fn pv : Nat) : (fireVec s fn pv).hostq.lastFirst = s.hostq.lastFirst := by
  unfold fireVec; (try dsimp only); (repeat' split) <;> simp
@[simp] theorem fireVec_hostq_fnStopped (s : State) (fn pv : Nat) : (fireVec s fn pv).hostq.fnStopped = s.hostq.fnStopped := by
  unfold fireVec; (try dsimp only); (repeat' split) <;> simp
@[simp] theorem fireVec_hostq_pf0D3 (s : State) (fn pv : Nat) : (fireVec s fn pv).hostq.pf0D3 = s.hostq.pf0D3 := by
  unfold fireVec; (try dsimp only); (repeat' split) <;> simp
@[simp] theorem fireVec_hostq_held (s : State) (fn pv : Nat) : (fireVec s fn pv).hostq.held = s.hostq.held := by
  unfold fireVec; (try dsimp only); (repeat' split) <;> simp
@[simp] theorem fireVec_hostq_faulted (s : State) (fn pv : Nat) : (fireVec s fn pv).hostq.faulted = s.hostq.faulted := by
  unfold fireVec; (try dsimp only); (repeat' split) <;> simp

@[simp] theorem armVec_hostq_rings (s : State) (fn pv : Nat) (now : Bool) : (armVec s fn pv now).hostq.rings = s.hostq.rings := by
  unfold armVec; (try dsimp only); (repeat' split) <;> simp
@[simp] theorem armVec_hostq_fetched (s : State) (fn pv : Nat) (now : Bool) : (armVec s fn pv now).hostq.fetched = s.hostq.fetched := by
  unfold armVec; (try dsimp only); (repeat' split) <;> simp
@[simp] theorem armVec_hostq_nextId (s : State) (fn pv : Nat) (now : Bool) : (armVec s fn pv now).hostq.nextId = s.hostq.nextId := by
  unfold armVec; (try dsimp only); (repeat' split) <;> simp
@[simp] theorem armVec_hostq_interval (s : State) (fn pv : Nat) (now : Bool) : (armVec s fn pv now).hostq.interval = s.hostq.interval := by
  unfold armVec; (try dsimp only); (repeat' split) <;> simp
@[simp] theorem armVec_hostq_lastFirst (s : State) (fn pv : Nat) (now : Bool) : (armVec s fn pv now).hostq.lastFirst = s.hostq.lastFirst := by
  unfold armVec; (try dsimp only); (repeat' split) <;> simp
@[simp] theorem armVec_hostq_fnStopped (s : State) (fn pv : Nat) (now : Bool) : (armVec s fn pv now).hostq.fnStopped = s.hostq.fnStopped := by
  unfold armVec; (try dsimp only); (repeat' split) <;> simp
@[simp] theorem armVec_hostq_pf0D3 (s : State) (fn pv : Nat) (now : Bool) : (armVec s fn pv now).hostq.pf0D3 = s.hostq.pf0D3 := by
  unfold armVec; (try dsimp only); (repeat' split) <;> simp
@[simp] theorem armVec_hostq_held (s : State) (fn pv : Nat) (now : Bool) : (armVec s fn pv now).hostq.held = s.hostq.held := by
  unfold armVec; (try dsimp only); (repeat' split) <;> simp
@[simp] theorem armVec_hostq_faulted (s : State) (fn pv : Nat) (now : Bool) : (armVec s fn pv now).hostq.faulted = s.hostq.faulted := by
  unfold armVec; (try dsimp only); (repeat' split) <;> simp

@[simp] theorem raise_hostq_rings (s : State) (off flags : Nat) (puts : List (Nat × Nat × Nat)) : (raise s off flags puts).hostq.rings = s.hostq.rings := by
  unfold raise; (try dsimp only); (repeat' split) <;> simp
@[simp] theorem raise_hostq_fetched (s : State) (off flags : Nat) (puts : List (Nat × Nat × Nat)) : (raise s off flags puts).hostq.fetched = s.hostq.fetched := by
  unfold raise; (try dsimp only); (repeat' split) <;> simp
@[simp] theorem raise_hostq_nextId (s : State) (off flags : Nat) (puts : List (Nat × Nat × Nat)) : (raise s off flags puts).hostq.nextId = s.hostq.nextId := by
  unfold raise; (try dsimp only); (repeat' split) <;> simp
@[simp] theorem raise_hostq_interval (s : State) (off flags : Nat) (puts : List (Nat × Nat × Nat)) : (raise s off flags puts).hostq.interval = s.hostq.interval := by
  unfold raise; (try dsimp only); (repeat' split) <;> simp
@[simp] theorem raise_hostq_lastFirst (s : State) (off flags : Nat) (puts : List (Nat × Nat × Nat)) : (raise s off flags puts).hostq.lastFirst = s.hostq.lastFirst := by
  unfold raise; (try dsimp only); (repeat' split) <;> simp
@[simp] theorem raise_hostq_fnStopped (s : State) (off flags : Nat) (puts : List (Nat × Nat × Nat)) : (raise s off flags puts).hostq.fnStopped = s.hostq.fnStopped := by
  unfold raise; (try dsimp only); (repeat' split) <;> simp
@[simp] theorem raise_hostq_pf0D3 (s : State) (off flags : Nat) (puts : List (Nat × Nat × Nat)) : (raise s off flags puts).hostq.pf0D3 = s.hostq.pf0D3 := by
  unfold raise; (try dsimp only); (repeat' split) <;> simp
@[simp] theorem raise_hostq_held (s : State) (off flags : Nat) (puts : List (Nat × Nat × Nat)) : (raise s off flags puts).hostq.held = s.hostq.held := by
  unfold raise; (try dsimp only); (repeat' split) <;> simp
@[simp] theorem raise_hostq_faulted (s : State) (off flags : Nat) (puts : List (Nat × Nat × Nat)) : (raise s off flags puts).hostq.faulted = s.hostq.faulted := by
  unfold raise; (try dsimp only); (repeat' split) <;> simp

@[simp] theorem accessError_hostq_rings (s : State) (m : Master) (addr kind : Nat) : (accessError s m addr kind).hostq.rings = s.hostq.rings := by
  unfold accessError; (try dsimp only); (repeat' split) <;> simp
@[simp] theorem accessError_hostq_fetched (s : State) (m : Master) (addr kind : Nat) : (accessError s m addr kind).hostq.fetched = s.hostq.fetched := by
  unfold accessError; (try dsimp only); (repeat' split) <;> simp
@[simp] theorem accessError_hostq_nextId (s : State) (m : Master) (addr kind : Nat) : (accessError s m addr kind).hostq.nextId = s.hostq.nextId := by
  unfold accessError; (try dsimp only); (repeat' split) <;> simp
@[simp] theorem accessError_hostq_interval (s : State) (m : Master) (addr kind : Nat) : (accessError s m addr kind).hostq.interval = s.hostq.interval := by
  unfold accessError; (try dsimp only); (repeat' split) <;> simp
@[simp] theorem accessError_hostq_lastFirst (s : State) (m : Master) (addr kind : Nat) : (accessError s m addr kind).hostq.lastFirst = s.hostq.lastFirst := by
  unfold accessError; (try dsimp only); (repeat' split) <;> simp
@[simp] theorem accessError_hostq_fnStopped (s : State) (m : Master) (addr kind : Nat) : (accessError s m addr kind).hostq.fnStopped = s.hostq.fnStopped := by
  unfold accessError; (try dsimp only); (repeat' split) <;> simp
@[simp] theorem accessError_hostq_pf0D3 (s : State) (m : Master) (addr kind : Nat) : (accessError s m addr kind).hostq.pf0D3 = s.hostq.pf0D3 := by
  unfold accessError; (try dsimp only); (repeat' split) <;> simp
@[simp] theorem accessError_hostq_held (s : State) (m : Master) (addr kind : Nat) : (accessError s m addr kind).hostq.held = s.hostq.held := by
  unfold accessError; (try dsimp only); (repeat' split) <;> simp
@[simp] theorem accessError_hostq_faulted (s : State) (m : Master) (addr kind : Nat) : (accessError s m addr kind).hostq.faulted = s.hostq.faulted := by
  unfold accessError; (try dsimp only); (repeat' split) <;> simp

@[simp] theorem guardRefuse_hostq_rings (s : State) (kind ring addr : Nat) : (guardRefuse s kind ring addr).hostq.rings = s.hostq.rings := by
  unfold guardRefuse; (try dsimp only); (repeat' split) <;> simp
@[simp] theorem guardRefuse_hostq_fetched (s : State) (kind ring addr : Nat) : (guardRefuse s kind ring addr).hostq.fetched = s.hostq.fetched := by
  unfold guardRefuse; (try dsimp only); (repeat' split) <;> simp
@[simp] theorem guardRefuse_hostq_nextId (s : State) (kind ring addr : Nat) : (guardRefuse s kind ring addr).hostq.nextId = s.hostq.nextId := by
  unfold guardRefuse; (try dsimp only); (repeat' split) <;> simp
@[simp] theorem guardRefuse_hostq_interval (s : State) (kind ring addr : Nat) : (guardRefuse s kind ring addr).hostq.interval = s.hostq.interval := by
  unfold guardRefuse; (try dsimp only); (repeat' split) <;> simp
@[simp] theorem guardRefuse_hostq_lastFirst (s : State) (kind ring addr : Nat) : (guardRefuse s kind ring addr).hostq.lastFirst = s.hostq.lastFirst := by
  unfold guardRefuse; (try dsimp only); (repeat' split) <;> simp
@[simp] theorem guardRefuse_hostq_fnStopped (s : State) (kind ring addr : Nat) : (guardRefuse s kind ring addr).hostq.fnStopped = s.hostq.fnStopped := by
  unfold guardRefuse; (try dsimp only); (repeat' split) <;> simp
@[simp] theorem guardRefuse_hostq_pf0D3 (s : State) (kind ring addr : Nat) : (guardRefuse s kind ring addr).hostq.pf0D3 = s.hostq.pf0D3 := by
  unfold guardRefuse; (try dsimp only); (repeat' split) <;> simp
@[simp] theorem guardRefuse_hostq_held (s : State) (kind ring addr : Nat) : (guardRefuse s kind ring addr).hostq.held = s.hostq.held := by
  unfold guardRefuse; (try dsimp only); (repeat' split) <;> simp
@[simp] theorem guardRefuse_hostq_faulted (s : State) (kind ring addr : Nat) : (guardRefuse s kind ring addr).hostq.faulted = s.hostq.faulted := by
  unfold guardRefuse; (try dsimp only); (repeat' split) <;> simp

@[simp] theorem typedWrite_hostq_rings (s : State) (m : Master) (v : View) (addr : Nat) (r : Reg) (d : Nat) : (typedWrite s m v addr r d).hostq.rings = s.hostq.rings := by
  unfold typedWrite; (try dsimp only); (repeat' split) <;> simp
@[simp] theorem typedWrite_hostq_fetched (s : State) (m : Master) (v : View) (addr : Nat) (r : Reg) (d : Nat) : (typedWrite s m v addr r d).hostq.fetched = s.hostq.fetched := by
  unfold typedWrite; (try dsimp only); (repeat' split) <;> simp
@[simp] theorem typedWrite_hostq_nextId (s : State) (m : Master) (v : View) (addr : Nat) (r : Reg) (d : Nat) : (typedWrite s m v addr r d).hostq.nextId = s.hostq.nextId := by
  unfold typedWrite; (try dsimp only); (repeat' split) <;> simp
@[simp] theorem typedWrite_hostq_interval (s : State) (m : Master) (v : View) (addr : Nat) (r : Reg) (d : Nat) : (typedWrite s m v addr r d).hostq.interval = s.hostq.interval := by
  unfold typedWrite; (try dsimp only); (repeat' split) <;> simp
@[simp] theorem typedWrite_hostq_lastFirst (s : State) (m : Master) (v : View) (addr : Nat) (r : Reg) (d : Nat) : (typedWrite s m v addr r d).hostq.lastFirst = s.hostq.lastFirst := by
  unfold typedWrite; (try dsimp only); (repeat' split) <;> simp
@[simp] theorem typedWrite_hostq_fnStopped (s : State) (m : Master) (v : View) (addr : Nat) (r : Reg) (d : Nat) : (typedWrite s m v addr r d).hostq.fnStopped = s.hostq.fnStopped := by
  unfold typedWrite; (try dsimp only); (repeat' split) <;> simp
@[simp] theorem typedWrite_hostq_pf0D3 (s : State) (m : Master) (v : View) (addr : Nat) (r : Reg) (d : Nat) : (typedWrite s m v addr r d).hostq.pf0D3 = s.hostq.pf0D3 := by
  unfold typedWrite; (try dsimp only); (repeat' split) <;> simp
@[simp] theorem typedWrite_hostq_held (s : State) (m : Master) (v : View) (addr : Nat) (r : Reg) (d : Nat) : (typedWrite s m v addr r d).hostq.held = s.hostq.held := by
  unfold typedWrite; (try dsimp only); (repeat' split) <;> simp
@[simp] theorem typedWrite_hostq_faulted (s : State) (m : Master) (v : View) (addr : Nat) (r : Reg) (d : Nat) : (typedWrite s m v addr r d).hostq.faulted = s.hostq.faulted := by
  unfold typedWrite; (try dsimp only); (repeat' split) <;> simp

@[simp] theorem ledgerEvent_hostq_rings (s : State) (bit : Nat) : (ledgerEvent s bit).hostq.rings = s.hostq.rings := by
  unfold ledgerEvent; (try dsimp only); (repeat' split) <;> simp
@[simp] theorem ledgerEvent_hostq_fetched (s : State) (bit : Nat) : (ledgerEvent s bit).hostq.fetched = s.hostq.fetched := by
  unfold ledgerEvent; (try dsimp only); (repeat' split) <;> simp
@[simp] theorem ledgerEvent_hostq_nextId (s : State) (bit : Nat) : (ledgerEvent s bit).hostq.nextId = s.hostq.nextId := by
  unfold ledgerEvent; (try dsimp only); (repeat' split) <;> simp
@[simp] theorem ledgerEvent_hostq_interval (s : State) (bit : Nat) : (ledgerEvent s bit).hostq.interval = s.hostq.interval := by
  unfold ledgerEvent; (try dsimp only); (repeat' split) <;> simp
@[simp] theorem ledgerEvent_hostq_lastFirst (s : State) (bit : Nat) : (ledgerEvent s bit).hostq.lastFirst = s.hostq.lastFirst := by
  unfold ledgerEvent; (try dsimp only); (repeat' split) <;> simp
@[simp] theorem ledgerEvent_hostq_fnStopped (s : State) (bit : Nat) : (ledgerEvent s bit).hostq.fnStopped = s.hostq.fnStopped := by
  unfold ledgerEvent; (try dsimp only); (repeat' split) <;> simp
@[simp] theorem ledgerEvent_hostq_pf0D3 (s : State) (bit : Nat) : (ledgerEvent s bit).hostq.pf0D3 = s.hostq.pf0D3 := by
  unfold ledgerEvent; (try dsimp only); (repeat' split) <;> simp
@[simp] theorem ledgerEvent_hostq_held (s : State) (bit : Nat) : (ledgerEvent s bit).hostq.held = s.hostq.held := by
  unfold ledgerEvent; (try dsimp only); (repeat' split) <;> simp
@[simp] theorem ledgerEvent_hostq_faulted (s : State) (bit : Nat) : (ledgerEvent s bit).hostq.faulted = s.hostq.faulted := by
  unfold ledgerEvent; (try dsimp only); (repeat' split) <;> simp

@[simp] theorem weftEvent_hostq_rings (s : State) (bit handle : Nat) : (weftEvent s bit handle).hostq.rings = s.hostq.rings := by
  unfold weftEvent; (try dsimp only); (repeat' split) <;> simp
@[simp] theorem weftEvent_hostq_fetched (s : State) (bit handle : Nat) : (weftEvent s bit handle).hostq.fetched = s.hostq.fetched := by
  unfold weftEvent; (try dsimp only); (repeat' split) <;> simp
@[simp] theorem weftEvent_hostq_nextId (s : State) (bit handle : Nat) : (weftEvent s bit handle).hostq.nextId = s.hostq.nextId := by
  unfold weftEvent; (try dsimp only); (repeat' split) <;> simp
@[simp] theorem weftEvent_hostq_interval (s : State) (bit handle : Nat) : (weftEvent s bit handle).hostq.interval = s.hostq.interval := by
  unfold weftEvent; (try dsimp only); (repeat' split) <;> simp
@[simp] theorem weftEvent_hostq_lastFirst (s : State) (bit handle : Nat) : (weftEvent s bit handle).hostq.lastFirst = s.hostq.lastFirst := by
  unfold weftEvent; (try dsimp only); (repeat' split) <;> simp
@[simp] theorem weftEvent_hostq_fnStopped (s : State) (bit handle : Nat) : (weftEvent s bit handle).hostq.fnStopped = s.hostq.fnStopped := by
  unfold weftEvent; (try dsimp only); (repeat' split) <;> simp
@[simp] theorem weftEvent_hostq_pf0D3 (s : State) (bit handle : Nat) : (weftEvent s bit handle).hostq.pf0D3 = s.hostq.pf0D3 := by
  unfold weftEvent; (try dsimp only); (repeat' split) <;> simp
@[simp] theorem weftEvent_hostq_held (s : State) (bit handle : Nat) : (weftEvent s bit handle).hostq.held = s.hostq.held := by
  unfold weftEvent; (try dsimp only); (repeat' split) <;> simp
@[simp] theorem weftEvent_hostq_faulted (s : State) (bit handle : Nat) : (weftEvent s bit handle).hostq.faulted = s.hostq.faulted := by
  unfold weftEvent; (try dsimp only); (repeat' split) <;> simp

@[simp] theorem hostqEvent_hostq_rings (s : State) (flags ring : Nat) : (hostqEvent s flags ring).hostq.rings = s.hostq.rings := by
  unfold hostqEvent; (try dsimp only); (repeat' split) <;> simp
@[simp] theorem hostqEvent_hostq_fetched (s : State) (flags ring : Nat) : (hostqEvent s flags ring).hostq.fetched = s.hostq.fetched := by
  unfold hostqEvent; (try dsimp only); (repeat' split) <;> simp
@[simp] theorem hostqEvent_hostq_nextId (s : State) (flags ring : Nat) : (hostqEvent s flags ring).hostq.nextId = s.hostq.nextId := by
  unfold hostqEvent; (try dsimp only); (repeat' split) <;> simp
@[simp] theorem hostqEvent_hostq_interval (s : State) (flags ring : Nat) : (hostqEvent s flags ring).hostq.interval = s.hostq.interval := by
  unfold hostqEvent; (try dsimp only); (repeat' split) <;> simp
@[simp] theorem hostqEvent_hostq_lastFirst (s : State) (flags ring : Nat) : (hostqEvent s flags ring).hostq.lastFirst = s.hostq.lastFirst := by
  unfold hostqEvent; (try dsimp only); (repeat' split) <;> simp
@[simp] theorem hostqEvent_hostq_fnStopped (s : State) (flags ring : Nat) : (hostqEvent s flags ring).hostq.fnStopped = s.hostq.fnStopped := by
  unfold hostqEvent; (try dsimp only); (repeat' split) <;> simp
@[simp] theorem hostqEvent_hostq_pf0D3 (s : State) (flags ring : Nat) : (hostqEvent s flags ring).hostq.pf0D3 = s.hostq.pf0D3 := by
  unfold hostqEvent; (try dsimp only); (repeat' split) <;> simp
@[simp] theorem hostqEvent_hostq_held (s : State) (flags ring : Nat) : (hostqEvent s flags ring).hostq.held = s.hostq.held := by
  unfold hostqEvent; (try dsimp only); (repeat' split) <;> simp
@[simp] theorem hostqEvent_hostq_faulted (s : State) (flags ring : Nat) : (hostqEvent s flags ring).hostq.faulted = s.hostq.faulted := by
  unfold hostqEvent; (try dsimp only); (repeat' split) <;> simp

@[simp] theorem faultRingWrite_hostq_rings (s : State) (r : FaultRec) : (faultRingWrite s r).hostq.rings = s.hostq.rings := by
  unfold faultRingWrite; (try dsimp only); (repeat' split) <;> simp
@[simp] theorem faultRingWrite_hostq_fetched (s : State) (r : FaultRec) : (faultRingWrite s r).hostq.fetched = s.hostq.fetched := by
  unfold faultRingWrite; (try dsimp only); (repeat' split) <;> simp
@[simp] theorem faultRingWrite_hostq_nextId (s : State) (r : FaultRec) : (faultRingWrite s r).hostq.nextId = s.hostq.nextId := by
  unfold faultRingWrite; (try dsimp only); (repeat' split) <;> simp
@[simp] theorem faultRingWrite_hostq_interval (s : State) (r : FaultRec) : (faultRingWrite s r).hostq.interval = s.hostq.interval := by
  unfold faultRingWrite; (try dsimp only); (repeat' split) <;> simp
@[simp] theorem faultRingWrite_hostq_lastFirst (s : State) (r : FaultRec) : (faultRingWrite s r).hostq.lastFirst = s.hostq.lastFirst := by
  unfold faultRingWrite; (try dsimp only); (repeat' split) <;> simp
@[simp] theorem faultRingWrite_hostq_fnStopped (s : State) (r : FaultRec) : (faultRingWrite s r).hostq.fnStopped = s.hostq.fnStopped := by
  unfold faultRingWrite; (try dsimp only); (repeat' split) <;> simp
@[simp] theorem faultRingWrite_hostq_pf0D3 (s : State) (r : FaultRec) : (faultRingWrite s r).hostq.pf0D3 = s.hostq.pf0D3 := by
  unfold faultRingWrite; (try dsimp only); (repeat' split) <;> simp
@[simp] theorem faultRingWrite_hostq_held (s : State) (r : FaultRec) : (faultRingWrite s r).hostq.held = s.hostq.held := by
  unfold faultRingWrite; (try dsimp only); (repeat' split) <;> simp
@[simp] theorem faultRingWrite_hostq_faulted (s : State) (r : FaultRec) : (faultRingWrite s r).hostq.faulted = s.hostq.faulted := by
  unfold faultRingWrite; (try dsimp only); (repeat' split) <;> simp

@[simp] theorem faultReportAs_hostq_rings (s : State) (cls : Nat) (r : FaultRec) : (faultReportAs s cls r).hostq.rings = s.hostq.rings := by
  unfold faultReportAs; (try dsimp only); (repeat' split) <;> simp
@[simp] theorem faultReportAs_hostq_fetched (s : State) (cls : Nat) (r : FaultRec) : (faultReportAs s cls r).hostq.fetched = s.hostq.fetched := by
  unfold faultReportAs; (try dsimp only); (repeat' split) <;> simp
@[simp] theorem faultReportAs_hostq_nextId (s : State) (cls : Nat) (r : FaultRec) : (faultReportAs s cls r).hostq.nextId = s.hostq.nextId := by
  unfold faultReportAs; (try dsimp only); (repeat' split) <;> simp
@[simp] theorem faultReportAs_hostq_interval (s : State) (cls : Nat) (r : FaultRec) : (faultReportAs s cls r).hostq.interval = s.hostq.interval := by
  unfold faultReportAs; (try dsimp only); (repeat' split) <;> simp
@[simp] theorem faultReportAs_hostq_lastFirst (s : State) (cls : Nat) (r : FaultRec) : (faultReportAs s cls r).hostq.lastFirst = s.hostq.lastFirst := by
  unfold faultReportAs; (try dsimp only); (repeat' split) <;> simp
@[simp] theorem faultReportAs_hostq_fnStopped (s : State) (cls : Nat) (r : FaultRec) : (faultReportAs s cls r).hostq.fnStopped = s.hostq.fnStopped := by
  unfold faultReportAs; (try dsimp only); (repeat' split) <;> simp
@[simp] theorem faultReportAs_hostq_pf0D3 (s : State) (cls : Nat) (r : FaultRec) : (faultReportAs s cls r).hostq.pf0D3 = s.hostq.pf0D3 := by
  unfold faultReportAs; (try dsimp only); (repeat' split) <;> simp
@[simp] theorem faultReportAs_hostq_held (s : State) (cls : Nat) (r : FaultRec) : (faultReportAs s cls r).hostq.held = s.hostq.held := by
  unfold faultReportAs; (try dsimp only); (repeat' split) <;> simp
@[simp] theorem faultReportAs_hostq_faulted (s : State) (cls : Nat) (r : FaultRec) : (faultReportAs s cls r).hostq.faulted = s.hostq.faulted := by
  unfold faultReportAs; (try dsimp only); (repeat' split) <;> simp

@[simp] theorem faultReport_hostq_rings (s : State) (r : FaultRec) : (faultReport s r).hostq.rings = s.hostq.rings := by
  unfold faultReport; (try dsimp only); (repeat' split) <;> simp
@[simp] theorem faultReport_hostq_fetched (s : State) (r : FaultRec) : (faultReport s r).hostq.fetched = s.hostq.fetched := by
  unfold faultReport; (try dsimp only); (repeat' split) <;> simp
@[simp] theorem faultReport_hostq_nextId (s : State) (r : FaultRec) : (faultReport s r).hostq.nextId = s.hostq.nextId := by
  unfold faultReport; (try dsimp only); (repeat' split) <;> simp
@[simp] theorem faultReport_hostq_interval (s : State) (r : FaultRec) : (faultReport s r).hostq.interval = s.hostq.interval := by
  unfold faultReport; (try dsimp only); (repeat' split) <;> simp
@[simp] theorem faultReport_hostq_lastFirst (s : State) (r : FaultRec) : (faultReport s r).hostq.lastFirst = s.hostq.lastFirst := by
  unfold faultReport; (try dsimp only); (repeat' split) <;> simp
@[simp] theorem faultReport_hostq_fnStopped (s : State) (r : FaultRec) : (faultReport s r).hostq.fnStopped = s.hostq.fnStopped := by
  unfold faultReport; (try dsimp only); (repeat' split) <;> simp
@[simp] theorem faultReport_hostq_pf0D3 (s : State) (r : FaultRec) : (faultReport s r).hostq.pf0D3 = s.hostq.pf0D3 := by
  unfold faultReport; (try dsimp only); (repeat' split) <;> simp
@[simp] theorem faultReport_hostq_held (s : State) (r : FaultRec) : (faultReport s r).hostq.held = s.hostq.held := by
  unfold faultReport; (try dsimp only); (repeat' split) <;> simp
@[simp] theorem faultReport_hostq_faulted (s : State) (r : FaultRec) : (faultReport s r).hostq.faulted = s.hostq.faulted := by
  unfold faultReport; (try dsimp only); (repeat' split) <;> simp

@[simp] theorem postRecord_hostq_fetched (s : State) (r : Nat) (c : Completion) (now : Bool) : (postRecord s r c now).hostq.fetched = s.hostq.fetched := by
  unfold postRecord; dsimp only; simp [setRing]
@[simp] theorem postRecord_hostq_nextId (s : State) (r : Nat) (c : Completion) (now : Bool) : (postRecord s r c now).hostq.nextId = s.hostq.nextId := by
  unfold postRecord; dsimp only; simp [setRing]
@[simp] theorem postRecord_hostq_interval (s : State) (r : Nat) (c : Completion) (now : Bool) : (postRecord s r c now).hostq.interval = s.hostq.interval := by
  unfold postRecord; dsimp only; simp [setRing]
@[simp] theorem postRecord_hostq_lastFirst (s : State) (r : Nat) (c : Completion) (now : Bool) : (postRecord s r c now).hostq.lastFirst = s.hostq.lastFirst := by
  unfold postRecord; dsimp only; simp [setRing]
@[simp] theorem postRecord_hostq_fnStopped (s : State) (r : Nat) (c : Completion) (now : Bool) : (postRecord s r c now).hostq.fnStopped = s.hostq.fnStopped := by
  unfold postRecord; dsimp only; simp [setRing]
@[simp] theorem postRecord_hostq_pf0D3 (s : State) (r : Nat) (c : Completion) (now : Bool) : (postRecord s r c now).hostq.pf0D3 = s.hostq.pf0D3 := by
  unfold postRecord; dsimp only; simp [setRing]
@[simp] theorem postRecord_hostq_held (s : State) (r : Nat) (c : Completion) (now : Bool) : (postRecord s r c now).hostq.held = s.hostq.held := by
  unfold postRecord; dsimp only; simp [setRing]
@[simp] theorem postRecord_hostq_faulted (s : State) (r : Nat) (c : Completion) (now : Bool) : (postRecord s r c now).hostq.faulted = s.hostq.faulted := by
  unfold postRecord; dsimp only; simp [setRing]

@[simp] theorem cmdState_hostq_rings (s : State) (m : Master) (off : Nat) (puts : List (Nat × Nat × Nat)) : (cmdState s m off puts).hostq.rings = s.hostq.rings := by
  unfold cmdState; (try dsimp only); (repeat' split) <;> simp
@[simp] theorem cmdState_hostq_fetched (s : State) (m : Master) (off : Nat) (puts : List (Nat × Nat × Nat)) : (cmdState s m off puts).hostq.fetched = s.hostq.fetched := by
  unfold cmdState; (try dsimp only); (repeat' split) <;> simp
@[simp] theorem cmdState_hostq_nextId (s : State) (m : Master) (off : Nat) (puts : List (Nat × Nat × Nat)) : (cmdState s m off puts).hostq.nextId = s.hostq.nextId := by
  unfold cmdState; (try dsimp only); (repeat' split) <;> simp
@[simp] theorem cmdState_hostq_interval (s : State) (m : Master) (off : Nat) (puts : List (Nat × Nat × Nat)) : (cmdState s m off puts).hostq.interval = s.hostq.interval := by
  unfold cmdState; (try dsimp only); (repeat' split) <;> simp
@[simp] theorem cmdState_hostq_lastFirst (s : State) (m : Master) (off : Nat) (puts : List (Nat × Nat × Nat)) : (cmdState s m off puts).hostq.lastFirst = s.hostq.lastFirst := by
  unfold cmdState; (try dsimp only); (repeat' split) <;> simp
@[simp] theorem cmdState_hostq_fnStopped (s : State) (m : Master) (off : Nat) (puts : List (Nat × Nat × Nat)) : (cmdState s m off puts).hostq.fnStopped = s.hostq.fnStopped := by
  unfold cmdState; (try dsimp only); (repeat' split) <;> simp
@[simp] theorem cmdState_hostq_pf0D3 (s : State) (m : Master) (off : Nat) (puts : List (Nat × Nat × Nat)) : (cmdState s m off puts).hostq.pf0D3 = s.hostq.pf0D3 := by
  unfold cmdState; (try dsimp only); (repeat' split) <;> simp
@[simp] theorem cmdState_hostq_held (s : State) (m : Master) (off : Nat) (puts : List (Nat × Nat × Nat)) : (cmdState s m off puts).hostq.held = s.hostq.held := by
  unfold cmdState; (try dsimp only); (repeat' split) <;> simp
@[simp] theorem cmdState_hostq_faulted (s : State) (m : Master) (off : Nat) (puts : List (Nat × Nat × Nat)) : (cmdState s m off puts).hostq.faulted = s.hostq.faulted := by
  unfold cmdState; (try dsimp only); (repeat' split) <;> simp

theorem ringOf_congr {s t : State} (h : t.hostq.rings = s.hostq.rings) (r : Nat) : ringOf t r = ringOf s r := by
  unfold ringOf; rw [h]

theorem ringCfg_congr {s t : State} (h : t.regs.store = s.regs.store) (r : Nat) : ringCfg t r = ringCfg s r := by
  unfold ringCfg; simp only [regWord_congr h]

theorem ringSize_congr {s t : State} (h : t.regs.store = s.regs.store) (r : Nat) : ringSize t r = ringSize s r := by
  unfold ringSize; rw [ringCfg_congr h]

theorem ringFn_congr {s t : State} (h : t.regs.store = s.regs.store) (r : Nat) : ringFn t r = ringFn s r := by
  unfold ringFn; rw [ringCfg_congr h]

/-! ### What the node has sent only grows -/

/-- The second state has sent all the first has, and perhaps more. -/
def Grows (s t : State) : Prop := ∃ l, t.out = s.out ++ l

theorem Grows.rfl {s : State} : Grows s s := ⟨[], (List.append_nil _).symm⟩
theorem Grows.of_eq {s t : State} (h : t.out = s.out) : Grows s t := ⟨[], by simp [h]⟩
theorem Grows.trans {s t u : State} : Grows s t → Grows t u → Grows s u
  | ⟨a, h⟩, ⟨b, k⟩ => ⟨a ++ b, by rw [k, h, List.append_assoc]⟩
theorem Grows.mem {s t : State} {o : Out} : Grows s t → o ∈ s.out → o ∈ t.out
  | ⟨a, h⟩, k => by rw [h]; exact List.mem_append_left _ k
theorem Grows.foldl {α : Type} (f : State → α → State) (h : ∀ s x, Grows s (f s x)) : ∀ (l : List α) (s : State), Grows s (l.foldl f s)
  | [], _ => Grows.rfl
  | x :: l, s => (h s x).trans (Grows.foldl f h l _)

theorem emit_grows (s : State) (o : Out) : Grows s (emit s o) := ⟨[o], by simp [emit]⟩
theorem vecPut_grows (s : State) (pv : Nat) (v : Vec) : Grows s (vecPut s pv v) := Grows.of_eq rfl
theorem count_grows (s : State) (k n : Nat) : Grows s (count s k n) := Grows.of_eq rfl
theorem countSat_grows (s : State) (k n : Nat) : Grows s (countSat s k n) := Grows.of_eq rfl
theorem setRing_grows (s : State) (r : Nat) (v : Ring) : Grows s (setRing s r v) := Grows.of_eq rfl
theorem freeSlots_grows (s : State) (p : RimSlot → Bool) : Grows s (freeSlots s p) := Grows.of_eq rfl
theorem dropDesc_grows (s : State) (id : Nat) : Grows s (dropDesc s id) := Grows.of_eq rfl
theorem emitAs_grows (s : State) (fn : Nat) (o : Out) : Grows s (emitAs s fn o) := by
  unfold emitAs; (repeat' split)
  · exact Grows.of_eq (by simp)
  · exact Grows.rfl
  · exact emit_grows ..
theorem fireVec_grows (s : State) (fn pv : Nat) : Grows s (fireVec s fn pv) := by
  unfold fireVec; dsimp only; split
  · exact Grows.of_eq (by simp)
  · exact Grows.trans (Grows.trans (vecPut_grows ..) (emitAs_grows ..)) (count_grows ..)
theorem armVec_grows (s : State) (fn pv : Nat) (now : Bool) : Grows s (armVec s fn pv now) := by
  unfold armVec; dsimp only; split
  · exact Grows.trans (Grows.of_eq (by simp)) (fireVec_grows ..)
  · exact Grows.of_eq (by simp)
theorem ibiCheck_grows (s : State) : Grows s (ibiCheck s) := by
  unfold ibiCheck; dsimp only; split
  · exact Grows.trans (Grows.of_eq (by simp)) (emit_grows ..)
  · exact Grows.of_eq (by simp)
theorem raise_grows (s : State) (off flags : Nat) (puts : List (Nat × Nat × Nat)) : Grows s (raise s off flags puts) := by
  unfold raise; dsimp only; split
  · exact Grows.trans (Grows.trans (Grows.of_eq (by simp)) (armVec_grows ..)) (ibiCheck_grows _)
  · exact Grows.trans (Grows.of_eq (by simp)) (ibiCheck_grows _)
theorem postRecord_grows (s : State) (r : Nat) (c : Completion) (now : Bool) : Grows s (postRecord s r c now) := by
  unfold postRecord; dsimp only
  exact Grows.trans (Grows.trans (Grows.trans (setRing_grows ..) (emit_grows ..)) (count_grows ..)) (armVec_grows ..)
theorem complete_grows (s : State) (d : Desc) (status flags : Nat) (results : Bytes) : Grows s (complete s d status flags results) := by
  unfold complete; dsimp only; (repeat' split)
  · exact Grows.rfl
  · exact Grows.of_eq (by simp)
  · exact postRecord_grows ..
theorem staleSlots_grows (s : State) (p : RimSlot → Bool) : Grows s (staleSlots s p) := by
  unfold staleSlots; dsimp only
  refine Grows.trans (Grows.foldl _ (fun s e => ?_) _ _) (freeSlots_grows ..)
  split
  · exact Grows.rfl
  · exact Grows.trans (countSat_grows ..) (raise_grows ..)
theorem weftEvent_grows (s : State) (bit handle : Nat) : Grows s (weftEvent s bit handle) := raise_grows ..
theorem hostqEvent_grows (s : State) (flags ring : Nat) : Grows s (hostqEvent s flags ring) := raise_grows ..
theorem guardRefuse_grows (s : State) (kind ring addr : Nat) : Grows s (guardRefuse s kind ring addr) :=
  Grows.trans (Grows.of_eq (by simp)) (raise_grows ..)
theorem refuse_grows (s : State) (d : Desc) (status flags : Nat) (results : Bytes) : Grows s (refuse s d status flags results) := by
  have h : ∀ u : State, Grows u (if status = St.NO_VARIANT || status = St.RANK_GROUP then weftEvent u 1 d.handle else u) := fun u => by
    split
    · exact weftEvent_grows ..
    · exact Grows.rfl
  have g : ∀ u : State, Grows u (if u.weft.guardId = some d.id then { u with weft := { u.weft with guardId := none } } else u) := fun u => by
    split <;> exact Grows.of_eq rfl
  have c := fun r => Grows.trans (dropDesc_grows s d.id) (complete_grows (dropDesc s d.id) d status flags r)
  unfold refuse; dsimp only; generalize (if d.kind = 2 then _ else results) = r
  have k := Grows.trans (Grows.trans (c r) (g _)) (h _)
  revert k; generalize (if (status = St.NO_VARIANT || status = St.RANK_GROUP) = true then _ else _) = u; intro k
  split
  · exact Grows.trans k (staleSlots_grows ..)
  · exact k
theorem settle_grows (s : State) (d : Desc) : Grows s (settle s d) := by
  unfold settle; (repeat' split) <;>
    first
      | exact Grows.rfl
      | exact refuse_grows ..
      | exact Grows.trans (Grows.trans (refuse_grows ..) (guardRefuse_grows ..)) (hostqEvent_grows ..)

/-! ### Completion records -/

/-- A record on a ring that posts: written at the ring's tail, the tail moved, the reservation given back. -/
theorem complete_posts (s : State) (d : Desc) (status flags : Nat) (results : Bytes) (h : (ringOf s d.ring).st = .active)
    (hf : ringFn s d.ring ∉ s.hostq.fnStopped) (hp : s.hostq.pf0D3 = false) :
    (∃ c : Completion, Out.completion d.ring (ringOf s d.ring).cqTail c (ringFn s d.ring) (cqBase s d.ring + 64 * (ringOf s d.ring).cqTail) ∈
        (complete s d status flags results).out ∧
      c.status = status ∧ c.flags = flags ∧ c.results = results ∧ c.cookie = BitVec.ofNat 64 (leAt d.bytes 8 8) ∧
      c.phase = (ringOf s d.ring).phase ∧ c.sqHead = (ringOf s d.ring).fetchHead ∧ c.debit = d.debit ∧ c.time = s.clk.counter) ∧
    ringOf (complete s d status flags results) d.ring =
      { ringOf s d.ring with
        cqTail := ((ringOf s d.ring).cqTail + 1) % ringSize s d.ring,
        phase := if (ringOf s d.ring).cqTail + 1 ≥ ringSize s d.ring then !(ringOf s d.ring).phase else (ringOf s d.ring).phase,
        reserved := (ringOf s d.ring).reserved - 1 } := by
  have hf' : s.hostq.fnStopped.contains (ringFn s d.ring) = false := by simpa using hf
  unfold complete; dsimp only
  simp only [h, hp, hf', reduceCtorEq, decide_false, Bool.or_false, Bool.false_and, Bool.false_eq_true, if_false]
  unfold postRecord; dsimp only
  constructor
  · refine ⟨_, (armVec_grows ..).mem ((count_grows ..).mem (List.mem_append_right _ (List.mem_singleton.2 rfl))), ?_⟩
    exact ⟨rfl, rfl, rfl, rfl, rfl, rfl, rfl, rfl⟩
  · have e : ∀ g o k n a b c, ringOf (armVec (count (emit (setRing s d.ring g) o) k n) a b c) d.ring = g := fun g o k n a b c => by
      rw [ringOf_congr (armVec_hostq_rings ..)]; exact ringOf_setRing s d.ring g
    rw [e]; simp [h]

/-- Ending a descriptor changes no ring's state. -/
theorem complete_ringSt (s : State) (d : Desc) (status flags : Nat) (results : Bytes) (r : Nat) :
    (ringOf (complete s d status flags results) r).st = (ringOf s r).st := by
  unfold complete; dsimp only; (repeat' split)
  · rfl
  · rfl
  · unfold postRecord; dsimp only
    rw [ringOf_congr (armVec_hostq_rings ..)]
    by_cases h : r = d.ring
    · subst h
      have e : ∀ g o k n, ringOf (count (emit (setRing s d.ring g) o) k n) d.ring = g := fun g _ _ _ => ringOf_setRing s d.ring g
      rw [e]
    · have e : ∀ g o k n, ringOf (count (emit (setRing s d.ring g) o) k n) r = ringOf s r := fun g _ _ _ => ringOf_setRing_ne s g h
      rw [e]

@[simp] theorem complete_hostq_nextId (s : State) (d : Desc) (status flags : Nat) (results : Bytes) :
    (complete s d status flags results).hostq.nextId = s.hostq.nextId := by
  unfold complete; dsimp only; (repeat' split) <;> simp
@[simp] theorem complete_hostq_interval (s : State) (d : Desc) (status flags : Nat) (results : Bytes) :
    (complete s d status flags results).hostq.interval = s.hostq.interval := by
  unfold complete; dsimp only; (repeat' split) <;> simp
@[simp] theorem complete_hostq_lastFirst (s : State) (d : Desc) (status flags : Nat) (results : Bytes) :
    (complete s d status flags results).hostq.lastFirst = s.hostq.lastFirst := by
  unfold complete; dsimp only; (repeat' split) <;> simp
@[simp] theorem complete_hostq_fnStopped (s : State) (d : Desc) (status flags : Nat) (results : Bytes) :
    (complete s d status flags results).hostq.fnStopped = s.hostq.fnStopped := by
  unfold complete; dsimp only; (repeat' split) <;> simp
@[simp] theorem complete_hostq_pf0D3 (s : State) (d : Desc) (status flags : Nat) (results : Bytes) :
    (complete s d status flags results).hostq.pf0D3 = s.hostq.pf0D3 := by
  unfold complete; dsimp only; (repeat' split) <;> simp
@[simp] theorem complete_hostq_faulted (s : State) (d : Desc) (status flags : Nat) (results : Bytes) :
    (complete s d status flags results).hostq.faulted = s.hostq.faulted := by
  unfold complete; dsimp only; (repeat' split) <;> simp
@[simp] theorem complete_hostq_fetched (s : State) (d : Desc) (status flags : Nat) (results : Bytes) :
    (complete s d status flags results).hostq.fetched = s.hostq.fetched := by
  unfold complete; dsimp only; (repeat' split) <;> simp
theorem staleSlots_hostq {α : Type} (s : State) (p : RimSlot → Bool) (g : Hostq → α) (h : ∀ (u : State) o f q, g (raise u o f q).hostq = g u.hostq) :
    g (staleSlots s p).hostq = g s.hostq := by
  unfold staleSlots; dsimp only
  exact foldl_keep (fun u => g u.hostq) _ (fun s e => by (try dsimp only); split <;> simp [h]) _ _
@[simp] theorem staleSlots_hostq_rings (s : State) (p : RimSlot → Bool) : (staleSlots s p).hostq.rings = s.hostq.rings :=
  staleSlots_hostq s p (·.rings) fun _ _ _ _ => by simp
@[simp] theorem staleSlots_hostq_fetched (s : State) (p : RimSlot → Bool) : (staleSlots s p).hostq.fetched = s.hostq.fetched :=
  staleSlots_hostq s p (·.fetched) fun _ _ _ _ => by simp
@[simp] theorem staleSlots_hostq_nextId (s : State) (p : RimSlot → Bool) : (staleSlots s p).hostq.nextId = s.hostq.nextId :=
  staleSlots_hostq s p (·.nextId) fun _ _ _ _ => by simp
@[simp] theorem staleSlots_hostq_interval (s : State) (p : RimSlot → Bool) : (staleSlots s p).hostq.interval = s.hostq.interval :=
  staleSlots_hostq s p (·.interval) fun _ _ _ _ => by simp
@[simp] theorem staleSlots_hostq_lastFirst (s : State) (p : RimSlot → Bool) : (staleSlots s p).hostq.lastFirst = s.hostq.lastFirst :=
  staleSlots_hostq s p (·.lastFirst) fun _ _ _ _ => by simp
@[simp] theorem staleSlots_hostq_fnStopped (s : State) (p : RimSlot → Bool) : (staleSlots s p).hostq.fnStopped = s.hostq.fnStopped :=
  staleSlots_hostq s p (·.fnStopped) fun _ _ _ _ => by simp
@[simp] theorem staleSlots_hostq_pf0D3 (s : State) (p : RimSlot → Bool) : (staleSlots s p).hostq.pf0D3 = s.hostq.pf0D3 :=
  staleSlots_hostq s p (·.pf0D3) fun _ _ _ _ => by simp
@[simp] theorem staleSlots_hostq_held (s : State) (p : RimSlot → Bool) : (staleSlots s p).hostq.held = s.hostq.held :=
  staleSlots_hostq s p (·.held) fun _ _ _ _ => by simp
@[simp] theorem staleSlots_hostq_faulted (s : State) (p : RimSlot → Bool) : (staleSlots s p).hostq.faulted = s.hostq.faulted :=
  staleSlots_hostq s p (·.faulted) fun _ _ _ _ => by simp
@[simp] theorem refuse_hostq_nextId (s : State) (d : Desc) (status flags : Nat) (results : Bytes) :
    (refuse s d status flags results).hostq.nextId = s.hostq.nextId := by
  unfold refuse; dsimp only; (repeat' split) <;> simp [dropDesc]
@[simp] theorem refuse_hostq_interval (s : State) (d : Desc) (status flags : Nat) (results : Bytes) :
    (refuse s d status flags results).hostq.interval = s.hostq.interval := by
  unfold refuse; dsimp only; (repeat' split) <;> simp [dropDesc]
@[simp] theorem refuse_hostq_lastFirst (s : State) (d : Desc) (status flags : Nat) (results : Bytes) :
    (refuse s d status flags results).hostq.lastFirst = s.hostq.lastFirst := by
  unfold refuse; dsimp only; (repeat' split) <;> simp [dropDesc]
@[simp] theorem refuse_hostq_fnStopped (s : State) (d : Desc) (status flags : Nat) (results : Bytes) :
    (refuse s d status flags results).hostq.fnStopped = s.hostq.fnStopped := by
  unfold refuse; dsimp only; (repeat' split) <;> simp [dropDesc]
@[simp] theorem refuse_hostq_pf0D3 (s : State) (d : Desc) (status flags : Nat) (results : Bytes) :
    (refuse s d status flags results).hostq.pf0D3 = s.hostq.pf0D3 := by
  unfold refuse; dsimp only; (repeat' split) <;> simp [dropDesc]
@[simp] theorem refuse_hostq_faulted (s : State) (d : Desc) (status flags : Nat) (results : Bytes) :
    (refuse s d status flags results).hostq.faulted = s.hostq.faulted := by
  unfold refuse; dsimp only; (repeat' split) <;> simp [dropDesc]


theorem refuse_ringSt (s : State) (d : Desc) (status flags : Nat) (results : Bytes) (r : Nat) :
    (ringOf (refuse s d status flags results) r).st = (ringOf s r).st := by
  have e : ∀ (x : Bytes) (u : State), u.hostq.rings = (complete (dropDesc s d.id) d status flags x).hostq.rings →
      (ringOf u r).st = (ringOf s r).st := fun x u h => by rw [ringOf_congr h, complete_ringSt]; rfl
  unfold refuse; dsimp only; generalize (if d.kind = 2 then _ else results) = x; apply e x; (repeat' split) <;> simp

theorem refuse_fetched (s : State) (d : Desc) (status flags : Nat) (results : Bytes) :
    (refuse s d status flags results).hostq.fetched = s.hostq.fetched.filter fun e => e.id != d.id := by
  unfold refuse; dsimp only; (repeat' split) <;> simp [dropDesc]

/-- Refusing a list of descriptors leaves none of them fetched. -/
theorem refuseAll_fetched (status : Nat) : ∀ (l : List Desc) (s : State),
    (l.foldl (fun s d => refuse s d status) s).hostq.fetched = s.hostq.fetched.filter fun e => l.all fun d => e.id != d.id
  | [], s => (List.filter_eq_self.2 (by simp)).symm
  | d :: l, s => by
    rw [List.foldl_cons, refuseAll_fetched status l, refuse_fetched, List.filter_filter]
    congr 1; funext e; simp [Bool.and_comm]

theorem refuseAll_ringSt (status : Nat) (r : Nat) (l : List Desc) (s : State) :
    (ringOf (l.foldl (fun s d => refuse s d status) s) r).st = (ringOf s r).st :=
  foldl_keep (fun u => (ringOf u r).st) _ (fun _ _ => refuse_ringSt ..) l s

end Sys2Proof.Machine
end

