-- ==== Sys2Proof/Laws/Parts.lean ====
section
/-! SUPPORT. Frames: how they compose, and the frame of a served command register's write. -/
namespace Sys2Proof.Machine
open Sys2Proof

theorem OnlyParts.refl (l : List Part) (s : State) : OnlyParts l s s := by intro p _; cases p <;> rfl

theorem OnlyParts.trans {l : List Part} {s t u : State} (h : OnlyParts l s t) (h' : OnlyParts l t u) : OnlyParts l s u := by
  intro p hp
  have a := h p hp
  have b := h' p hp
  cases p <;> exact Eq.trans b a

theorem OnlyParts.mono {l k : List Part} {s t : State} (h : OnlyParts l s t) (hk : ∀ p, p ∈ l → p ∈ k) : OnlyParts k s t :=
  fun p hp => h p fun hl => hp (hk p hl)

/-- The register write of a command changes the registers, and through an access error's interrupt what the node sends. -/
theorem CmdWritten.only {s u : State} {m : Master} {off : Nat} (W : CmdWritten s u m off) : OnlyParts [.regs, .hostq, .out, .sb] s u := by
  intro p hp
  cases p <;>
    first
      | exact absurd (by decide) hp
      | simp [Part.same, W.pending, W.freeCtr, W.rngCtr, W.pins, W.boot, W.clk, W.weft, W.tier, W.mem, W.plait, W.attn, W.osier, W.coma,
          W.ports, W.fab, W.qpe, W.egr, W.ledger, W.brake, W.therm, W.sec, W.fault, W.svc, W.map]

/-- An event of a status register changes the registers, and through its interrupt what the node sends. -/
theorem raise_only (s : State) (off flags : Nat) (puts : List (Nat × Nat × Nat)) :
    OnlyParts [.regs, .hostq, .out, .sb] s (raise s off flags puts) := by
  intro p hp
  cases p <;> first | exact absurd (by decide) hp | simp [Part.same]

end Sys2Proof.Machine
end

