-- ==== Sys2Proof/Laws/Ledger.lean ====
section
/-! SUPPORT. The Ledger, the bands and the clusters: what an opening, a sample and a sleep leave. -/
namespace Sys2Proof.Machine
open Sys2Proof

@[simp] theorem setStarved_ledger (s : State) (f : Desc → Nat) : (setStarved s f).ledger = s.ledger := rfl

@[simp] theorem setStarved_brake (s : State) (f : Desc → Nat) : (setStarved s f).brake = s.brake := rfl

@[simp] theorem setStarved_therm (s : State) (f : Desc → Nat) : (setStarved s f).therm = s.therm := rfl

@[simp] theorem dropGuard_ledger (s : State) : (dropGuard s).ledger = s.ledger := by unfold dropGuard; split; rfl; split <;> rfl

@[simp] theorem dropGuard_brake (s : State) : (dropGuard s).brake = s.brake := by unfold dropGuard; split; rfl; split <;> rfl

@[simp] theorem dropGuard_therm (s : State) : (dropGuard s).therm = s.therm := by unfold dropGuard; split; rfl; split <;> rfl

@[simp] theorem guardStep_ledger (s : State) : (guardStep s).ledger = s.ledger := by unfold guardStep weftEvent; dsimp only; (repeat' split) <;> simp

@[simp] theorem guardStep_brake (s : State) : (guardStep s).brake = s.brake := by unfold guardStep weftEvent; dsimp only; (repeat' split) <;> simp

@[simp] theorem guardStep_therm (s : State) : (guardStep s).therm = s.therm := by unfold guardStep weftEvent; dsimp only; (repeat' split) <;> simp

theorem peffTarget_congr {s t : State} (h : t.regs.store = s.regs.store) (h1 : t.brake = s.brake) (h2 : t.therm = s.therm) : peffTarget t = peffTarget s := by
  unfold peffTarget bandCeiling inSustained rf; simp only [regWord_congr h, h1, h2]

def recScale (s : State) (d m : Nat) (skip : Bool) : Nat :=
  if skip then s.ledger.scaleWrite.getD s.ledger.scale else clampScale ((s.ledger.scale : Int) + ((clampScale (m * 16384 / d) : Int) - s.ledger.scale) / 4).toNat

def recSkip (s : State) (d : Nat) : Bool := s.ledger.scaleWrite.isSome || rbit s Off.LEDGER_SCALE 16 || decide (d = 0) || decide (2 * d < s.ledger.refills)

theorem reconcile_ledger (s : State) (k d m : Nat) (hd : (s.ledger.debits + 2 ^ 64 - s.ledger.debits0) % 2 ^ 64 = d) (hm : (s.ledger.meas + 2 ^ 64 - s.ledger.meas0) % 2 ^ 64 = m) :
    (reconcile s k).ledger = { s.ledger with scale := recScale s d m (recSkip s d), debits0 := s.ledger.debits, meas0 := s.ledger.meas, refills := 0, recs := ({ index := k / 100, d := d, m := m, err := reconErr d m s.ledger.scale, scale := recScale s d m (recSkip s d), skipped := recSkip s d } :: s.ledger.recs).take 64 } := by
  unfold reconcile; dsimp only; rw [hd, hm]
  generalize hk : (s.ledger.scaleWrite.isSome || rbit s Off.LEDGER_SCALE 16 || decide (d = 0) || decide (2 * d < s.ledger.refills)) = sk
  have : recSkip s d = sk := hk
  rw [this]
  unfold recScale
  generalize (if sk = true then s.ledger.scaleWrite.getD s.ledger.scale else _) = sc
  (repeat' split) <;> simp only [ledgerEvent, raise_ledger, regPut_ledger]

theorem reconcile_peff (s : State) (k : Nat) : peffTarget (reconcile s k) = peffTarget s := by
  have h : ∀ j, j ≠ Off.LEDGER_SCALE → regWord (reconcile s k) j = regWord s j := by
    intro j hj
    have e : ∀ u b, regWord (ledgerEvent u b) j = regWord u j := fun u b => regWord_congr (ledgerEvent_regs_store ..) _
    have e2 : ∀ (u : State) w, regWord (regPut u Off.LEDGER_SCALE w) j = regWord u j := fun u w => regWord_regPut_ne _ _ hj
    unfold reconcile; dsimp only
    (repeat' split) <;> (try simp only [e, e2]) <;> rfl
  have hb : (reconcile s k).brake = s.brake := by unfold reconcile; dsimp only; (repeat' split) <;> simp [ledgerEvent]
  have ht : (reconcile s k).therm = s.therm := by unfold reconcile; dsimp only; (repeat' split) <;> simp [ledgerEvent]
  unfold peffTarget bandCeiling inSustained rf; rw [h _ (by decide), h _ (by decide), hb, ht]

theorem applyFall_peff (s : State) : (applyFall s).ledger.peff = min s.ledger.peff (peffTarget s) := by
  unfold applyFall; dsimp only; split
  · dsimp only; omega
  · omega

theorem applyFall_debits (s : State) : (applyFall s).ledger.debits = s.ledger.debits := by unfold applyFall; dsimp only; split <;> rfl

theorem readings_fold (x : Nat → Nat) (h : ∀ i, i < 128 → x i ≤ 1023) (fx : State → Nat → Option Nat) : ∀ (l : List Nat) (s : State), (∀ u i, i ∈ l → u.fault = s.fault → fx u i = some (x i)) → (∀ i ∈ l, i < 128) →
    let t := l.foldl (fun s i => takeReading s i (fx s i)) s
    t.regs = s.regs ∧ t.brake = s.brake ∧ t.ledger = s.ledger ∧ t.therm.cfg = s.therm.cfg ∧ t.therm.band = s.therm.band ∧ t.fault = s.fault ∧
      ∀ i, (i ∈ l → tget {} t.therm.sensors i = { temp := x i, misses := 0, failed := false }) ∧ (i ∉ l → tget {} t.therm.sensors i = tget {} s.therm.sensors i)
  | [], s, _, _ => ⟨rfl, rfl, rfl, rfl, rfl, rfl, fun _ => ⟨fun h => by simp at h, fun _ => rfl⟩⟩
  | a :: l, s, hf, hl => by
    dsimp only
    rw [List.foldl_cons, hf s a (by simp) rfl]
    have hm : min 1023 (x a) = x a := Nat.min_eq_right (h a (hl a (by simp)))
    have e : takeReading s a (some (x a)) = { s with therm := { s.therm with sensors := tset {} s.therm.sensors a { temp := x a, misses := 0, failed := false } } } := by
      unfold takeReading; dsimp only; rw [hm]
    rw [e]
    generalize hU : ({ s with therm := _ } : State) = U
    have uf : U.fault = s.fault := by rw [← hU]
    obtain ⟨a1, a2, a3, a4, a5, a6, a7⟩ := readings_fold x h fx l U (fun u i hi hu => hf u i (by simp [hi]) (hu.trans uf)) (fun i hi => hl i (by simp [hi]))
    refine ⟨by rw [a1, ← hU], by rw [a2, ← hU], by rw [a3, ← hU], by rw [a4, ← hU], by rw [a5, ← hU], by rw [a6, ← hU], fun i => ⟨fun hi => ?_, fun hi => ?_⟩⟩
    · by_cases h2 : i ∈ l
      · exact (a7 i).1 h2
      · rw [(a7 i).2 h2]; rcases List.mem_cons.1 hi with h3 | h3
        · subst h3; rw [← hU]; exact tget_tset_self ..
        · exact absurd h3 h2
    · simp at hi; rw [(a7 i).2 hi.2, ← hU]; exact tget_tset_ne _ _ _ hi.1

theorem hot_fold (f : Nat → Nat) (x : Nat → Nat) : ∀ (l : List Nat) (b : Nat × Nat), (∀ i ∈ l, f i = x i) → x b.2 = b.1 →
    let r := l.foldl (fun (b : Nat × Nat) i => if f i > b.1 then (f i, i) else b) b
    x r.2 = r.1 ∧ b.1 ≤ r.1 ∧ (∀ i ∈ l, x i ≤ r.1) ∧ (r = b ∨ r.2 ∈ l)
  | [], b, _, hb => ⟨hb, Nat.le_refl _, by simp, .inl rfl⟩
  | a :: l, b, hf, hb => by
    dsimp only; rw [List.foldl_cons]
    have ha := hf a (by simp)
    by_cases h : f a > b.1
    · rw [if_pos h]
      obtain ⟨c1, c2, c3, c4⟩ := hot_fold f x l (f a, a) (fun i hi => hf i (by simp [hi])) (by simp [ha])
      refine ⟨c1, by omega, ?_, ?_⟩
      · intro i hi; rcases List.mem_cons.1 hi with rfl | hi; exact ha ▸ c2; exact c3 i hi
      · right; rcases c4 with c4 | c4; rw [c4]; simp; simp [c4]
    · rw [if_neg h]
      obtain ⟨c1, c2, c3, c4⟩ := hot_fold f x l b (fun i hi => hf i (by simp [hi])) hb
      refine ⟨c1, c2, ?_, ?_⟩
      · intro i hi; rcases List.mem_cons.1 hi with rfl | hi; omega; exact c3 i hi
      · rcases c4 with c4 | c4; exact .inl c4; right; simp [c4]

theorem canaryRound_therm (s : State) : (canaryRound s).therm = s.therm := by unfold canaryRound; dsimp only; split <;> rfl

theorem canaryRound_ledger (s : State) : (canaryRound s).ledger = s.ledger := by unfold canaryRound; dsimp only; split <;> rfl

theorem canaryRound_brake (s : State) : (canaryRound s).brake = s.brake := by unfold canaryRound; dsimp only; split <;> rfl

theorem peff_ceiling (s : State) : peffTarget s ≤ bandCeiling s := by
  unfold peffTarget; dsimp only; split <;> omega

theorem setBand_spec (V : State) (P : Nat × Nat) (hP : (List.range 128).foldl (fun (b : Nat × Nat) i => if sensorCounts V i > b.1 then (sensorCounts V i, i) else b) (sensorCounts V 0, 0) = P) :
    let b := if bandOf V P.1 > V.therm.band then bandOf V P.1 else if bandOf V (P.1 + 4 * rf V Off.THERM_HYST 0 4) < V.therm.band then bandOf V (P.1 + 4 * rf V Off.THERM_HYST 0 4) else V.therm.band
    let t := setBand V
    t.therm = { V.therm with hottest := P.1, hotSensor := P.2, band := b } ∧ t.ledger.peff ≤ bandCeiling t ∧ t.ledger.debits = V.ledger.debits ∧ t.brake = V.brake := by
  dsimp only
  generalize hb : (if bandOf V P.1 > V.therm.band then bandOf V P.1 else if bandOf V (P.1 + 4 * rf V Off.THERM_HYST 0 4) < V.therm.band then bandOf V (P.1 + 4 * rf V Off.THERM_HYST 0 4) else V.therm.band) = b
  have e : setBand V = if b = V.therm.band then applyFall { V with therm := { V.therm with hottest := P.1, hotSensor := P.2 } } else
      canaryRound (ledgerEvent (applyFall { V with therm := { V.therm with hottest := P.1, hotSensor := P.2, band := b } }) 4) := by
    subst hb; subst hP; rfl
  have h2 : ∀ X Y : State, Y.therm = X.therm → bandCeiling Y = bandCeiling X := fun X Y hY => by unfold bandCeiling; rw [hY]
  rw [e]; split
  · rename_i hx
    refine ⟨by rw [applyFall_therm, hx], ?_, applyFall_debits _, applyFall_brake _⟩
    rw [h2 _ _ (applyFall_therm _), applyFall_peff]
    exact Nat.le_trans (Nat.min_le_right _ _) (peff_ceiling _)
  · refine ⟨by simp only [canaryRound_therm, ledgerEvent, raise_therm, applyFall_therm], ?_, by simp only [canaryRound_ledger, ledgerEvent, raise_ledger, applyFall_debits], by simp only [canaryRound_brake, ledgerEvent, raise_brake, applyFall_brake]⟩
    rw [h2 { V with therm := { V.therm with hottest := P.1, hotSensor := P.2, band := b } } _ (by simp only [canaryRound_therm, ledgerEvent, raise_therm, applyFall_therm])]
    simp only [canaryRound_ledger, ledgerEvent, raise_ledger, applyFall_peff]
    exact Nat.le_trans (Nat.min_le_right _ _) (peff_ceiling _)

theorem setCluster_self (s : State) (c : Nat) (v : ClusterState) : clusterSt (setCluster s c v) c = v := tget_tset_self ..

theorem setCluster_ne (s : State) {c k : Nat} (v : ClusterState) (h : k ≠ c) : clusterSt (setCluster s c v) k = clusterSt s k := tget_tset_ne _ _ _ h

theorem clusterSt_congr {s t : State} (h : t.attn.clusters = s.attn.clusters) (c : Nat) : clusterSt t c = clusterSt s c := by unfold clusterSt; rw [h]

theorem wake_fold (c : Nat) (d : Nat) : ∀ (l : List Nat) (s : State), regWord s Off.CLK_CLUSTER_REQ = d → clusterSt s c = .sleep →
    let t := l.foldl (fun s c => if clusterSt s c = .sleep && !rbit s Off.CLK_CLUSTER_REQ c then setCluster s c .waking else s) s
    clusterSt t c = (if c ∈ l ∧ bitOf d c = false then .waking else .sleep) ∧ t.mem = s.mem
  | [], s, _, h => by simp [h]
  | a :: l, s, hd, h => by
    dsimp only; rw [List.foldl_cons]
    have hk : ∀ (u : State) (l : List Nat), clusterSt u c = .waking →
        clusterSt (l.foldl (fun s c => if clusterSt s c = .sleep && !rbit s Off.CLK_CLUSTER_REQ c then setCluster s c .waking else s) u) c = .waking ∧ (l.foldl (fun s c => if clusterSt s c = .sleep && !rbit s Off.CLK_CLUSTER_REQ c then setCluster s c .waking else s) u).mem = u.mem := by
      intro u l; induction l generalizing u with
      | nil => exact fun h => ⟨h, rfl⟩
      | cons b l ih =>
        intro hu; rw [List.foldl_cons]
        split
        · rename_i hb
          have : c ≠ b := by intro e; subst e; simp [hu] at hb
          have := ih (setCluster u b .waking) (by rw [setCluster_ne _ _ this]; exact hu)
          exact this
        · exact ih u hu
    by_cases hac : a = c
    · subst hac
      by_cases hb : bitOf d a = true
      · rw [if_neg (by simp [rbit, hd, hb])]
        have := wake_fold a d l s hd h; dsimp only at this
        exact ⟨by rw [this.1]; simp [hb], this.2⟩
      · have hb' : bitOf d a = false := by simpa using hb
        rw [if_pos (by simp [rbit, hd, hb', h])]
        have := hk (setCluster s a .waking) l (setCluster_self ..)
        exact ⟨by rw [this.1]; simp [hb'], this.2⟩
    · split
      · have := wake_fold c d l (setCluster s a .waking) hd (by rw [setCluster_ne _ _ (Ne.symm hac)]; exact h); dsimp only at this
        exact ⟨by rw [this.1]; simp [Ne.symm hac], this.2⟩
      · have := wake_fold c d l s hd h; dsimp only at this
        exact ⟨by rw [this.1]; simp [Ne.symm hac], this.2⟩

theorem raise_attn_clusters (s : State) (o f : Nat) (p : List (Nat × Nat × Nat)) (c : Nat) : clusterSt (raise s o f p) c = clusterSt s c := clusterSt_congr (by simp) c

theorem clearUnit2_clusters (s : State) (i : Nat) : (clearUnit s 2 i).attn.clusters = s.attn.clusters := by
  have pc : ∀ (l : List Nat) (u : State), (l.foldl dropPortCache u).attn.clusters = u.attn.clusters := fun l u => foldl_keep (·.attn.clusters) _ (by intros; rfl) l u
  show ((unitCores 2 i).foldl dropPortCache s).attn.clusters = _
  exact pc _ _

theorem clearUnit2_fault (s : State) (i : Nat) : (clearUnit s 2 i).fault = s.fault := by
  have pc : ∀ (l : List Nat) (u : State), (l.foldl dropPortCache u).fault = u.fault := fun l u => foldl_keep (·.fault) _ (by intros; rfl) l u
  show ((unitCores 2 i).foldl dropPortCache s).fault = _
  exact pc _ _

end Sys2Proof.Machine
end

