-- ==== Sys2Proof/Laws/Rings.lean ====
section
/-! SUPPORT. Host rings: what a doorbell, a refusal and a fetch leave. -/
namespace Sys2Proof.Machine
open Sys2Proof

theorem refuse_dead_rings (s : State) (d : Desc) (st : Nat) (h : (ringOf s d.ring).st = .disabled) : (refuse s d st).hostq.rings = s.hostq.rings := by
  have c : ∀ f r, complete (dropDesc s d.id) d st f r = dropDesc s d.id := fun f r => by
    unfold complete; dsimp only; rw [if_pos]
    have : ringOf (dropDesc s d.id) d.ring = ringOf s d.ring := rfl
    simp [this, h]
  unfold refuse; dsimp only; rw [c]; (repeat' split) <;> simp [dropDesc]

theorem refuseDead (st : Nat) : ∀ (l : List Desc) (s : State), (∀ d ∈ l, (ringOf s d.ring).st = .disabled) →
   (l.foldl (fun s d => refuse s d st) s).hostq.rings = s.hostq.rings
  | [], _, _ => rfl
  | d :: l, s, h => by
    rw [List.foldl_cons, refuseDead st l, refuse_dead_rings _ _ _ (h d (by simp))]
    intro x hx; rw [ringOf_congr (refuse_dead_rings _ _ _ (h d (by simp)))]; exact h x (by simp [hx])

theorem readDoorbell_store (hv : AddrView) (s : State) (r : Nat) : (readDoorbell hv s r).regs.store = s.regs.store := by
  unfold readDoorbell takeDoorbell hostqEvent; dsimp only; split
  · split <;> simp
  · simp

theorem readDoorbell_ne (hv : AddrView) (s : State) (r q : Nat) (h : q ≠ r) : ringOf (readDoorbell hv s r) q = ringOf s q := by
  unfold readDoorbell takeDoorbell hostqEvent; dsimp only; split
  · split
    · exact ringOf_congr (by simp) _
    · rw [ringOf_setRing_ne _ _ h]; exact ringOf_congr (by simp) _
  · exact ringOf_congr (by simp) _

theorem readDoorbell_self (hv : AddrView) (s : State) (r : Nat) (w : Bytes) (a : (ringOf s r).st = .active) (hw : hostRead hv (dbBase s + 0x1000 + 8 * r) 8 = some w) :
    ringOf (readDoorbell hv s r) r = { ringOf s r with sqTail := leAt w 0 2 % ringSize s r, cqHead := leAt w 4 2 % ringSize s r } := by
  have c : ringOf (count s (ckey Off.HOSTQ_CNT_LO 3 0) 1) r = ringOf s r := ringOf_congr rfl r
  have d : dbBase (count s (ckey Off.HOSTQ_CNT_LO 3 0) 1) = dbBase s := by unfold dbBase rpair; simp only [regWord_congr (t := count s (ckey Off.HOSTQ_CNT_LO 3 0) 1) (s := s) rfl]
  unfold readDoorbell takeDoorbell; dsimp only; rw [d, hw]; dsimp only; rw [c, if_neg (by simp [a]), ringOf_setRing]; rw [ringSize_congr (t := count s (ckey Off.HOSTQ_CNT_LO 3 0) 1) (s := s) rfl]

theorem dbBase_congr {s t : State} (h : t.regs.store = s.regs.store) : dbBase t = dbBase s := by unfold dbBase rpair; simp only [regWord_congr h]

theorem readDoorbell_st (hv : AddrView) (s : State) (r q : Nat) : (ringOf (readDoorbell hv s r) q).st = (ringOf s q).st := by
  by_cases h : q = r
  · subst h; unfold readDoorbell takeDoorbell hostqEvent; dsimp only
    have c : ringOf (count s (ckey Off.HOSTQ_CNT_LO 3 0) 1) q = ringOf s q := ringOf_congr rfl q
    split
    · split
      · rw [c]
      · rw [ringOf_setRing, c]
    · rw [ringOf_congr (s := s) (by simp)]
  · rw [readDoorbell_ne _ _ _ _ h]

def dbTaken (hv : AddrView) (s : State) (u : State) (r : Nat) : Prop := ∀ w, hostRead hv (dbBase s + 0x1000 + 8 * r) 8 = some w → (ringOf u r).sqTail = leAt w 0 2 % ringSize s r ∧ (ringOf u r).cqHead = leAt w 4 2 % ringSize s r

theorem dbFold (hv : AddrView) (s : State) (p : Nat → Bool) : ∀ (l : List Nat) (u : State), u.regs.store = s.regs.store →
    ((l.foldl (fun s r => if p r then readDoorbell hv s r else s) u).regs.store = s.regs.store) ∧
    (∀ r, (ringOf (l.foldl (fun s r => if p r then readDoorbell hv s r else s) u) r).st = (ringOf u r).st) ∧
    (∀ r, r ∉ l → ringOf (l.foldl (fun s r => if p r then readDoorbell hv s r else s) u) r = ringOf u r) ∧
    (∀ r, (ringOf u r).st = .active → (dbTaken hv s u r ∨ (r ∈ l ∧ p r = true)) → dbTaken hv s (l.foldl (fun s r => if p r then readDoorbell hv s r else s) u) r)
  | [], u, h => ⟨h, fun _ => rfl, fun _ _ => rfl, fun r _ h => by rcases h with h | h; exact h; cases h.1⟩
  | x :: l, u, h => by
    rw [List.foldl_cons]
    have h1 : (if p x then readDoorbell hv u x else u).regs.store = s.regs.store := by split; rw [readDoorbell_store, h]; exact h
    obtain ⟨a, b, c, d⟩ := dbFold hv s p l _ h1
    refine ⟨a, fun r => by rw [b r]; split; rw [readDoorbell_st]; rfl, fun r hr => ?_, fun r hr hh => ?_⟩
    · rw [c r (by simp at hr; exact hr.2)]; split; rw [readDoorbell_ne]; simp at hr; exact hr.1; rfl
    · apply d
      · split; rw [readDoorbell_st, hr]; exact hr
      · by_cases hx : r = x
        · subst hx
          by_cases hp : p r = true
          · left; intro w hw; rw [if_pos hp, readDoorbell_self hv u r w hr (by rw [dbBase_congr h]; exact hw)]; rw [ringSize_congr h]; exact ⟨rfl, rfl⟩
          · rcases hh with hh | hh
            · left; rw [if_neg hp]; exact hh
            · exact absurd hh.2 hp
        · rcases hh with hh | hh
          · left; intro w hw; have := hh w hw; split; rw [readDoorbell_ne _ _ _ _ hx]; exact this; exact this
          · right; exact ⟨by simpa [hx] using hh.1, hh.2⟩

theorem tfind_mem {α : Type} {k : Nat} {v : α} : ∀ {l : Tbl α}, tfind l k = some v → (k, v) ∈ l
  | [], h => by cases h
  | (a, b) :: l, h => by
    unfold tfind at h; split at h
    · rename_i e; subst e; cases h; simp
    · exact List.mem_cons_of_mem _ (tfind_mem h)

theorem active_mem {s : State} {r : Nat} (h : (ringOf s r).st = .active) (hr : r ≠ adminRing) : r ∈ activeRings s := by
  unfold activeRings; unfold ringOf tget at h
  cases e : tfind s.hostq.rings r with
  | none => rw [e] at h; simp at h
  | some g =>
    rw [e] at h
    have : (r, g) ∈ s.hostq.rings := tfind_mem e
    refine List.mem_map.2 ⟨(r, g), List.mem_filter.2 ⟨this, ?_⟩, rfl⟩
    simp at h; simp [h, hr]

theorem notadmin {s : State} {r : Nat} (h : r ∈ activeRings s) : r ≠ adminRing := by
  unfold activeRings at h; obtain ⟨e, he, rfl⟩ := List.mem_map.1 h; have := (List.mem_filter.1 he).2; simp at this; exact this.2

end Sys2Proof.Machine
end

