-- ==== Sys2Proof/Laws/Wire.lean ====
section
/-! SUPPORT. What the fabric's shared operations do: class queues, sending a frame, requests, held accesses, and the accessors of queue
pairs, regions and egress ports. -/
namespace Sys2Proof.Machine
open Sys2Proof

/-! ### Accessors -/

@[simp] theorem eport_setEport (s : State) (p : Nat) (e : EPort) : eport (setEport s p e) p = e := tget_tset_self ..
theorem eport_setEport_ne (s : State) {p q : Nat} (e : EPort) (h : q ≠ p) : eport (setEport s p e) q = eport s q := tget_tset_ne _ _ _ h
@[simp] theorem qpOf_setQp (s : State) (n : Nat) (q : Qp) : qpOf (setQp s n q) n = q := tget_tset_self ..
theorem qpOf_setQp_ne (s : State) {n m : Nat} (q : Qp) (h : m ≠ n) : qpOf (setQp s n q) m = qpOf s m := tget_tset_ne _ _ _ h
@[simp] theorem regionEnt_setRegionEnt (s : State) (i : Nat) (e : RegEnt) : regionEnt (setRegionEnt s i e) i = e := tget_tset_self ..
theorem regionEnt_setRegionEnt_ne (s : State) {i j : Nat} (e : RegEnt) (h : j ≠ i) : regionEnt (setRegionEnt s i e) j = regionEnt s j :=
  tget_tset_ne _ _ _ h
@[simp] theorem policerOf_setPolicer (s : State) (c : Nat) (v : Policer) : policerOf (setPolicer s c v) c = v := tget_tset_self ..

/-! ### Class queues (13 R314) -/

/-- A queue and the frames that wait for it are the list they were split from. -/
@[simp] theorem takeIn_append (n : Nat) (l : List QFrame) : (takeIn n l).1 ++ (takeIn n l).2 = l := by
  induction l generalizing n with
  | nil => rfl
  | cons x xs ih => unfold takeIn; split <;> simp [ih]

@[simp] theorem classFrames_putClass (s : State) (p c : Nat) (l : List QFrame) : classFrames (eport (putClass s p c l) p) c = l := by
  simp [putClass, classFrames]

theorem classFrames_putClass_ne (s : State) (p : Nat) {c j : Nat} (l : List QFrame) (h : j ≠ c) :
    classFrames (eport (putClass s p c l) p) j = classFrames (eport s p) j := by
  simp [putClass, classFrames, tget_tset_ne _ _ _ h]

theorem eport_putClass_ne (s : State) {p q : Nat} (c : Nat) (l : List QFrame) (h : q ≠ p) : eport (putClass s p c l) q = eport s q :=
  eport_setEport_ne s _ h

/-- A frame goes to the end of its class. -/
theorem classFrames_enqueue (s : State) (p ctx : Nat) (f : Frame) (r : Option Nat) :
    classFrames (eport (enqueue s p ctx f r) p) f.tc = classFrames (eport s p) f.tc ++ [{ ctx := ctx, frame := f, region := r }] :=
  classFrames_putClass ..

/-! ### Sending (11 R275) -/

@[simp] theorem eport_bindFlow (s : State) (ctx dst tc p q : Nat) : eport (bindFlow s ctx dst tc p) q = eport s q := rfl

/-- The port of a flow is one of the ports it may take. -/
theorem flowPort_mem {s : State} {ctx dst tc p : Nat} (h : flowPort s ctx dst tc = some p) : p ∈ flowPorts s ctx dst := by
  unfold flowPort at h; dsimp only at h
  cases e : flowPorts s ctx dst with
  | nil => rw [e] at h; simp at h
  | cons x xs =>
    rw [e] at h; simp only [List.head?_cons, Option.some.injEq] at h
    split at h
    · rename_i hc; subst h; simpa using hc
    · subst h
      have b : ∀ i, i < (x :: xs).length → (x :: xs).getD i x ∈ x :: xs := fun i hi => by
        rw [List.getD_eq_getElem?_getD, List.getElem?_eq_getElem hi]; exact List.getElem_mem hi
      exact b _ (Nat.mod_lt _ (by simp))

/-- On it the context has a session. -/
theorem flowPort_session {s : State} {ctx dst tc p : Nat} (h : flowPort s ctx dst tc = some p) : (sessionOf (portOf s p) ctx).isSome = true := by
  have := flowPort_mem h
  unfold flowPorts at this
  exact (List.mem_filter.1 this).2

/-- A flow that has been bound to one of its ports stays there. -/
theorem flowPort_bindFlow {s : State} {ctx dst tc p : Nat} (h : p ∈ flowPorts s ctx dst) : flowPort (bindFlow s ctx dst tc p) ctx dst tc = some p := by
  have e : flowPorts (bindFlow s ctx dst tc p) ctx dst = flowPorts s ctx dst := rfl
  unfold flowPort; dsimp only; rw [e]
  cases l : flowPorts s ctx dst with
  | nil => rw [l] at h; simp at h
  | cons x xs =>
    have b : tget 24 (bindFlow s ctx dst tc p).egr.flows (flowKey ctx dst tc) = p := tget_tset_self ..
    simp only [List.head?_cons, b]
    rw [l] at h
    rw [if_pos (by simpa using h)]

/-- A frame is sent exactly where its flow has a port: it joins that port's class under the context's session, and nothing but the egress changes. -/
theorem sendFrame_spec (s : State) (ctx : Nat) (f : Frame) (r : Option Nat) :
    (flowPort s ctx f.dst f.tc = none → sendFrame s ctx f r = none) ∧
    ∀ p n, flowPort s ctx f.dst f.tc = some p → sessionOf (portOf s p) ctx = some n →
      ∃ t, sendFrame s ctx f r = some t ∧
        classFrames (eport t p) f.tc = classFrames (eport s p) f.tc ++ [{ ctx := ctx, frame := { f with src := nodeNum s, session := n }, region := r }] ∧
        (∀ c, c ≠ f.tc → classFrames (eport t p) c = classFrames (eport s p) c) ∧ (∀ q, q ≠ p → eport t q = eport s q) ∧ { t with egr := s.egr } = s := by
  refine ⟨fun h => by simp [sendFrame, h], fun p n h g => ?_⟩
  refine ⟨enqueue (bindFlow s ctx f.dst f.tc p) p ctx { f with src := nodeNum s, session := n } r, by simp [sendFrame, h, g], ?_, ?_, ?_, rfl⟩
  · exact classFrames_enqueue ..
  · intro c hc; exact classFrames_putClass_ne _ _ _ hc
  · intro q hq; exact eport_putClass_ne _ _ _ hq

/-! ### Held accesses (07 R168, R175) -/

/-- An access goes on, or waits and changes nothing else. -/
theorem heldBy_cases (s : State) (ks : List Nat) (c : Instr) (go : State → State) :
    (mustWait s ks = false ∧ heldBy s ks c go = go s) ∨
      (mustWait s ks = true ∧ heldBy s ks c go = { s with osier := { s.osier with waits := s.osier.waits ++ [(ks, c)] } }) := by
  unfold heldBy; cases mustWait s ks <;> simp

/-! ### Regions (11 R281) -/

@[simp] theorem regionEnt_enterRegion (s : State) (i : Nat) :
    regionEnt (enterRegion s i) i = { regionEnt s i with inflight := (regionEnt s i).inflight + 1 } := regionEnt_setRegionEnt ..

theorem regionEnt_leaveRegion (s : State) (r : Option Nat) (j : Nat) :
    regionEnt (leaveRegion s r) j = if r = some j then { regionEnt s j with inflight := (regionEnt s j).inflight - 1 } else regionEnt s j := by
  cases r with
  | none => simp [leaveRegion]
  | some i =>
    by_cases e : i = j
    · subst e; simp [leaveRegion]
    · simp [leaveRegion, e, regionEnt_setRegionEnt_ne s _ (Ne.symm e)]

/-! ### The policer (13 R330) -/

/-- A frame conforms where the policer is off, or its bucket holds the frame's bytes. -/
theorem police_fst (s : State) (c : Nat) (f : Frame) : (police s c f).1 = (!polOn s c || decide (frameLen f * 2 ^ 24 ≤ polTokens s c)) := by
  unfold police
  cases h : polOn s c with
  | false => rfl
  | true =>
    simp only [Bool.not_true, Bool.false_eq_true, if_false, polAccrue, policerOf_setPolicer, Bool.false_or]
    split <;> simp_all

end Sys2Proof.Machine
end

