-- ==== Sys2Proof/Tests/Slice0.lean ====
section
/-! SUPPORT. The model's own tests: ill-formed commands are refused by WellFormed, the spec's worked examples, and for the
hypotheses of each statement a state and operands that meet them. -/
namespace Sys2Proof.Tests

set_option Elab.async false
open Sys2Proof Sys2Proof.Machine

/-! ### Helpers -/

/-- A node in RUN with the clocks locked, of which nothing else has happened. -/
def up : State :=
  { State.reset with
    pins := { por := true, perst := true, brake := true, thermTrip := false }
    boot := { st := .run, image := [1] }
    clk := { locked := true }
    svc := {} }

/-- A privileged PCIe function. -/
def pf0 : Master := .pcie 0

/-- The state a command leaves, for a test to look at. -/
def after (c : Instr) (s : State) : State :=
  match exec c s with
  | .next t => t
  | .fault _ => s
  | .refused _ => s

/-- Write a register instance directly. -/
def reg (s : State) (key w : Nat) : State := regPut s key w

theorem test_hyp_queue : up.pending = [] ∧ readyAccess up = none := ⟨rfl, rfl⟩
/-- A load to a region that nothing holds any more. -/
def resumeNode : State := { up with osier := { up.osier with waits := [([5], .load 0 { op := 0x01, tc := 2 } {})] } }
theorem test_hyp_resume : resumeNode.pending = [] ∧ readyAccess resumeNode = some (0, .load 0 { op := 0x01, tc := 2 } {}) := ⟨rfl, by decide⟩
/-- R412: a node in FENCED_SAFE with one ordinary command waiting. -/
def safeNode : State := { up with fault := { up.fault with st := .fencedSafe }, pending := [.lockLost] }
theorem test_hyp_safe : SafeInv safeNode := ⟨rfl, by simp [safeNode, up, State.reset], by simp [safeNode, up, State.reset], by simp [safeNode, State.waiting, up, State.reset]⟩
theorem test_safe_stays : (after .lockLost safeNode).fault.st = .fencedSafe := by decide
theorem test_hyp_alive : alive up = true ∧ up.clk.locked = true ∧ up.pins.perst = true := by decide
theorem test_hyp_safe_command : served up pf0 Off.FAULT_CMD = true ∧ privileged up pf0 = true ∧ up.fault.busy = false := by decide
theorem test_trip_at_460 : (after (.thermalTrip 3 460) up).fault.st = .fencedSafe ∧ (after (.thermalTrip 3 460) up).fault.cause = 0x41 := by decide
theorem test_safe_needs_confirmation :
    (after (.safe pf0 0x5AFE) up).fault.st = .fencedSafe ∧ (after (.safe pf0 0x5AFF) up).fault.st = .run := by decide

/-! ### Resets -/

/-- A boot whose rails are in range, with the flash readable or not, and the newest record entry torn or not. -/
def boots (flash torn : Bool) : BootObs :=
  { rails := true, torn := torn, chainOk := true, flashOk := flash, identityOk := true, entropyOk := true, stacksOk := 0xFFFFFFFF, dimms := [], gib := [],
    channelsOk := 0, canaryFail := [] }

/-- A node held by MOD_POR_N with an image in flash and two entries in its record. -/
def heldNode (image : Bytes) : State :=
  { up with pins := { up.pins with por := false }, boot := { image := image }, svc := { entries := [{ type := 2 }, { type := 1 }] } }

theorem test_hyp_power_on : (heldNode [1]).pins.por = false ∧ (heldNode [1]).boot.image ≠ [] ∧ (heldNode []).boot.image = [] ∧
    (boots true false).rails = true ∧ (boots false true).flashOk = false ∧ 2 ≤ (heldNode [1]).svc.entries.length := by decide
theorem test_no_flash_recovers : (after (.powerOnReset (boots false true)) (heldNode [1])).boot.st = .recovery ∧
    (after (.powerOnReset (boots false true)) (heldNode [1])).boot.cause = 4 ∧
    (after (.powerOnReset (boots false true)) (heldNode [1])).svc.entries.length = 1 := by decide
theorem test_no_image_recovers : (after (.powerOnReset (boots true false)) (heldNode [])).boot.cause = 1 := by decide
/-- The node held at verification by PCIE_PERST_N, and one in RECOVERY with a 1-byte image named in host memory. -/
def perstNode : State := { up with pins := { up.pins with perst := false }, boot := { up.boot with st := .verify } }
def recoveryNode : State := reg { up with boot := { up.boot with st := .recovery } } Off.COMMIT_RECOVERY_LEN 1
theorem test_hyp_node_reset : alive up = true ∧ alive perstNode = true ∧ perstNode.pins.perst = false ∧ (boots true false).flashOk = true ∧
    up.boot.image ≠ [] ∧ alive recoveryNode = true ∧ served recoveryNode pf0 Off.COMMIT_RECOVERY_CMD = true ∧ privileged recoveryNode pf0 = true ∧
    recoveryImage recoveryNode (fnView [(0, [(0, some [7])])] 0) = some [7] := by decide
theorem test_perst_holds : (after (.nodeReset false (boots true false)) up).boot.st = .verify ∧
    (after (.nodeReset false (boots true false)) up).boot.resetKind = 1 := by decide

/-! ### Host rings and vectors -/

/-- A 64-byte descriptor of a kind, all else zero. -/
def descBytes (kind : Nat) : Bytes := (kind : Byte) :: List.replicate 63 0

/-- Context ring 3 of function 2 and the administrative ring, both ACTIVE; the ring's tail is one ahead, and the scan is enabled. -/
def ringNode : State :=
  let s := { up with hostq := { up.hostq with rings := [(3, { st := .active, sqTail := 1 }), (4096, { st := .active })] },
                     sec := { up.sec with ctxs := [(3, { st := .active })] } }
  reg (reg s (rkey Off.HOSTQ_RING_CFG 3) 0x80000020) Off.HOSTQ_CTRL 1

/-- The doorbell area and the doorbell word of ring 3, with tail 1 and completion head 0. -/
def doorbells : HostView := [(0, [(0, some (List.replicate 0x208 0)), (0x1018, some [1, 0, 0, 0, 0, 0, 0, 0])])]
/-- The same with bit 3 of summary word 0 set, and the scan with Swaps. -/
def marked : HostView :=
  [(0, [(0, some (8 :: List.replicate 0x207 0)), (0x1018, some [1, 0, 0, 0, 0, 0, 0, 0])])]
def swapNode : State := reg ringNode Off.HOSTQ_CTRL 3

theorem test_hyp_function_reset : alive ringNode = true ∧ ringFn ringNode 3 = 2 ∧ 3 ∈ ringNode.hostq.rings.map (·.1) := by decide
theorem test_flr_drops_ring : (ringOf (after (.vfFlr 2) ringNode) 3).st = .disabled ∧ (ringOf (after (.vfFlr 1) ringNode) 3).st = .active := by decide
theorem test_hyp_pf0_d0 : alive (after .pf0D3hot ringNode) = true ∧ (after .pf0D3hot ringNode).hostq.pf0D3 = true ∧
    (after .pf0D3hot ringNode).hostq.held = [] := by decide
/-- R245: ring 3 selected by PF0, DISABLED, ACTIVE, or DRAINING with nothing reserved. -/
def ringIn (st : RingState) : State :=
  { up with hostq := { up.hostq with rings := if st = .disabled then [] else [(3, { st := st })] }, regs := { up.regs with selPcie := [(Off.HOSTQ_RING_SEL, 3)] } }
theorem test_hyp_ring_enable : served (ringIn .disabled) pf0 Off.HOSTQ_RING_CFG = true ∧ privileged (ringIn .disabled) pf0 = true ∧
    ringSel (ringIn .disabled) pf0 = 3 ∧ (ringOf (ringIn .disabled) 3).st = .disabled := by decide
theorem test_hyp_ring_disable : served (ringIn .active) pf0 Off.HOSTQ_RING_CFG = true ∧ privileged (ringIn .active) pf0 = true ∧
    (ringOf (ringIn .active) (ringSel (ringIn .active) pf0)).st = .active := by decide
theorem test_hyp_ring_disabled : alive (ringIn .draining) = true ∧ (ringOf (ringIn .draining) 3).st = .draining ∧
    (ringOf (ringIn .draining) 3).reserved = 0 := by decide
theorem test_ring_enable : ringOf (after (.ringEnable pf0 0x80000020) (ringIn .disabled)) 3 = { st := .active } ∧
    ringFn (after (.ringEnable pf0 0x80000020) (ringIn .disabled)) 3 = 2 := by decide
/-- Function 2 has vectors 64 and 65; records wait for a message on vector 64, and vector 65 has its PBA bit set. -/
def vecNode : State :=
  let s := { up with hostq := { up.hostq with vecs := [(64, { unsignalled := 1, masked := false }), (65, { pba := true })] } }
  reg (reg s (rkey Off.HOSTQ_FUNC_VECTORS 0) 0x40) (rkey Off.HOSTQ_FUNC_VECTORS 2) 0x400002
theorem test_hyp_vectors : alive vecNode = true ∧ 2 ∉ vecNode.hostq.fnStopped ∧ fnOfVec vecNode 64 = some 2 ∧ (vecGet vecNode 64).unsignalled ≠ 0 ∧
    (vecGet vecNode 64).masked = false ∧ 1 < vecCount vecNode 2 ∧ (vecGet vecNode (vecFirst vecNode 2 + 1)).pba = true := by decide
theorem test_vectors : (after (.msixModerationTimer 64) vecNode).out = [.msix 2 0 0 0] ∧
    (after (.msixUnmask 2 { vec := 1, addr := 0xFEE00000, data := 7, masked := false }) vecNode).out = [.msix 2 1 0xFEE00000 7] := by decide
set_option maxRecDepth 20000 in
theorem test_hyp_doorbells : alive ringNode = true ∧ hostOpen ringNode = true ∧ rbit ringNode Off.HOSTQ_CTRL 0 = true ∧
    rbit ringNode Off.HOSTQ_CTRL 1 = false ∧ rf ringNode Off.HOSTQ_SWEEP 0 16 ≠ 0 ∧ 3 ∈ activeRings ringNode ∧ (ringOf ringNode 3).st = .active ∧
    hostRead (fnView doorbells 0) (dbBase ringNode + 0x1000 + 8 * 3) 8 = some [1, 0, 0, 0, 0, 0, 0, 0] ∧ (hostRead (fnView doorbells 0) (dbBase ringNode) 0x208).isSome = true ∧
    (ringOf ringNode adminRing).st = .active := by decide
set_option maxRecDepth 20000 in
theorem test_hyp_swap : alive swapNode = true ∧ hostOpen swapNode = true ∧ rbit swapNode Off.HOSTQ_CTRL 0 = true ∧ rbit swapNode Off.HOSTQ_CTRL 1 = true ∧
    ∀ area ∈ hostRead (fnView marked 0) (dbBase swapNode) 0x208,
      ((List.range 64).filter fun i => leAt area (8 * i) 8 != 0) = [0] ∧ (8 : BitVec 64).getLsbD 3 = true := by decide
theorem test_hyp_fetch : alive ringNode = true ∧ hostOpen ringNode = true ∧ ringNode.fault.st ≠ .fenced ∧ hasWork ringNode adminRing = false ∧
    serveOrder ringNode = [3] ∧ freeRecords ringNode 3 ≠ 0 ∧ (ringOf ringNode 3).sqTail = ((ringOf ringNode 3).fetchHead + 1) % ringSize ringNode 3 ∧
    hostRead (fnView [(2, [(0, some (descBytes 8))])] (ringFn ringNode 3)) (sqBase ringNode 3 + 64 * (ringOf ringNode 3).fetchHead) 64 = some (descBytes 8) ∧
    1 ≤ leAt (descBytes 8) 0 1 ∧ leAt (descBytes 8) 0 1 ≤ 8 ∧ (ctxOf ringNode 3).st = .active := by decide
theorem test_fetch : (after (.descriptorFetch [(2, [(0, some (descBytes 8))])]) ringNode).hostq.fetched.map (·.ring) = [3] := by decide
/-- Ring 3 with a fetched FENCE and nothing before it. -/
def fenceNode : State :=
  { ringNode with hostq := { ringNode.hostq with fetched := [{ id := 5, ring := 3, bytes := descBytes 8 }], faulted := [(3, 0)] } }
theorem test_hyp_completion : (ringOf fenceNode 3).st = .active ∧ ringFn fenceNode 3 ∉ fenceNode.hostq.fnStopped ∧ fenceNode.hostq.pf0D3 = false := by decide
theorem test_hyp_fence : alive fenceNode = true ∧ (findDesc fenceNode 5).isSome = true ∧ (∀ d ∈ findDesc fenceNode 5, d.kind = 8 ∧ d.ring = 3 ∧
    fenceMet fenceNode d = true) ∧ (ctxOf fenceNode 3).quiesced = false := by decide
theorem test_fence : (after (.fence 5) fenceNode).hostq.fetched = [] ∧ (after (.fence 5) fenceNode).hostq.faulted = [] := by decide

/-! ### The Ledger, the brake, thermal bands, sleep -/

/-- The counter stands where the next window is number 101, or 100. -/
def windowNode (w : Nat) : State := { up with clk := { up.clk with counter := 8000 * w }, ledger := { up.ledger with window := w - 1, debits := 1000, refills := 1500 } }
theorem test_hyp_window : alive (windowNode 101) = true ∧ nextWindow (windowNode 101) % 100 ≠ 0 ∧ alive (windowNode 100) = true ∧
    nextWindow (windowNode 100) % 100 = 0 := by decide
/-- The worked example of 14, steps 1 to 4: window 500 opens after 3,050,000 units debited of 3,200,000, and 3,294,000 uJ measured. -/
def reconNode : State :=
  { up with clk := { up.clk with counter := 4000000 }, ledger := { up.ledger with window := 499, debits := 3050000, meas := 3000000, refills := 3200000 } }
theorem test_recon_example : (after (.windowOpen 294000) reconNode).ledger.scale = 0x4147 ∧ (after (.windowOpen 294000) reconNode).ledger.refill = 31373 ∧
    (after (.windowOpen 294000) reconNode).ledger.recs = [{ index := 5, d := 3050000, m := 3294000, err := 80, scale := 0x4147, skipped := false }] := by decide
theorem test_hyp_budget : served up pf0 Off.LEDGER_BUDGET = true ∧ privileged up pf0 = true ∧ (4095 : Nat) < 4096 := by decide
theorem test_budget_falls : (after (.budgetWrite pf0 1600) up).ledger.peff = 1600 ∧ (after (.budgetWrite pf0 1600) up).ledger.refill = 16000 := by decide
/-- A node in a state of the brake. -/
def brakeNode (st : BrakeState) (input releasing ack : Bool) : State :=
  { up with brake := { st := st, input := input, releasing := releasing, ack := ack } }
theorem test_hyp_brake : alive (brakeNode .idle true true true) = true ∧ (brakeNode .idle true true true).brake.input = true ∧
    (brakeNode .braked true true false).brake.releasing = true ∧ inSustained (brakeNode .sustainedBraked true true false) = true ∧
    served up pf0 Off.LEDGER_BRAKE = true ∧ inSustained (brakeNode .sustainedReleased false false true) = true := by decide
theorem test_brake_13_and_66 : (after (.brakeDeassert 12) (brakeNode .braked true false false)).brake.chatter = 1 ∧
    (after (.brakeDeassert 13) (brakeNode .braked true false false)).brake.aborts = 1 ∧
    (after (.brakeDeassert 66) (brakeNode .braked true false false)).brake.releasing = true := by decide
theorem test_brake_exit_needs_ack : (after .sustainedBrakeExit (brakeNode .sustainedReleased false false false)).brake.st = .sustainedReleased ∧
    (after .sustainedBrakeExit (brakeNode .sustainedReleased false false true)).brake.st = .idle := by decide
set_option maxRecDepth 20000 in
theorem test_hyp_thermal : alive up = true ∧ (∀ i, i < 128 → (fun i => 2 * i) i ≤ 254) ∧ (fun i => 2 * i) 127 = 254 ∧ 254 ≤ 1023 ∧
    bandCfgOk (bandRegs up) = true := by decide
/-- The worked example of 14, step 5: with 12,400 units left a sample of 88 degrees moves the node to band 4. -/
def hotNode : State :=
  { up with clk := { up.clk with counter := 4003200 }, therm := { up.therm with band := 2 }
            ledger := { up.ledger with window := 500, peff := 3200, scale := 0x4147, refill := 31373, remain := 12400 } }
set_option maxRecDepth 20000 in
theorem test_band_example : let t := after (.thermalSample (some 352 :: List.replicate 127 (some 200))) hotNode
    t.therm.band = 4 ∧ t.ledger.peff = 2600 ∧ t.ledger.refill = 25491 ∧ t.ledger.remain = 6518 := by decide
/-- Cluster 3 in a state, with its request bit set. -/
def clusterNode (st : ClusterState) : State := reg { up with attn := { up.attn with clusters := [(3, st)] } } Off.CLK_CLUSTER_REQ 8
theorem test_hyp_cluster : served (clusterNode .sleep) pf0 Off.CLK_CLUSTER_REQ = true ∧ privileged (clusterNode .sleep) pf0 = true ∧
    clusterSt (clusterNode .sleep) 3 = .sleep ∧ clusterSt (clusterNode .ready) 3 = .ready ∧ rbit (clusterNode .ready) Off.CLK_CLUSTER_REQ 3 = true ∧
    clusterIdle (clusterNode .ready) 3 = true ∧ clusterSt (clusterNode .waking) 3 = .waking ∧ epochStale (clusterNode .waking) 2 3 = false := by decide
/-- Stack 3 in a state, enabled for sleep. -/
def stackNode (st : StackState) : State := reg { up with mem := { up.mem with stackSet := [(3, st)] } } Off.CLK_STACK_SLEEP_EN 8
theorem test_hyp_stack : alive (stackNode .ready) = true ∧ stackSt (stackNode .ready) 3 = .ready ∧ rbit (stackNode .ready) Off.CLK_STACK_SLEEP_EN 3 = true ∧
    stackHeld (stackNode .ready) 3 = false ∧ stackSweeps (stackNode .ready) 3 = false ∧ stackSt (stackNode .sleep) 3 = .sleep := by decide
theorem test_access_wakes : stackSt (putFrame (stackNode .sleep) 0 (3 * 2 ^ 22) 0 [1]) 3 = .ready ∧
    isHbm (3 * 2 ^ 22) = true ∧ stackOf (3 * 2 ^ 22) = 3 ∧ stackSt (stackNode .sleep) 3 = .sleep := by decide
theorem test_stack_sleep : stackSt (after (.stackSleep 3) (stackNode .ready)) 3 = .sleep ∧
    stackSt (after (.stackSleep 3) (reg (stackNode .ready) Off.CLK_STACK_SLEEP_EN 0)) 3 = .ready := by decide
theorem test_cluster_wakes : clusterSt (after (.clusterPowerUp 3 true false) (clusterNode .waking)) 3 = .fenced ∧
    clusterSt (after (.clusterPowerUp 3 true true) (clusterNode .waking)) 3 = .ready := by decide

/-! ### Keys, contexts, the random source, erasure -/

/-- FIPS 180-4: the digest of "abc" begins ba7816bf. -/
theorem test_sha256_abc : (sha256 [0x61, 0x62, 0x63]).take 4 = [0xba, 0x78, 0x16, 0xbf] := by decide +kernel
/-- GLOBAL_MGMT_RID names function 0, so that function 1 is not privileged. -/
def guarded : State := reg up Off.GLOBAL_MGMT_RID 0x80000000
theorem test_hyp_sec_data : served guarded pf0 Off.SEC_DATA = true ∧ privileged guarded pf0 = true ∧ served guarded (.pcie 1) Off.SEC_DATA = true ∧
    privileged guarded (.pcie 1) = false := by decide
theorem test_sec_data_write : tget 0 (after (.secDataAccess pf0 (some 7)) guarded).sec.buf 0 = 7 ∧
    selNum (after (.secDataAccess pf0 (some 7)) guarded) pf0 Off.SEC_DATA_INDEX = 1 ∧
    (after (.secDataAccess (.pcie 1) (some 7)) guarded).sec.guardCnt = 1 := by decide
/-- SEC_DATA begins with a byte whose top bit is set; the store holds that key in entry 0, or another in all eight. -/
def keyNode (store : State → Tbl KeyEnt) : State :=
  let s := { up with sec := { up.sec with buf := [(0, 0x80)], rng := .ok } }
  { s with sec := { s.sec with store := store s } }
def sameKey (s : State) : Tbl KeyEnt := [(0, { valid := true, roles := 1, modulus := bufBytes s 384 })]
def otherKeys (_ : State) : Tbl KeyEnt := (List.range 8).map fun i => (i, { valid := true, roles := 1, modulus := [7] })
theorem test_hyp_enrol : served (keyNode sameKey) pf0 Off.SEC_CMD = true ∧ privileged (keyNode sameKey) pf0 = true ∧ (keyNode sameKey).sec.busy = false ∧
    (7 : Nat) < 8 ∧ bitOf (leAt (bufBytes (keyNode sameKey) 384) 0 1) 7 = true ∧ (keyEnt (keyNode sameKey) 0).valid = true ∧
    (keyEnt (keyNode sameKey) 0).modulus = bufBytes (keyNode sameKey) 384 := by decide +kernel
theorem test_hyp_enrol_new : (∀ i, i < 8 → (keyEnt (keyNode fun _ => []) i).valid = false) := by decide
theorem test_hyp_enrol_full : (∀ i, i < 8 → (keyEnt (keyNode otherKeys) i).valid = true) ∧
    ∀ i, i < 8 → keyId (keyEnt (keyNode otherKeys) i).modulus ≠ keyId (bufBytes (keyNode otherKeys) 384) := by decide +kernel
theorem test_hyp_credential : let s := reg (keyNode fun _ => []) Off.FAB_NODE 0x80000080
    leAt (bufBytes s 424) 0 2 % 2 ^ 14 = nodeNum s ∧ served s pf0 Off.SEC_CMD = true ∧ s.sec.busy = false := by decide +kernel
theorem test_remove_key : keyEnt (after (.removeKey pf0 0) (keyNode fun _ => [(0, { valid := true, modulus := [7] })])) 0 = {} := by decide +kernel
theorem test_hyp_attest : rpair (reg up Off.SEC_ATTEST_ADDR_LO 64) Off.SEC_ATTEST_ADDR_LO = 64 ∧ up.hostq.pf0D3 = false ∧ 0 ∉ up.hostq.fnStopped ∧
    rpair up Off.SEC_ATTEST_ADDR_LO < 64 ∧ (reportHandles up).length ≤ 256 ∧ served up pf0 Off.SEC_CMD = true ∧ privileged up pf0 = true ∧
    up.sec.busy = false := by decide
theorem test_hyp_rng : alive (keyNode fun _ => []) = true ∧ (keyNode fun _ => []).sec.rng = .ok := by decide
theorem test_health_fail : (after .rngHealthFail (keyNode fun _ => [])).fault.st = .fenced := by decide

/-- A 64-byte descriptor of a kind with a record of `len` bytes at host address `addr`. -/
def recDesc (kind addr len : Nat) : Bytes := putLe 1 kind ++ zeros 23 ++ putLe 8 addr ++ putLe 8 len ++ zeros 24

/-- A fetched descriptor of the administrative ring, id 9. -/
def adminNode (bytes : Bytes) : State :=
  { up with hostq := { up.hostq with rings := [(4096, { st := .active })], fetched := [{ id := 9, ring := 4096, bytes := bytes }] } }

/-- Slice 1 exists and the random source works; context 5 in a state, its key slot in one. -/
def ctxNode (bytes : Bytes) (c : CtxState) (k : KeyState) : State :=
  let s := adminNode bytes
  { s with map := { s.map with slices := [(1, { enabled := true, banks := 1 })] }
           sec := { s.sec with rng := .ok, ctxs := if c = .free then [] else [(5, { st := c, slice := 1 })]
                               keys := if k = .empty then [] else [(5, { st := k, gen := 3 })] } }

/-- CONTEXT_CREATE's record for context 5, slice 1, tenant 0x11. -/
def createRec : Bytes := putLe 2 5 ++ putLe 2 1 ++ putLe 4 0x11 ++ zeros 24
theorem test_hyp_create : let s := ctxNode (recDesc 0x40 0x1000 32) .free .empty
    alive s = true ∧ (∃ d ∈ adminDesc s 9 0x40, d.recLen = 32 ∧ hostRead (descView s 9 [(0, [(0x1000, some createRec)])]) d.recAddr 32 = some createRec) ∧
      leAt createRec 0 2 % 4096 = 5 ∧ leAt createRec 2 1 % 16 = 1 ∧ (ctxOf s 5).st = .free ∧ (keySlot s 5).st = .empty ∧ sliceExists s 1 = true ∧
      s.sec.rng = .ok ∧ sliceExists s 2 = false ∧ (ctxOf (ctxNode [] .active .empty) 5).st ≠ .free := by decide +kernel
theorem test_create : let t := after (.contextCreate 9 [(0, [(0x1000, some createRec)])]) (ctxNode (recDesc 0x40 0x1000 32) .free .empty)
    (ctxOf t 5).st = .active ∧ (ctxOf t 5).tenant = 0x11 ∧ (keySlot t 5).st = .live ∧ t.hostq.fetched = [] := by decide +kernel
theorem test_hyp_remove : let s := ctxNode (recDesc 0x41 0x1000 8) .active .live
    alive s = true ∧ (∃ d ∈ adminDesc s 9 0x41, d.recLen = 8 ∧ hostRead (descView s 9 [(0, [(0x1000, some (putLe 8 5))])]) d.recAddr 8 = some (putLe 8 5)) ∧
      (ctxOf s (leAt (putLe 8 5) 0 2 % 4096)).st = .active := by decide +kernel
theorem test_hyp_scrub : let s := ctxNode [] .removing .retiring
    alive s = true ∧ (keySlot s 5).st = .retiring ∧ (ctxOf s 5).st = .removing ∧ slotWork s 5 = 0 ∧
      s.plait.waiting = [] ∧ s.plait.updateQ.length + (residueDeletes s 5).length ≤ 64 := by decide +kernel
theorem test_hyp_removed : let s := ctxNode [] .removing .scrubbing
    alive s = true ∧ (keySlot s 5).st = .scrubbing ∧ (ctxOf s 5).st = .removing ∧ residueBusy s 5 = false := by decide +kernel
theorem test_removed : (ctxOf (after (.contextRemoveDone 5) (ctxNode [] .removing .scrubbing)) 5).st = .free ∧
    keySlot (after (.contextRemoveDone 5) (ctxNode [] .removing .scrubbing)) 5 = { gen := 3 } := by decide +kernel
theorem test_hyp_erase : let s := ctxNode [] .active .live
    served s pf0 Off.SEC_CMD = true ∧ privileged s pf0 = true ∧ s.sec.busy = false ∧ setUp s = true ∧ s.sec.rng = .ok ∧
      ∀ e ∈ s.sec.ctxs, e.1 < 4096 := by decide +kernel
def erasingNode : State := { up with sec := { up.sec with busy := true, erasing := some (true, false, 0, 0), cred := [1] } }
theorem test_hyp_erase_done : alive erasingNode = true ∧ erasingNode.sec.erasing = some (true, false, 0, 0) ∧
    ∀ e ∈ erasingNode.sec.ctxs, e.2.st ≠ .removing := by decide
theorem test_erase_done : (after .eraseDone erasingNode).sec.cred = [] ∧ (after .eraseDone erasingNode).sec.busy = false := by decide +kernel

/-! ### The stage bank and the map -/

/-- The staging registers hold an entry that enables slice 1. -/
def stageNode (st : BankState) (bank : List StageEnt) : State :=
  let s := { up with map := { up.map with bankSt := st, bank := bank } }
  reg (reg (reg s Off.COMMIT_STAGE_ITEM 1) Off.COMMIT_STAGE_INDEX 1) Off.COMMIT_STAGE_VALUE_LO 1
def enable1 : StageEnt := { item := 1, index := 1, value := 1 }
theorem test_hyp_stage : served (stageNode .empty []) pf0 Off.COMMIT_CMD = true ∧ privileged (stageNode .empty []) pf0 = true ∧
    bankHeld (stageNode .checked []) = true ∧ bankHeld (stageNode .empty []) = false ∧ stagedEntry (stageNode .empty []) = enable1 ∧
    entryOk enable1 = true ∧ (bankAdd [] enable1).length ≤ 8192 ∧
    entryOk (stagedEntry (reg (stageNode .empty []) Off.COMMIT_STAGE_INDEX 16)) = false ∧ (stageNode .opened []).map.bankSt ≠ .committing := by decide +kernel
theorem test_stage_append : (after (.stageAppend pf0) (stageNode .empty [])).map.bank = [enable1] := by decide +kernel
def stageRec : Bytes := putLe 2 1 ++ zeros 2 ++ putLe 4 1 ++ putLe 8 1
theorem test_hyp_stage_write : let s := adminNode (recDesc 0x44 0x1000 16)
    alive s = true ∧ (∃ d ∈ adminDesc s 9 0x44, d.recLen ≠ 0 ∧ d.recLen % 16 = 0 ∧ hostRead (descView s 9 [(0, [(0x1000, some stageRec)])]) d.recAddr d.recLen = some stageRec) ∧
      bankHeld s = false ∧ ((chunks 16 stageRec).map parseEntry).all entryOk = true ∧
      (((chunks 16 stageRec).map parseEntry).foldl bankAdd s.map.bank).length ≤ 8192 ∧ chunks 16 stageRec ≠ [] := by decide +kernel
/-- Slices 1 and 2 both hold port 3 in the staged map. -/
def overlapBank : List StageEnt := [enable1, { item := 1, index := 2, value := 1 }, { item := 6, index := 1, value := 8 }, { item := 6, index := 2, value := 8 }]
theorem test_hyp_check : checkMap (stageNode .opened [enable1]) = none ∧ checkMap (stageNode .checked [enable1]) = none ∧
    (checkMap (stageNode .checked overlapBank)).isSome = true ∧ (stageNode .opened [enable1]).map.bankSt = .opened := by decide +kernel
theorem test_check_overlap : let t := after (.check pf0) (stageNode .opened overlapBank)
    t.map.status = St.MAP_OVERLAP ∧ t.map.infoKind = 5 ∧ t.map.infoIndex = 3 := by decide +kernel
theorem test_hyp_stage_check : let s := adminNode (recDesc 0x45 0 0)
    alive s = true ∧ (adminDesc s 9 0x45).isSome = true ∧ s.map.bankSt ≠ .committing ∧ checkMap s = none := by decide +kernel
theorem test_hyp_stage_commit : let s := { adminNode (recDesc 0x46 0 0) with map := { bankSt := .checked } }
    alive s = true ∧ (adminDesc s 9 0x46).isSome = true ∧ s.map.bankSt = .checked ∧ checkMap s = none := by decide +kernel
theorem test_hyp_apply : alive (stageNode .committing [enable1]) = true ∧ (stageNode .committing [enable1]).map.bankSt = .committing := by decide
theorem test_apply : let t := after .commitApply (stageNode .committing [enable1])
    t.map.gen = 1 ∧ (sliceOf t 1).enabled = true ∧ t.map.bank = [] ∧ t.map.older = [0] := by decide +kernel
theorem test_hyp_retired : 0 ∈ ({ up with map := { up.map with gen := 1, older := [0] } } : State).map.older ∧
    genWork { up with map := { up.map with gen := 1, older := [0] } } 0 = 0 := by decide

/-! ### Faults, fencing, groups, canaries -/

/-- FENCED with a cause, nothing fetched. -/
def fencedNode (cause : Nat) : State := { up with fault := { up.fault with st := .fenced, cause := cause } }
theorem test_hyp_fencing : served up pf0 Off.FAULT_CMD = true ∧ privileged up pf0 = true ∧ up.fault.busy = false ∧ up.fault.st ≠ .fenced ∧
    (fencedNode 0x20).fault.st = .fenced ∧ (∀ k ∈ (fencedNode 0x20).regs.badParity, (blockOwner k).1 ≠ 0) ∧ (fencedNode 0x20).fault.cause ≠ 0x31 ∧
    (fencedNode 0x20).fault.cause ≠ 0x32 ∧ (fencedNode 0x31).fault.cause = 0x31 ∧ served (fencedNode 0x31) pf0 Off.FAULT_CMD = true := by decide +kernel
theorem test_fence_unfence : (after (.fenceNode pf0) up).fault.st = .fenced ∧ (after (.unfenceNode pf0) (fencedNode 0x20)).fault.st = .run ∧
    (after (.unfenceNode pf0) (fencedNode 0x31)).fault.status = St.FAULT_CMD_INVALID := by decide +kernel
/-- Cluster 31, the last, fenced. -/
def fencedCluster : State := { up with attn := { up.attn with clusters := [(31, .fenced)] } }
theorem test_hyp_fence_unit : unitOk 2 31 = true ∧ unitFenced up 2 31 = false ∧ unitFenced fencedCluster 2 31 = true ∧ (2 : Nat) ≠ 6 ∧
    blockFails fencedCluster (unitBlock 2 31) = false ∧ hasEpoch 2 = true ∧ served fencedCluster pf0 Off.FAULT_CMD = true ∧
    fencedCluster.fault.busy = false := by decide +kernel
theorem test_fence_unit : unitFenced (after (.fenceUnit pf0 2 31) up) 2 31 = true ∧ unitFenced (after (.rejoinUnit pf0 2 31 true true true) fencedCluster) 2 31 = false ∧
    epochOf (after (.rejoinUnit pf0 2 31 true true true) fencedCluster) 2 31 = 1 ∧
    (after (.rejoinUnit pf0 2 31 true true false) fencedCluster).fault.status = St.REJOIN_FAILED := by decide +kernel
def epochNode : State := { fencedCluster with fault := { fencedCluster.fault with busy := true, rejoin := some (2, 31) } }
theorem test_hyp_epoch : alive epochNode = true ∧ epochNode.fault.rejoin = some (2, 31) ∧ unitFenced epochNode 2 31 = true := by decide
/-- Group 0 of k = 2 and r = 1: this node, 130, holds shard 2 (P), nodes 128 and 129 the data; context 5. -/
def groupNode (st : GroupState) (lost : Nat) : State :=
  let s := { up with sec := { up.sec with ctxs := [(5, { st := .active })] }, fault := { up.fault with groups := if st = .idle then [] else [(0, { st := st })] } }
  let s := reg (reg s (rkey Off.FAULT_GROUP_CFG 0) (7 + 2 * 2 ^ 16 + 2 ^ 21 + 2 * 2 ^ 23)) (rkey Off.FAULT_GROUP_CTX 0) (if st = .idle then 5 else 0x10005)
  let s := reg (reg (reg s (rkey Off.FAULT_GROUP_MEMBER 0) 128) (rkey Off.FAULT_GROUP_MEMBER 1) 129) (rkey Off.FAULT_GROUP_MEMBER 2) 130
  reg (reg s Off.FAB_NODE (130 + 2 ^ 31)) Off.FAULT_REBUILD lost
theorem test_hyp_activate : let s := groupNode .idle 0
    served s pf0 Off.FAULT_GROUP_CTX = true ∧ privileged s pf0 = true ∧ selNum s pf0 Off.FAULT_GROUP_SEL = 0 ∧ (grpOf s 0).st = .idle ∧
      groupOk s 0 5 = true ∧ groupOk s 0 6 = false := by decide +kernel
theorem test_activate : (grpOf (after (.groupActivate pf0 5) (groupNode .idle 0)) 0).st = .active ∧
    (after (.groupActivate pf0 6) (groupNode .idle 0)).fault.status = St.GROUP_INVALID := by decide +kernel
theorem test_hyp_rebuild : let s := groupNode .active 1
    served s pf0 Off.FAULT_CMD = true ∧ s.fault.busy = false ∧ (grpOf s 0).st = .active ∧ groupShapeOk s 0 (grpCtx s 0) = true ∧
      (lostShards s 0).length = grpR s 0 ∧ grpR s 0 < (lostShards (groupNode .active 3) 0).length ∧ groupShapeOk (groupNode .active 3) 0 5 = true := by decide +kernel
theorem test_rebuild_recv : (grpOf (after (.rebuildRecv pf0) (groupNode .active 1)) 0).st = .rebuilding ∧
    (after (.rebuildRecv pf0) (groupNode .active 3)).fault.status = St.REBUILD_FAILED := by decide +kernel
/-- The same node with a path entry of context 5 and node 0, in a board frame, to queue pair 7. -/
def sendNode : State :=
  let s := reg (groupNode .active 0) Off.QPE_PATH_BASE 0x10000000
  { s with qpe := { s.qpe with qps := [(7, { st := .ready, sqPfn := 0x10000002 })] },
           mem := { s.mem with cells := [(0x10000014 * 16384, 7), (0x10000014 * 16384 + 3, 0x80)], tags := [(0x10000014, { slot := nodeSlot })] } }
theorem test_hyp_rebuild_send : let entry := rf sendNode Off.QPE_PATH_BASE 0 32 + pathAt (grpCtx sendNode 0) (rf sendNode Off.FAULT_REBUILD 18 14) / 16384
    (grpOf sendNode 0).st = .active ∧ pathQp sendNode (grpCtx sendNode 0) (rf sendNode Off.FAULT_REBUILD 18 14) = some 7 ∧
      (qpOf sendNode 7).sqPfn ≠ entry ∧ (qpOf sendNode 7).sqTail < 256 ∧ (∀ e ∈ sendNode.mem.behind, e.1 / 128 ≠ entry) ∧ isBoard entry = true ∧
      pathQp (groupNode .active 0) 5 0 = none := by decide +kernel
theorem test_rebuild_send : (grpOf (after (.rebuildSend pf0) sendNode) 0).st = .sending ∧ (qpOf (after (.rebuildSend pf0) sendNode) 7).sq.length = 1 ∧
    (after (.rebuildSend pf0) (groupNode .active 0)).fault.status = St.NO_PATH := by decide +kernel
/-- A delta of shard 1, stream 9, layer 0, head 0, row 3, with one byte of content. -/
def deltaBody : Bytes := putLe 2 7 ++ putLe 1 1 ++ zeros 1 ++ putLe 4 9 ++ putLe 2 0 ++ putLe 1 0 ++ zeros 1 ++ putLe 4 3 ++ [0x55]
theorem test_hyp_delta : let s := groupNode .active 0
    alive s = true ∧ groupOfId s (leAt deltaBody 0 2) = some 0 ∧ (grpOf s 0).st = .active ∧ leAt deltaBody 2 1 < grpK s 0 ∧ grpShard s 0 = grpK s 0 ∧
      grpMember s 0 (leAt deltaBody 2 1) = 129 ∧ leAt deltaBody 4 4 ≠ 0xFFFFFFFF := by decide +kernel
/-- R401: coefficients of Q are powers of 2 in GF(256) with 0x11D; 2^8 is 0x1D. -/
theorem test_gf_power : gfPow 8 = 0x1D ∧ gfPow 1 = 2 := by decide +kernel
def shadowNode (st : NodeState) : State := { up with fault := { up.fault with st := st, shadow := { prim := [(7, 1, 2, {})] } } }
theorem test_hyp_shadow : served (shadowNode .run) pf0 Off.FAULT_CMD = true ∧ (shadowNode .run).fault.st = .run ∧ (shadowNode .shadow).fault.st = .shadow ∧
    (shadowNode .run).fault.busy = false ∧ privileged (shadowNode .run) pf0 = true ∧ (7, 1, 2, ({} : Partial)) ∈ (shadowNode .shadow).fault.shadow.prim := by decide +kernel
/-- Pattern 6 is due on core 127, with 100 units left. -/
def canaryNode : State :=
  reg { up with attn := { up.attn with clusters := [(31, .ready)] }, ledger := { up.ledger with remain := 100 }
                fault := { up.fault with canary := { due := [(127, 6)], next := 7 } } } Off.FAULT_CTRL 1
theorem test_hyp_canary : alive canaryNode = true ∧ rbit canaryNode Off.FAULT_CTRL 0 = true ∧
    (canaryNode.fault.canary.due.find? fun d => d.1 == 127) = some (127, 6) ∧ coreBusy canaryNode 127 = false ∧ braked canaryNode = false ∧
    coreFenced canaryNode 127 = false ∧ rf canaryNode Off.FAULT_CANARY_COST 0 16 ≤ canaryNode.ledger.remain := by decide +kernel
theorem test_canary_fails : coreFenced (after (.canaryDone 127 false) canaryNode) 127 = true ∧ (after .canaryDue canaryNode).fault.canary.next = 0 ∧
    (after .canaryDue canaryNode).fault.canary.due.length = 5 := by decide +kernel
theorem test_hyp_parity : let key := Off.LEDGER_BUDGET
    (true || rbit up Off.GLOBAL_PARITY_CTRL 0) = true ∧ rbit up Off.GLOBAL_PARITY_CTRL 0 = true ∧ hasParity key = true ∧
      (blockOwner key).1 = 0 ∧ hasParity (Off.PORT_CTRL 23) = true ∧ blockOwner (Off.PORT_CTRL 23) = (6, 23) := by decide +kernel
theorem test_parity_fences : (after (.paritySweep (some (Off.LEDGER_BUDGET, 1)) true) up).fault.st = .fenced ∧
    (portOf (after (.paritySweep (some (Off.PORT_CTRL 23, 1)) false) up) 23).fenced = true := by decide +kernel

/-! ### Register accesses -/

theorem test_hyp_views : let off := Off.FAULT_CANARY_COST
    served guarded pf0 off = true ∧ off < 2 ^ 24 ∧ off % 4 = 0 ∧ (regAt off).isSome = true ∧ (∀ r ∈ regAt off, isStatus r = false ∧ hasGuarded r = true) ∧
      perMaster off = false ∧ off ≠ Off.SEC_DATA ∧ off ≠ Off.GLOBAL_MGMT_RID ∧ off ≠ Off.FAULT_GROUP_CTX ∧ off ≠ Off.FAB_QUIESCE ∧
      parityKey guarded pf0 off ∉ guarded.regs.badParity ∧ privileged guarded (.pcie 1) = false := by decide +kernel
theorem test_hyp_views_locked (t : State) : lockedBits t pf0 Off.FAULT_CANARY_COST = 0 := rfl
theorem test_hyp_views_start (w : Nat) : startOf pf0 Off.FAULT_CANARY_COST w = none := rfl
theorem test_hyp_views_follow (t : State) : followWrite pf0 Off.FAULT_CANARY_COST t = ibiCheck t := rfl
/-- R444, the worked example: PORT_CTRL of PORT_7 reads 0x0A03; a set of bit 8 and a clear of bit 0 act on those bits alone. -/
def port7 : State := reg up (Off.PORT_CTRL 7) 0xA03
theorem test_views_example : Off.PORT_CTRL 7 = 0x51C008 ∧
    regWord (after (.registerWrite pf0 .set (Off.PORT_CTRL 7) 0x100 4 15) port7) (Off.PORT_CTRL 7) = 0xB03 ∧
    regWord (after (.registerWrite pf0 .clear (Off.PORT_CTRL 7) 0x800 4 15) port7) (Off.PORT_CTRL 7) = 0x203 := by decide +kernel
theorem test_status_example : let t := after (.statusRead pf0 Off.HOSTQ_STATUS 4) (raise up Off.HOSTQ_STATUS 1)
    t.out = [.readData 0x10001] ∧ (statusOf (after (.seqWriteBack pf0 Off.HOSTQ_STATUS 1) t) Off.HOSTQ_STATUS).hi = 0 ∧
      (statusOf (after (.seqWriteBack pf0 Off.HOSTQ_STATUS 1) up) Off.HOSTQ_STATUS).hi = 0 := by decide +kernel
theorem test_hyp_status : (∃ r ∈ regAt Off.HOSTQ_STATUS, isStatus r = true) ∧ Off.HOSTQ_STATUS < 2 ^ 24 ∧ served up pf0 Off.HOSTQ_STATUS = true ∧
    (0 : Nat) % 2 ^ 16 = (statusOf up Off.HOSTQ_STATUS).seq.toNat ∧
    (statusOf (after (.statusRead pf0 Off.HOSTQ_STATUS 4) up) Off.HOSTQ_STATUS).markPcie = true ∧
    (statusOf up Off.HOSTQ_STATUS).markPcie = false := by decide +kernel
theorem test_hyp_latch : let lo := Off.LEDGER_DEBIT_LO
    (∃ r ∈ regAt lo, isStatus r = false) ∧ classZero up pf0 lo = false ∧ pairValue up pf0 lo = some 0 ∧ served up pf0 lo = true ∧ lo < 2 ^ 24 ∧
      lo ≠ Off.GLOBAL_PARITY_ADDR ∧ lo ≠ Off.FAULT_SVC_DATA ∧ lo ≠ Off.SEC_DATA ∧ lo % 4 = 0 ∧ served up pf0 Off.GLOBAL_PARITY_ADDR = true ∧
      served up pf0 Off.FAULT_SVC_DATA = true := by decide +kernel
theorem test_latch : latchOf (after (.loReadLatch pf0 Off.LEDGER_DEBIT_LO 4) { up with ledger := { up.ledger with debits := 2 ^ 32 + 5 } }) pf0 Off.LEDGER_DEBIT_LO = 1 := by
  decide +kernel

/-! ### The sideband -/

theorem test_hyp_sideband : up.pins.por = true ∧ (∀ i, i < 2 → served up .sideband (Off.GLOBAL_ID + 4 * i) = true) ∧ Off.GLOBAL_ID % 4 = 0 ∧
    leAt [0x01, 0x02] 1 1 ≠ crc8 [0x01] ∧ up.sb.resp = none ∧ up.sb.dynAddr = none ∧ (after (.setdasa 0x3A 9) up).sb.dynAddr.isSome = true ∧
    (after (.sbWrite [1, 2]) up).sb.resp.isSome = true := by decide +kernel
/-- R456: a READ of one word answers status 0, the word and a CRC. -/
theorem test_sb_read : ((after (.sbRead (putLe 1 1 ++ putLe 4 (Off.LEDGER_BUDGET) ++ putLe 1 1 ++ putLe 1 (crc8 (putLe 1 1 ++ putLe 4 Off.LEDGER_BUDGET ++ putLe 1 1)))) up).sb.resp.map
    (·.take 5)) = some [0, 0x80, 0x0C, 0, 0] := by decide +kernel

/-! ### Images and attention -/

/-- One layer, one head of 32 elements in FP8, one variant of 10 units on core 0 with one merge of its partial, final. -/
def tinyImage : Image :=
  { geo := { layers := 1, hq := 1, hkv := 1, d := 32, kFmt := 4, vFmt := 4, maxLength := 4096 }
    sched := [{ op := 1, vCount := 1 }, { op := 2, vFirst := 1, vCount := 1 }]
    placement := [{ cls := 0, lo := 0, hi := 0, tiers := [0] }]
    variants := [{ batchLo := 1, batchHi := 1, bandMask := 0xFF, tierSet := 0xF, slots := 0, localPlan := 0, nSlots := 1, coreMap := 1, energy := 10 },
                 { step := 1, batchLo := 1, batchHi := 1, bandMask := 0xFF, tierSet := 0xF, coreMap := 1, energy := 7 }]
    shapes := [(0, [{ kvHead := 0, core := 0, count := 1, first := 0 }])]
    plans := [(0, [{ head := 0, level := 1, final := true, isLocal := true, inputs := [{ isLocal := true }] }])]
    groupSize := 1 }

/-- Slice 1 holds cluster 0, stack 0, channel 0 and Plait bank 0; context 3 is on it with ring 3 of PF0, and image 1 is loaded. -/
def workNode (fetched : List Desc) : State :=
  let s := { up with
    hostq := { up.hostq with rings := [(3, { st := .active }), (4096, { st := .active })], fetched := fetched }
    map := { up.map with slices := [(1, { enabled := true, clusters := 1, stackSet := 1, channels := 1, banks := 1, ports := 1 })] }
    sec := { up.sec with rng := .ok, ctxs := [(3, { st := .active, slice := 1, tenant := 0x11 })], keys := [(3, { st := .live, key := some 0 })] }
    attn := { up.attn with clusters := [(0, .ready)] }
    mem := { up.mem with stackSet := [(0, .ready)], channels := [(0, .ready)] }
    weft := { up.weft with handles := [(1, { st := .loaded, img := tinyImage })] }
    ledger := { up.ledger with remain := 100 } }
  reg s Off.WEFT_CTRL 1

/-- An ATTEND of stream 9 by image 1 under tag 0x77, attempt 2: query at 0x2000, rank group at 0x1000. -/
def attendBytes : Bytes :=
  putLe 1 1 ++ zeros 1 ++ putLe 1 1 ++ zeros 1 ++ putLe 4 9 ++ zeros 8 ++ putLe 2 0 ++ putLe 2 1 ++ putLe 4 0x77 ++ putLe 1 2 ++ putLe 1 0 ++
    putLe 1 1 ++ zeros 1 ++ putLe 4 0 ++ putLe 8 0x2000 ++ putLe 8 0x3000 ++ putLe 4 64 ++ zeros 4 ++ putLe 8 0x1000
def attendDesc : Desc := { id := 9, ring := 3, bytes := attendBytes }
def attendView (group : Nat) : HostView := [(0, [(0x1000, some (putLe 2 1 ++ zeros 6 ++ putLe 2 group)), (0x2000, some (zeros 128))])]
def withStream (s : State) : State := { s with tier := { s.tier with streams := [(9, { ctx := 3 })] } }
def attendNode : State := withStream (workNode [attendDesc])
theorem test_hyp_attend : alive attendNode = true ∧ findDesc attendNode 9 = some attendDesc ∧ attendDesc.kind = 1 ∧ descReady attendNode attendDesc = true ∧
    attendRefusal attendNode attendDesc = none ∧
    ((attendArgs (descView attendNode 9 (attendView 0)) attendDesc tinyImage.geo).toOption.any fun a => a.streams == [(9, 0)] && rankOk attendNode tinyImage a.group) = true ∧
    ((attendArgs (descView attendNode 9 (attendView 5)) attendDesc tinyImage.geo).toOption.any fun a => !rankOk attendNode tinyImage a.group) = true ∧
    (hostRead (descView attendNode 9 [(0, [(0x1000, some (zeros 8))])]) (attendDesc.addr 56) 8).any (fun c => leAt c 0 2 == 0) = true ∧
    streamStatus attendNode 3 9 = none ∧
    ((weftReq attendNode attendDesc (some [9])).any fun r => r.1.cls == 0 && pickVariant attendNode tinyImage r.1 r.2 == .take 0 10 false) = true ∧
    attendProgramOk tinyImage 0 = true ∧ mayAdmit attendNode 9 = true ∧ findStep attendNode 9 = none := by decide +kernel
/-- The variant is for batches of two. -/
def wrongBatch : State :=
  { attendNode with weft := { attendNode.weft with handles := [(1, { st := .loaded, img := { tinyImage with variants := [{ batchLo := 2, batchHi := 2 }] } })] } }
theorem test_hyp_no_variant : ((weftReq wrongBatch attendDesc (some [9])).any fun r => pickVariant wrongBatch (imageOf wrongBatch 1) r.1 r.2 == .noVariant) = true ∧
    attendRefusal wrongBatch attendDesc = none ∧ alive wrongBatch = true := by decide +kernel
/-- The step the ATTEND becomes. -/
def attending : State := after (.attend 9 (attendView 0)) attendNode
theorem test_attend_admits : attending.ledger.remain = 90 ∧ attending.hostq.fetched = [] ∧ tget 0 attending.attn.tags 0x77 = 3 ∧
    attending.weft.steps.map (·.variant) = [0] := by decide +kernel
theorem test_hyp_slot_fill : alive attending = true ∧ ((findStep attending 9).any fun u => u.kind == 1 && !u.filled && !(variantOf attending u).osier &&
    !(variantOf attending u).sparse && selectionsRun attending u && (u.streams.zipIdx.flatMap fun x => fillStream attending u x.2 x.1.entries) == [] &&
    remoteSlots { u with slots := [] } == []) = true := by decide +kernel
/-- The slots are filled; the step's one core may pass. -/
def passing : State := after (.slotFill 9) attending
theorem test_hyp_pass : ((findStep passing 9).any fun u => u.filled && (coresOf (variantOf passing u)).contains 0 && !u.coresDone.contains 0 &&
    !coreFenced passing 0 && !braked passing && !(variantOf passing u).osier && !awaitsPages passing u 0 &&
    (lostFrame passing (passFrames passing u 0) []).isNone && (coreRead passing u (coreBlocks passing u 0)).toOption.isSome) = true := by decide +kernel
/-- The same with a block in frame 5, which lies under the context's key and holds no page. -/
def badPage : State :=
  let s := { attendNode with tier := { attendNode.tier with streams := [(9, { ctx := 3, committed := [(0, 1)], entries := [(0, { pfn := 5, tier := 0, count := 1 })] })] },
                               mem := { attendNode.mem with tags := [(5, { slot := 3 })] } }
  after (.slotFill 9) (after (.attend 9 (attendView 0)) s)
theorem test_hyp_lost : ((findStep badPage 9).any fun u => u.filled && passFrames badPage u 0 == [5] &&
    lostFrame badPage (passFrames badPage u 0) [(5, true)] == some 5 && !awaitsPages badPage u 0) = true := by decide +kernel
theorem test_hyp_bad_page : ((findStep badPage 9).any fun u => !(coreRead badPage u (coreBlocks badPage u 0)).toOption.isSome) = true := by decide +kernel
/-- The core's partial, an empty one, has merged and its result is written. -/
def passed : State := after (.corePassEnd 9 0 []) passing
theorem test_hyp_attend_done : alive passed = true ∧ ((findStep passed 9).any fun u => u.kind == 1 && attendDone passed u) = true := by decide +kernel
theorem test_attend_completes : (after (.attendComplete 9) passed).weft.steps = [] ∧
    ((after (.attendComplete 9) passed).out.filterMap fun o => match o with
      | .completion r _ c _ _ => some (r, c.status, c.flags)
      | _ => none) = [(3, 0, 2)] := by decide +kernel
theorem test_hyp_wait : let s := reg attendNode Off.WEFT_WAIT_LIMIT 10
    findDesc s 9 = some attendDesc ∧ 1 ≤ attendDesc.kind ∧ attendDesc.kind ≤ 7 ∧ attendDesc.ring ≠ adminRing ∧ descReady s attendDesc = true ∧
      rf s Off.WEFT_WAIT_LIMIT 0 16 ≠ 0 := by decide +kernel

/-- A 64-byte image that is none, for a load into handle 7 on the administrative ring. -/
def loadNode (h : Tbl Handle) (bytes : Bytes) : State :=
  let s := workNode [{ id := 9, ring := 4096, bytes := bytes }]
  { s with weft := { s.weft with handles := h } }
/-- An administrative descriptor that names handle 7. -/
def handleDesc (kind : Nat) : Bytes := putLe 1 kind ++ zeros 1 ++ putLe 1 7 ++ zeros 21 ++ putLe 8 0x1000 ++ putLe 8 64 ++ zeros 24
theorem test_hyp_load : let s := loadNode [] (handleDesc 0x42)
    alive s = true ∧ (∃ d ∈ findDesc s 9, d.kind = 0x42 ∧ descReady s d = true ∧ loadWaits s d = false ∧ d.handle = 7 ∧ 64 ≤ d.recLen ∧ d.recLen ≤ 2 ^ 31 ∧
      (hostRead (descView s 9 [(0, [(0x1000, some (zeros 64))])]) d.recAddr d.recLen).isSome = true) ∧ (handleOf s 7).st = .free := by decide +kernel
def loadingNode (code : Nat) (tables : List ImgTable) : State :=
  loadNode [(7, { st := .loading, img := { tables := tables }, loading := some (9, code, 4, 2) })] (handleDesc 0x42)
theorem test_hyp_load_complete : let s := loadingNode 0 [{ bytes := [1] }]
    (findDesc s 9).isSome = true ∧ (handleOf s 7).loading = some (9, 0, 4, 2) ∧ (bindTables s [] (handleOf s 7).img.tables).toOption.isSome = true ∧
      (handleOf (loadingNode St.WEFT_DIGEST []) 7).loading = some (9, St.WEFT_DIGEST, 4, 2) ∧ St.WEFT_DIGEST ≠ 0 := by decide +kernel
theorem test_load_complete : (handleOf (after (.imageLoadComplete 7) (loadingNode 0 [{ bytes := [1] }])) 7).st = .loaded ∧
    (tslotOf (after (.imageLoadComplete 7) (loadingNode 0 [{ bytes := [1] }])) 0).gen = 1 ∧
    (after (.imageLoadComplete 7) (loadingNode St.WEFT_DIGEST [])).weft.errSection = 4 := by decide +kernel
theorem test_hyp_unload : let s := loadNode [(7, { st := .loaded })] (handleDesc 0x43)
    (∃ d ∈ findDesc s 9, d.kind = 0x43 ∧ descReady s d = true ∧ d.handle = 7) ∧ (handleOf s 7).st = .loaded ∧
      (handleOf (after (.imageUnload 9) s) 7).st = .retiring ∧ handleSteps (after (.imageUnload 9) s) 7 = 0 := by decide +kernel
def drainingSlot : State := { up with weft := { up.weft with slots := [(7, { st := .draining, gen := 3 })] } }
theorem test_hyp_slot_free : alive drainingSlot = true ∧ (tslotOf drainingSlot 7).st = .draining ∧ slotPages drainingSlot 7 + slotInflight drainingSlot 7 = 0 := by decide +kernel
theorem test_slot_keeps_generation : tslotOf (after (.tableSlotFree 7) drainingSlot) 7 = { gen := 3 } := by decide +kernel

/-- An empty partial record of head 0 for slot 0 of the level 1 merge of tag 0x77 and an attempt, d = 32. -/
def emptyRecord (attempt : Nat) : Bytes := ({} : Partial).record 0x77 attempt 0 32 5 0 1
theorem test_hyp_partial_held : (rimSlots attending (clusterKey 0 0)).length < 256 ∧ attending.fault.st = .run ∧ alive attending = true ∧ (
    let r := parseRecord (emptyRecord 3)
    r.lengthOk && r.crcOk && r.flagsOk && clusterSt attending 0 == .ready && decide (tget 0 attending.attn.tags r.tag ≤ r.attempt + 1) &&
      (stepOf attending r.tag r.attempt).isNone && !slotFilled attending 0 { tag := r.tag, attempt := r.attempt, head := r.head, level := r.level, slot := r.slot }) = true := by
  decide +kernel
theorem test_hyp_partial_placed : (let r := parseRecord (emptyRecord 2)
    r.lengthOk && r.crcOk && r.flagsOk && (stepOf attending r.tag r.attempt).any fun u => u.streams.length == 1 &&
      (entryAt attending u 0 r.head r.level).any (fun e => decide (r.slot < e.inputs.length) && !hasMerged u 0 e) && r.d == (imageOf attending u.handle).geo.d) = true := by
  decide +kernel
theorem test_partial_merges : (after (.partialRec 0 0 (emptyRecord 2)) attending).weft.steps.map (·.merged) = [[(0, 0, 1, 0, 0)]] ∧
    (rimSlots (after (.partialRec 0 0 (emptyRecord 3)) attending) 0).length = 1 ∧
    cnt (after (.partialRec 0 0 [0]) attending) (Off.ATTN_DROP_BAD 0) = 1 := by decide +kernel
theorem test_hyp_partial_bad : (parseRecord [0]).lengthOk = false ∧ clusterSt attending 31 ≠ .ready ∧ (7 : Nat) ≤ 7 ∧ (3 : Nat) ≤ 3 := by decide +kernel
theorem test_hyp_timeouts : stepOf attending 0x77 3 = none ∧ ((findStep attending 9).any fun u => u.kind == 1 && (openEntry attending u 0).isSome) = true := by decide +kernel
theorem test_merge_timeout : (after (.mergeTimeout 9 0) attending).hostq.faulted = [(3, 0)] ∧
    (after (.mergeTimeout 9 0) attending).fault.log.map (·.source) = [0x13] := by decide +kernel
def remoteNode : State :=
  { attendNode with qpe := { attendNode.qpe with qps := [(4, { st := .ready, ctx := 3, peer := 5 })] } }
theorem test_hyp_remote : (qpOf remoteNode 4).st = .ready ∧ braked remoteNode = false ∧ remoteNode.fault.st = .run ∧ alive remoteNode = true ∧
    ((streamAt remoteNode ({ ring := 3, bytes := attendBytes.take 64 } : Desc).stream).any fun x => x.ctx == 3 && x.st == .owned) = true := by decide +kernel

/-! ### Appends, frames, page moves -/

/-- An APPEND_KV of one position of layer 0 to the new stream 9, from BF16 rows at 0x2000 and 0x2100. -/
def appendBytes : Bytes :=
  putLe 1 2 ++ zeros 1 ++ putLe 1 1 ++ zeros 1 ++ putLe 4 9 ++ zeros 8 ++ putLe 2 0 ++ putLe 1 0 ++ putLe 1 1 ++ putLe 4 0 ++ putLe 4 1 ++ zeros 4 ++
    putLe 8 0x2000 ++ putLe 8 0x2100 ++ zeros 16
def appendDesc : Desc := { id := 9, ring := 3, bytes := appendBytes }
/-- The keys are 1.0 each, the values 0. -/
def appendView : HostView := [(0, [(0x2000, some ((List.replicate 32 [(0x80 : Byte), 0x3F]).flatten)), (0x2100, some (zeros 64))])]
/-- Board channel 0 holds 1 GiB; context 3 may use `q` frames of each tier. -/
def poolNode (fetched : List Desc) (q : Nat) : State :=
  let s := workNode fetched
  let s := { s with mem := { s.mem with gib := [(0, 1)] } }
  reg (reg s (rkey Off.TIER_QUOTA_HBM 3) q) (rkey (Off.TIER_QUOTA_HBM + 4) 3) q
def appendNode : State := poolNode [appendDesc] 100
def appended : State := after (.appendKv 9 appendView [] []) appendNode
theorem test_hyp_append : alive appendNode = true ∧ findDesc appendNode 9 = some appendDesc ∧ appendDesc.kind = 2 ∧ descReady appendNode appendDesc = true ∧
    appendRefusal appendNode appendDesc = none ∧ (appendIn (descView appendNode 9 appendView) appendDesc (imageOf appendNode appendDesc.handle).geo).isSome = true ∧
    dispatchOpen appendNode = true ∧ (schedOf (imageOf appendNode appendDesc.handle) 2 (appendStream appendNode appendDesc).cls (appendDesc.n 16 2)).isSome = true ∧
    ((appendPlan appendNode appendDesc).toOption.any fun p => p.code == 0 && p.blocks == [(0, 0)] && p.tables == [0, 131072, 262144] &&
      (reserveAppend appendNode appendDesc p []).any fun x => x.1 == [0x10000000, 0x10000001, 0x10000002] && x.2.1 == [0, 1] &&
        (remoteParts (appendStream x.2.2 appendDesc) 0 p.blocks).isEmpty) = true ∧ findStep appendNode 9 = none ∧
    ((weftReq appendNode appendDesc (some [9])).any fun r => pickVariant appendNode tinyImage r.1 r.2 == .take 1 7 false) = true ∧
    mayAdmit appendNode 9 = true ∧ dataGroup appendNode 3 = none := by decide +kernel
/-- R65: tables of three frames do not fit a board quota of two; the quota does not fit two frames of HBM. -/
theorem test_hyp_append_quota : (match appendPlan (poolNode [appendDesc] 2) appendDesc with
    | .error c => c == St.QUOTA_EXCEEDED
    | .ok _ => false) = true ∧ appendRefusal (poolNode [appendDesc] 2) appendDesc = none ∧ dispatchOpen (poolNode [appendDesc] 2) = true := by decide +kernel
theorem test_append : appended.ledger.remain = 93 ∧ appended.tier.streams = [] ∧ appended.hostq.fetched = [] ∧
    (appended.weft.steps.map fun u => (u.started, u.reserve.length, u.newEntries.map fun e => (e.1, e.2.pfn, e.2.count))) = [(true, 5, [(0, 0, 1)])] := by
  decide +kernel
/-- The stream has one position, in frame 5; the frame's read is uncorrectable. -/
def moreDesc : Desc := { appendDesc with bytes := appendBytes.take 20 ++ putLe 4 1 ++ appendBytes.drop 24 }
def moreNode : State :=
  let s := poolNode [moreDesc] 100
  { s with tier := { s.tier with streams := [(9, { ctx := 3, committed := [(0, 1)], entries := [(0, { pfn := 5, tier := 0, count := 1 })] })] }
           mem := { s.mem with tags := [(5, { slot := 3 })] } }
theorem test_hyp_append_lost : findDesc moreNode 9 = some moreDesc ∧ appendRefusal moreNode moreDesc = none ∧ mayAdmit moreNode 9 = true ∧
    ((appendPlan moreNode moreDesc).toOption.any fun p => (reserveAppend moreNode moreDesc p []).isSome &&
      lostFrame moreNode (appendFrames (appendStream moreNode moreDesc) 0 (appendBlocks tinyImage.geo moreDesc)) [(5, true)] == some 5) = true ∧
    ((weftReq moreNode moreDesc (some [9])).any fun r => pickVariant moreNode tinyImage r.1 r.2 == .take 1 7 false) = true := by decide +kernel
theorem test_append_lost : let t := after (.appendKv 9 appendView [] [(5, true)]) moreNode
    t.weft.steps = [] ∧ (t.fault.log.map fun r => (r.cls, r.source, r.detail)) = [(1, 0x10, 5)] := by decide +kernel
theorem test_hyp_commit : alive appended = true ∧ ((findStep appended 9).any fun u => u.kind == 2 && u.started && u.deltas == 0 &&
    (commitRefusal appended u).isNone) = true ∧ braked appended = false := by decide +kernel
def committed : State := after (.appendCommit 9) appended
/-- The same with a page of no elements in frame 0, and no byte of the table frames. -/
def page0 : Bytes := buildPage { fmt := 4, vFmt := 4, stream := 9, ctx := 3, count := 1 } [] [] []
def paged : State := { committed with mem := { committed.mem with cells := memWrite [] 0 page0 } }
/-- R57: the entry of block 1 stands in the leaf table. -/
theorem test_table_frames : (let x := (streamAt paged 9).getD {}
    let t := writeTables paged 3 x { x with entries := x.entries ++ [(1, { pfn := 7, tier := 0, count := 2 })] }
    memRead t.mem.cells (frameAddr 0x10000002 + 16) 12) = putLe 4 7 ++ putLe 4 0xFFFFFFFF ++ putLe 2 0 ++ [0x02, 0x00] := by decide +kernel
theorem test_commit : ((streamAt committed 9).any fun x => x.ctx == 3 && x.len 0 == 1 && (x.entry 0).pfn == 0 && (x.entry 0).count == 1) = true ∧
    committed.weft.steps = [] ∧ tfind committed.tier.frames 1 = none ∧ (tfind committed.tier.frames 0).map (·.use) = some .page := by decide +kernel
/-- The stream has grown since the append was admitted. -/
theorem test_hyp_commit_gap : ((findStep appended 9).any fun u =>
    commitRefusal { appended with tier := { appended.tier with streams := [(9, { ctx := 3, committed := [(0, 4)] })] } } u == some St.POSITION_GAP) = true := by
  decide +kernel
/-- Frames 5 and 6 are old, the one until step 9 has ended, the other at once; frame 7 waits for its scrub. -/
def oldNode : State :=
  { appended with
    tier := { appended.tier with old := [{ frames := [5], waits := [9] }, { frames := [6], waits := [8] }], scrub := [7]
                                 frames := [(5, { use := .old }), (6, { use := .old, retired := true })] }
    mem := { appended.mem with cells := [(7 * 16384, 0xAA), (8 * 16384, 0xBB)], tags := [(7, { slot := 3 })] } }
theorem test_hyp_frames : alive oldNode = true ∧ (oldNode.tier.old[0]?.any fun o => o.waits.any fun i => (findStep oldNode i).isSome) = true ∧
    (oldNode.tier.old[1]?.any fun o => o.waits.all fun i => (findStep oldNode i).isNone) = true ∧ 7 ∈ oldNode.tier.scrub := by decide +kernel
theorem test_frames : (after (.frameRelease 0) oldNode).tier.old.length = 2 ∧ (after (.frameRelease 1) oldNode).tier.retired = [6] ∧
    (after (.frameRelease 1) oldNode).tier.scrub = [7] ∧ (after (.scrubDone 7) oldNode).mem.cells = [(8 * 16384, 0xBB)] := by decide +kernel
/-- A PAGE_MOVE of stream 9, block 0 of layer 0 and head 0, or of a run of two frames at 4. -/
def moveBytes (op : Nat) : Bytes :=
  putLe 1 5 ++ zeros 3 ++ putLe 4 9 ++ zeros 8 ++ putLe 1 op ++ putLe 1 (if op = 0 then 1 else 0) ++ zeros 10 ++
    putLe 4 (if op = 1 ∨ op = 2 then 4 else 0) ++ putLe 4 (if op = 1 ∨ op = 2 then 2 else 0) ++ zeros 28
def moveDesc (op : Nat) : Desc := { id := 9, ring := 3, bytes := moveBytes op }
def moveNode (op : Nat) : State :=
  let s := poolNode [moveDesc op] 100
  let s := { s with tier := { s.tier with streams := [(9, { ctx := 3, committed := [(0, 1)], entries := [(0, { pfn := 5, tier := 0, count := 1 })] })]
                                          frames := [(5, { ctx := 3, use := .page })], dirty := [(5, 1), (6, 1)] } }
  reg s (Off.WEFT_KIND_COST_0 + 8) 0x10002
theorem test_hyp_move : ∀ op ∈ [0, 1, 2, 3], alive (moveNode op) = true ∧ findDesc (moveNode op) 9 = some (moveDesc op) ∧ findStep (moveNode op) 9 = none ∧
    (moveDesc op).kind = 5 ∧ (moveDesc op).op = op ∧ descReady (moveNode op) (moveDesc op) = true ∧ moveRefusal (moveNode op) (moveDesc op) = none ∧
    mayAdmit (moveNode op) 9 = true ∧ portion (moveNode op) (moveDesc op) (moveItems (moveDesc op)) true = some (moveItems (moveDesc op), 2 + moveItems (moveDesc op)) := by
  decide +kernel
theorem test_hyp_move_lost : lostFrame (moveNode 0) (((spanOf (moveDesc 0)).blocks [(0, { pfn := 5, tier := 0, count := 1 })] 0 1).flatMap fun b => entryFrames b.2)
    [(5, true)] = some 5 := by decide +kernel
theorem test_flush : (after (.flush 9) (moveNode 1)).tier.dirty = [(6, 1)] ∧ (after (.flush 9) (moveNode 1)).ledger.remain = 96 := by decide +kernel
theorem test_free : (after (.free 9) (moveNode 3)).tier.streams = [] ∧ (after (.free 9) (moveNode 3)).tier.scrub = [5] := by decide +kernel
theorem test_hyp_move_end : ((findStep (after (.flush 9) (moveNode 1)) 9).any fun u => u.kind == 5 && u.left == 0 && u.deltas == 0 && u.desc.op == 1) = true := by
  decide +kernel
/-- The MOVE of the page that the append above committed, from HBM to the board. -/
def moving : State :=
  let s := { paged with hostq := { paged.hostq with fetched := [moveDesc 0] } }
  after (.move 9 [] []) (reg s (Off.WEFT_KIND_COST_0 + 8) 0x10002)
theorem test_move : (moving.weft.steps.map fun u => (u.left, u.deltas, u.newEntries.map fun e => (e.1, e.2.pfn, e.2.tier))) = [(0, 0, [(0, 0x10000003, 1)])] ∧
    moving.tier.streams = committed.tier.streams ∧
    ((streamAt (after (.pageMoveStepEnd 9) moving) 9).any fun x => (x.entry 0).pfn == 0x10000003 && (x.entry 0).tier == 1) = true := by decide +kernel
/-- The flush of a run of region 0 of stack 24. -/
def regionFlush : State :=
  let d : Desc := { id := 9, ring := 3, bytes := (moveBytes 1).take 28 ++ putLe 4 (24 * 2 ^ 22) ++ (moveBytes 1).drop 32 }
  after (.flush 9) { moveNode 1 with hostq := { (moveNode 1).hostq with fetched := [d] } }
theorem test_hyp_flush_end : ((findStep regionFlush 9).any fun u => u.kind == 5 && u.left == 0 && u.deltas == 0 && u.desc.op == 1 && u.regions == [(0, 0, 0)]) = true ∧
    (regionSt (after (.pageMoveStepEnd 9) regionFlush) 0).returned = true := by decide +kernel
theorem test_hyp_tier_flush : served up pf0 Off.TIER_FLUSH_CTRL = true ∧ privileged up pf0 = true := by decide
theorem test_tier_flush : let s := reg (reg { up with tier := { up.tier with dirty := [(4, 1), (5, 3), (6, 1)] } } Off.TIER_FLUSH_BASE 4) Off.TIER_FLUSH_COUNT 2
    (after (.tierFlush pf0 false) s).tier.dirty = [(6, 1)] ∧ (after (.tierFlush pf0 false) s).tier.flushBusy = true ∧
      tierFlushHeld (after (.tierFlush pf0 false) s) = false ∧ (after .tierFlushDone (after (.tierFlush pf0 false) s)).tier.flushBusy = false := by decide +kernel
/-- Region 0 of stack 24, which a run of step 8 holds; frame 24 * 2^22 of it waits for its scrub. -/
def heldRun : State := { up with osier := { up.osier with regions := [(0, { run := some 8 })] }, tier := { up.tier with scrub := [24 * 2 ^ 22], flushBusy := true } }
theorem test_hyp_held : frameHeld heldRun (24 * 2 ^ 22) = true ∧ regionHeld heldRun 0 = true ∧ alive heldRun = true ∧
    tierFlushHeld (reg (reg heldRun Off.TIER_FLUSH_BASE (24 * 2 ^ 22)) Off.TIER_FLUSH_COUNT 1) = true := by decide +kernel
/-- FLUSH_INVALIDATE of frames 4 and 5, of which a unit has written line 0 of frame 5: a line that is clean in the cache. -/
def staleNode : State :=
  { moveNode 2 with tier := { (moveNode 2).tier with dirty := [] }, mem := { (moveNode 2).mem with behind := [(640, List.replicate 128 0xAB)] } }
theorem test_stale : isDirty staleNode 640 = false ∧ memByte (after (.flushInvalidate 9) staleNode).mem.cells (640 * 128 + 127) = 0xAB ∧
    (after (.flushInvalidate 9) staleNode).mem.behind = [] := by decide +kernel
/-- An append and a MOVE that wait for remote pages. -/
theorem test_hyp_awaits : findDesc { appendNode with hostq := { appendNode.hostq with fetched := [] }, weft := { appendNode.weft with steps := [{ desc := appendDesc, kind := 2, awaits := [(0, 0)] }] } } 9 = none ∧
    ((findStep { moveNode 0 with weft := { (moveNode 0).weft with steps := [{ desc := moveDesc 0, kind := 5, awaits := [(0, 0)] }] } } 9).any fun u =>
      u.left == 0 && u.deltas == 0 && u.desc.op == 0 && !u.awaits.isEmpty) = true := by decide +kernel

/-! ### The Plait store and prefixes -/

def abEntry (key prio value : Nat) : PEntry := { key := BitVec.ofNat 128 key, prio := prio, value := BitVec.ofNat 48 value, owner := 3, kind := 1 }
def plaitOp (kind : PKind) (key : Nat) : POp :=
  { kind := kind, key := BitVec.ofNat 128 key, mask := BitVec.allOnes 128, banks := 3, owner := 3, ekind := 1, prio := 5, anyPrio := true, value := 9 }
/-- Banks 0 and 1; the queues of the store hold what is given. -/
def plaitNode (searches updates : List POp) : State :=
  { up with plait := { up.plait with banks := [(0, { placed := [abEntry 7 4 1, abEntry 7 6 2] }), (1, { placed := [abEntry 7 4 3] })]
                                     searchQ := searches, updateQ := updates } }
theorem test_hyp_plait_command : served up pf0 Off.PLAIT_CMD = true ∧ privileged up pf0 = true ∧ up.plait.busy = false ∧
    rf up Off.PLAIT_CMD_OPT 1 2 ≠ 0 ∧ rf (reg up Off.PLAIT_CMD_OPT 0) Off.PLAIT_CMD_OPT 1 2 = 0 := by decide +kernel
theorem test_plait_insert_kind : (after (.plaitInsert pf0 3 5) (reg up Off.PLAIT_CMD_OPT 0)).plait.res.status = 5 ∧
    ((after (.plaitInsert pf0 3 5) (reg up Off.PLAIT_CMD_OPT 2)).plait.updateQ.map fun o => (o.owner, o.prio)) = [(3, 5)] := by decide +kernel
theorem test_hyp_search : let s := plaitNode [plaitOp .search 7] []
    alive s = true ∧ s.plait.updateQ = [] ∧ (plaitOp .search 7).banks ≠ 0 ∧
      ((plaitOp .search 7).bankList.flatMap (bankMatches s (plaitOp .search 7))).all (fun x => x.e.parityOk) = true ∧
      ((plaitOp .search 7).bankList.flatMap (bankMatches s (plaitOp .search 7))).length = 3 := by decide +kernel
/-- R230: of two matches of priority 4 the one of the lower bank. -/
theorem test_search : ((after .plaitIssue (plaitNode [plaitOp .search 7] [])).plait.inflight.map fun r => (r.hit, r.multiple, r.bank, r.pos, r.value)) =
    [(true, true, 0, 0, 1)] := by decide +kernel
theorem test_hyp_upset : let s := after (.plaitParitySweep 0 { pos := 9, upsets := [(0, 0)] }) (plaitNode [plaitOp .search 7] [])
    ((ranked s (plaitOp .search 7)).head?.any fun x => x.bank == 0 && x.pos == 0 && !x.e.parityOk && decide ((bankOf s x.bank).placed.length ≤ 65536)) = true ∧
      ((after .plaitIssue s).plait.inflight.map fun r => r.hit) = [false] := by decide +kernel
/-- A full search queue: the command waits, and takes the room that an issue leaves. -/
def fullQueue : State := { plaitNode (List.replicate 64 (plaitOp .search 7)) [] with plait := { (plaitNode [] []).plait with searchQ := List.replicate 64 (plaitOp .search 7) } }
theorem test_waiting : (after (.plaitSearch pf0 3) fullQueue).plait.waiting.length = 1 ∧ fullQueue.plait.waiting = [] ∧
    (after .plaitIssue (after (.plaitSearch pf0 3) fullQueue)).plait.searchQ.length = 64 := by decide +kernel
theorem test_hyp_insert : let s := plaitNode [] [plaitOp .insert 8]
    s.plait.searchQ = [] ∧ (plaitOp .insert 8).banks ≠ 0 ∧ stalls s (plaitOp .insert 8) = none ∧ insertBank s (plaitOp .insert 8) = some 1 := by decide +kernel
theorem test_insert : let t := after .plaitIssue (plaitNode [] [plaitOp .insert 8])
    (bankOf t 1).staged.head? = some (some { abEntry 8 5 9 with value := 9 }) ∧ (bankOf t 1).work = [.place 0] ∧ t.plait.updates = 1 := by decide +kernel
theorem test_hyp_delete : stalls (plaitNode [] [plaitOp .delete 7]) (plaitOp .delete 7) = none ∧ (plaitOp .delete 7).anyPrio = true := by decide +kernel
theorem test_delete : ((after .plaitIssue (plaitNode [] [plaitOp .delete 7])).plait.inflight.map fun r => (r.status, r.gone)) = [(0, [1, 2, 3])] := by decide +kernel
/-- Bank 2 has an entry of priority 5 to place among 4 and 6, or a gap to close. -/
def shiftNode (w : ShiftWork) : State :=
  { up with plait := { up.plait with banks := [(2, { placed := [abEntry 7 4 1, { abEntry 7 6 2 with valid := false, gap := 4 }, abEntry 7 7 3],
                                                     staged := [none, some (abEntry 8 5 9)], work := [w] })] } }
theorem test_hyp_shift : (bankOf (shiftNode (.place 1)) 2).work = [.place 1] ∧ ((bankOf (shiftNode (.place 1)) 2).staged.getD 1 none).isSome = true ∧
    ((bankOf (shiftNode (.place 1)) 2).placed.map (·.prio)) = [4, 6, 7] ∧ (bankOf (shiftNode (.close 4)) 2).work = [.close 4] := by decide +kernel
theorem test_shift : ((bankOf (after (.shiftDone 2) (shiftNode (.place 1))) 2).placed.map (·.prio)) = [4, 5, 6, 7] ∧
    ((bankOf (after (.shiftDone 2) (shiftNode (.close 4))) 2).placed.map (·.prio)) = [4, 7] := by decide +kernel
def parityNode : State :=
  reg { up with plait := { up.plait with banks := [(2, { placed := [{ abEntry 7 4 1 with parityOk := false }] })] } } Off.PLAIT_CTRL 2
theorem test_hyp_sweep : rbit parityNode Off.PLAIT_CTRL 1 = true ∧ (bankOf parityNode 2).work = [] ∧
    ((bankOf parityNode 2).placed[0]?.any fun e => e.valid && !e.parityOk) = true := by decide +kernel
theorem test_sweep : (bankOf (after (.plaitParitySweep 2 { pos := 0 }) parityNode) 2).placed.map (·.valid) = [false] := by decide +kernel
theorem test_hyp_result : let s := { plaitNode [] [] with plait := { busy := true, inflight := [{ hit := true, value := 6 }] } }
    s.plait.inflight.head?.any (fun r => r.op.src == .regs) = true ∧ (after .plaitResult s).plait.busy = false ∧ (after .plaitResult s).plait.res.value = 6 := by
  decide +kernel

/-- A prefix descriptor of one key at 0x2000: PREFIX_LOOKUP for the new stream 9, PUBLISH of its block 0, or UNPUBLISH. -/
def prefixBytes (kind op : Nat) : Bytes :=
  putLe 1 kind ++ zeros 1 ++ putLe 1 1 ++ zeros 1 ++ putLe 4 9 ++ zeros 8 ++ putLe 1 op ++ zeros 3 ++ putLe 4 0 ++ putLe 4 1 ++ zeros 4 ++ putLe 8 0x2000 ++ zeros 24
def prefixDesc (kind op : Nat) : Desc := { id := 9, ring := 3, bytes := prefixBytes kind op }
def prefixView : HostView := [(0, [(0x2000, some (putLe 16 0xABCD))])]
def prefixNode (kind op : Nat) : State :=
  let s := poolNode [prefixDesc kind op] 100
  let s := { s with tier := { s.tier with streams := if kind = 3 then [] else [(9, { ctx := 3, committed := [(0, 64)], entries := [(0, { pfn := 5, tier := 0, count := 64 })] })] } }
  reg (reg (reg s Off.PLAIT_CTRL 1) Off.WEFT_KIND_COST_0 0x10002) (Off.WEFT_KIND_COST_0 + 4) 0x10002
theorem test_hyp_prefix : ∀ k ∈ [(3, 0), (4, 0), (4, 1)], let s := prefixNode k.1 k.2
    let d := prefixDesc k.1 k.2
    alive s = true ∧ findDesc s 9 = some d ∧ findStep s 9 = none ∧ d.kind = k.1 ∧ descReady s d = true ∧ prefixCount d = 1 ∧
      hostRead (descView s 9 prefixView) (d.addr 32) 16 = some (putLe 16 0xABCD) ∧ portion s d 1 true = some (1, 3) ∧ mayAdmit s 9 = true := by decide +kernel
theorem test_hyp_prefix_kinds : lookupRefusal (prefixNode 3 0) (prefixDesc 3 0) = none ∧ publishRefusal (prefixNode 4 0) (prefixDesc 4 0) = none ∧
    (prefixDesc 4 0).op = 0 ∧ prefixShared (prefixNode 4 1) (prefixDesc 4 1) = none ∧ (prefixDesc 4 1).op = 1 := by decide +kernel
/-- The lookup's search misses, and it completes with no block; the publish makes a record and inserts its key. -/
theorem test_lookup_misses : let t := after .plaitResult (after .plaitIssue (after (.prefixLookup 9 prefixView) (prefixNode 3 0)))
    t.weft.steps = [] ∧ (t.out.any fun o => match o with
      | .completion 3 _ c _ _ => c.status == 0
      | _ => false) = true := by decide +kernel
theorem test_publish : let s := after .plaitResult (after .plaitIssue (after (.publish 9 prefixView []) (prefixNode 4 0)))
    (s.plait.updateQ.map fun o => (o.kind == .insertUnique, o.value.toNat)) = [(true, 0)] ∧ (pfxOf s 0).refs = 2 ∧
      ((streamAt s 9).any fun x => (x.entry 0).shared) = false ∧ ((findStep s 9).any fun u => u.newEntries.any fun e => e.2.shared) = true := by decide +kernel

/-! ### Handoff -/

/-- A HANDOFF of the blocks of stream 9 to pool 2 of node 5. -/
def handBytes : Bytes := putLe 1 5 ++ zeros 3 ++ putLe 4 9 ++ zeros 8 ++ putLe 1 4 ++ zeros 1 ++ putLe 1 0 ++ putLe 1 2 ++ zeros 6 ++ putLe 2 5 ++ zeros 36
def handDesc : Desc := { id := 9, ring := 3, bytes := handBytes }
/-- Queue pair 4 of context 3 reaches node 5: the entry of (3, 5) in the path table at frame 0x1000_0010 names it. -/
def pathTo5 (s : State) : State :=
  reg { s with qpe := { s.qpe with qps := [(4, { st := .ready, ctx := 3, peer := 5, sqPfn := 0x10000002 })] }
               mem := { s.mem with cells := [(0x1000001C * 16384 + 20, 4), (0x1000001C * 16384 + 23, 0x80)], tags := [(0x10000002, { slot := nodeSlot }), (0x1000001C, { slot := nodeSlot })] } }
    Off.QPE_PATH_BASE 0x10000010
/-- Stream 9 in a state at counter 6. -/
def handStream (st : StreamState) (id : Option Nat) (entries : Tbl BlockEntry) : Stream :=
  { ctx := 3, st := st, counter := 6, handoffId := id, committed := [(0, 1)], entries := entries }
def oneBlock : Tbl BlockEntry := [(0, { pfn := 5, tier := 0, count := 1 })]
def handNode (x : Stream) : State :=
  let s := poolNode [handDesc] 100
  reg (pathTo5 { s with tier := { s.tier with streams := [(9, x)] } }) (Off.WEFT_KIND_COST_0 + 8) 0x10002
theorem test_hyp_handoff : let s := handNode (handStream .owned none oneBlock)
    alive s = true ∧ findDesc s 9 = some handDesc ∧ findStep s 9 = none ∧ handDesc.kind = 5 ∧ handDesc.op = 4 ∧ handDesc.stream = 9 ∧
      descReady s handDesc = true ∧ moveRefusal s handDesc = none ∧ portion s handDesc (moveItems handDesc) true = some (1, 3) ∧ mayAdmit s 9 = true ∧
      ((streamAt s 9).any fun x => x.st == .owned) = true := by decide +kernel
def draining : State := after (.handoff 9) (handNode (handStream .owned none oneBlock))
theorem test_handoff : ((streamAt draining 9).any fun x => x.st == .draining && x.handoffId == some 9) = true ∧ draining.ledger.remain = 97 := by decide +kernel
theorem test_hyp_drained : ((findStep draining 9).any fun u => u.desc.stream == 9 && u.left == 0 && !u.handed && u.desc.target == 5) = true ∧
    stepsOn draining 9 9 = false ∧ nodeNum draining ≠ 5 ∧ pathQp draining 3 5 = some 4 ∧
    pathQp { draining with mem := { draining.mem with cells := [] } } 3 5 = none := by decide +kernel
def offering : State := after (.handoffDrained 9) draining
/-- A PAGE_PUSH of the one frame, then the offer of counter 7. -/
theorem test_drained : ((qpOf offering 4).sq.map fun w => (w.op, w.msgType, w.loc)) = [(3, 0, 5), (2, 1, 0)] ∧
    ((qpOf offering 4).sq.getLast?.map fun w => (leAt w.body 8 4, leAt w.body 12 4, leAt w.body 16 2)) = some (9, 7, 0) ∧
    offering.out.any (fun o => o == .pageTables 4 9 7 [(0, BitVec.ofNat 128 (entryNum { pfn := 5, tier := 0, count := 1 }))]) = true := by decide +kernel
/-- The offer of counter 7 is out. -/
def doubting (queries : Nat) : State :=
  { offering with tier := { offering.tier with streams := [(9, { handStream .inDoubt (some 9) oneBlock with last := { counter := 7, dstNode := 5 }, queries := queries })] } }
theorem test_hyp_accept : alive (doubting 0) = true ∧ ((offered (doubting 0) 9 7).any fun x => x.handoffId == some 9) = true ∧
    (findStep (doubting 0) 9).isSome = true := by decide +kernel
theorem test_accept : ((streamAt (after (.handoffAccept 9 7) (doubting 0)) 9).any fun x => x.st == .former && x.newOwner == 5 && x.counter == 7) = true ∧
    ((streamAt (after (.handoffRefuse 9 7 3) (doubting 0)) 9).any fun x => x.st == .owned && x.counter == 8) = true := by decide +kernel
theorem test_hyp_timeout : ∀ n ∈ [0, 7, 8], ((streamAt (doubting n) 9).any fun x => x.st == .inDoubt && x.queries == n) = true ∧
    (doubting n).fault.st ≠ .fenced ∧ doubtHeld (doubting n) 9 = false ∧ doubtHeld { doubting n with fault := { (doubting n).fault with st := .fenced } } 9 = true ∧ pathQp (doubting n) 3 5 = some 4 := by decide +kernel
theorem test_timeout : ((streamAt (after (.handoffTimeout 9) (doubting 7)) 9).any fun x => x.queries == 8) = true ∧
    (statusOf (after (.handoffTimeout 9) (doubting 8)) Off.TIER_STATUS).hi.getLsbD 2 = true := by decide +kernel
/-- This node has accepted counter 7 of stream 9 from node 5 and refused counter 8, or knows nothing of it. -/
def targetNode (known : Bool) : State :=
  let s := pathTo5 (poolNode [] 100)
  if known then { s with tier := { s.tier with answers := [(9, { counter := 8, srcNode := 5, outcome := 2 }, 0), (9, { counter := 7, srcNode := 5, outcome := 1 }, 0)] } }
  else s
theorem test_hyp_query : ((answerOf (targetNode true) 9 7).any fun r => r.1.outcome == 1) = true ∧ answerOf (targetNode false) 9 7 = none ∧
    pathQp (targetNode false) 3 5 = some 4 ∧ knownCounter (targetNode true) 9 = some 8 ∧ newer 8 8 = false ∧ answerOf (targetNode true) 9 6 = none ∧
    newer 6 8 = false := by decide +kernel
theorem test_query : ((qpOf (after (.handoffQuery 3 5 9 7) (targetNode true)) 4).sq.map fun w => (w.msgType, leAt w.body 16 1)) = [(5, 0)] ∧
    ((qpOf (after (.handoffQuery 3 5 9 7) (targetNode false)) 4).sq.map fun w => (w.msgType, leAt w.body 16 1)) = [(5, 2)] ∧
    ((answerOf (after (.handoffQuery 3 5 9 7) (targetNode false)) 9 7).any fun r => r.1.outcome == 2) = true := by decide +kernel
/-- An offer of an empty stream: its digest is that of no bytes. -/
theorem test_hyp_offer : (ctxOf (targetNode false) 3).st = .active ∧ knownCounter (targetNode false) 9 = none ∧
    (judgeOffer (targetNode false) 3 9 7 { counter := 7, srcNode := 5, srcPool := 1, dstNode := nodeNum (targetNode false), dstPool := 1, outcome := 1 } (sha256 [])
      (offeredEntries [])).toOption.isSome = true ∧
    (judgeOffer (targetNode false) 3 9 7 { counter := 7, srcNode := 5, srcPool := 1, dstNode := nodeNum (targetNode false), dstPool := 1, outcome := 1 } []
      (offeredEntries [])).toOption.isSome = false := by decide +kernel
theorem test_offer : let t := after (.handoffOffer 3 9 7 5 1 1 0 (sha256 []) []) (targetNode false)
    ((streamAt t 9).any fun x => x.st == .owned && x.counter == 7) = true ∧ ((qpOf t 4).sq.map (·.msgType)) = [2] ∧
      ((qpOf (after (.handoffOffer 3 9 6 5 1 1 0 [] []) (targetNode true)) 4).sq.map (·.msgType)) = [3] := by decide +kernel
/-- A host's record: counter 7, accepted, of this node or of node 5. -/
def hostRec (node : Nat) : HandoffRec := { counter := 7, srcNode := 1, dstNode := node, outcome := 1 }
theorem test_hyp_resolve : governing [hostRec 0] = some (hostRec 0) ∧ (hostRec 0).dstNode = nodeNum (doubting 0) ∧ (hostRec 5).dstNode ≠ nodeNum (doubting 0) ∧
    ((streamAt (handNode { handStream .inDoubt none oneBlock with counter := 7 }) 9).any fun x => x.counter == 7 && x.entries != []) = true ∧
    ((streamAt (handNode (handStream .inDoubt none [])) 9).any fun x => x.entries == []) = true := by decide +kernel
theorem test_resolve : ((streamAt (after (.handoffResolve 3 9 [hostRec 0] false) (handNode { handStream .inDoubt none oneBlock with counter := 7 })) 9).any fun x =>
      x.st == .owned) = true ∧
    ((streamAt (after (.handoffResolve 3 9 [hostRec 0] false) (doubting 0)) 9).any fun x => x.st == .lost) = true ∧
    ((streamAt (after (.handoffResolve 3 9 [hostRec 5] true) (doubting 0)) 9).any fun x => x.st == .former && x.newOwner == 5) = true ∧
    ((streamAt (after (.handoffResolve 3 9 [hostRec 5] false) (doubting 0)) 9).any fun x => x.st == .inDoubt) = true := by decide +kernel

/-! ### Coma -/

/-- A row of the tests' index: id, tag, flags, 8 bytes of sketch. -/
def comaRow (id flags sketch : Nat) : Bytes := putLe 8 id ++ zeros 8 ++ putLe 4 flags ++ zeros 4 ++ putLe 8 sketch
/-- An index of raw 64-bit sketches with three rows, the last a tombstone, in frame 5 of context 3. -/
def tinyIndex : Index :=
  { ctx := 3, m := 0, rcode := 0, capacity := 3, key := 0x51, entry := List.replicate 4 0xFFFFFFFF, rows := 5, frames := [5] }
def comaNode (fetched : List Desc) (x : Index) : State :=
  let s := poolNode fetched 100
  let s := { s with coma := { s.coma with indexes := [(4, x)] }
                    tier := { s.tier with frames := [(5, { ctx := 3, use := .coma })] }
                    mem := { s.mem with cells := memWrite [] (5 * 16384) (comaRow 71 1 0xFF ++ comaRow 72 1 0x0F ++ comaRow 73 3 0), tags := [(5, { slot := 3 })] } }
  reg (reg s Off.COMA_CTRL 1) (Off.WEFT_KIND_COST_0 + 12) 0x10002
/-- A SKETCH_QUERY descriptor whose record lies at 0x2000. -/
def sketchDesc (op : Nat) : Desc := { id := 9, ring := 3, bytes := putLe 1 6 ++ zeros 15 ++ putLe 1 op ++ zeros 7 ++ putLe 8 0x2000 ++ zeros 32 }
/-- A FLAT search of index 4 for the nearest k; result at 0x9000. -/
def searchRec (k : Nat) : Bytes := putLe 2 4 ++ zeros 2 ++ putLe 2 k ++ zeros 34 ++ putLe 8 0x9000 ++ zeros 16
def searchView (k : Nat) : HostView := [(0, [(0x2000, some (searchRec k)), (0x2040, some (putLe 8 0x1F))])]
theorem test_hyp_coma_search : let s := comaNode [sketchDesc 0] tinyIndex
    let h := searchHdr (searchRec 1)
    alive s = true ∧ findDesc s 9 = some (sketchDesc 0) ∧ findStep s 9 = none ∧ (sketchDesc 0).kind = 6 ∧ (sketchDesc 0).n 16 1 = 0 ∧
      descReady s (sketchDesc 0) = true ∧ rbit s Off.COMA_CTRL 0 = true ∧ hostRead (descView s 9 (searchView 1)) ((sketchDesc 0).addr 24) 64 = some (searchRec 1) ∧
      hdrOk h = true ∧ hdrOk (searchHdr (searchRec 0)) = false ∧ h.shards = 0 ∧ (searchable s 3 h.index h).toOption = some tinyIndex ∧
      hostRead (descView s 9 (searchView 1)) ((sketchDesc 0).addr 24 + 64) tinyIndex.queryBytes = some (putLe 8 0x1F) ∧ queueFull s tinyIndex.home = false ∧
      mayAdmit s 9 = true ∧ portion s (sketchDesc 0) 1 true = some (1, 3) := by decide +kernel
def searching : State := after (.search 9 (searchView 1)) (comaNode [sketchDesc 0] tinyIndex)
theorem test_hyp_search_done : ((findQuery searching 0).any fun q => q.id == some 9 && q.shards.isEmpty && q.parent.isNone && q.running &&
    !comaFenced searching q.die && indexOf searching q.index == some tinyIndex && lostFrame searching tinyIndex.frames [(5, false)] == none &&
    lostFrame searching tinyIndex.frames [(5, true)] == some 5) = true ∧ (findStep searching 9).isSome = true ∧ braked searching = false := by decide +kernel
/-- 0x1F is 3 bits from 0xFF and 1 bit from 0x0F; the tombstone does not count. -/
theorem test_search_flat : let r := (runSearch searching tinyIndex (searchHdr (searchRec 1)) (putLe 8 0x1F) [] 0).1
    (r.hits.map fun h => (h.id, h.row, h.dist)) = [(72, 1, 1)] ∧ r.tombs = 1 ∧ r.examined = 2 ∧ r.underfull = false := by decide +kernel
theorem test_search_done : let t := after (.searchDone 0 []) searching
    t.weft.steps = [] ∧ t.coma.queries = [] ∧ (t.out.filterMap fun o => match o with
      | .hostWrite _ a b r => some (a, leAt b 0 2, r)
      | _ => none) = [(0x9000, 1, false), (0x9020, 72, true)] := by decide +kernel
/-- The engine's contexts are free again while a search waits. -/
def waitingNode : State := { searching with coma := { searching.coma with queries := searching.coma.queries.map fun q => { q with running := false } } }
theorem test_hyp_queue_start : ((engineQueries waitingNode 0).find? (fun q => !q.running)).isSome = true ∧ engineRunning waitingNode 0 < tenantContexts waitingNode 0 ∧
    comaFenced waitingNode 0 = false := by decide +kernel
/-- A search of two shards, the first of which has answered or not. -/
def shardNode (answers : List (Nat × Option SResult)) : State :=
  { searching with coma := { searching.coma with queries := searching.coma.queries.map fun q =>
      { q with shards := [(5, 4, 4, 0x51), (5, 6, 4, 0x52)], answers := answers } } }
theorem test_hyp_shards : ((findQuery (shardNode []) 0).any fun q => !q.shards.isEmpty && !q.timedOut && !q.complete && q.awaits 1) = true ∧
    ((findQuery (shardNode [(1, none)]) 0).any fun q => !q.awaits 1) = true ∧
    ((findQuery (shardNode [(1, none), (0, none)]) 0).any fun q => q.complete) = true := by decide +kernel
theorem test_shards : (cnt (after (.shardAnswer 0 1 []) (shardNode [(1, none)])) (ckey (Off.COMA_CNT_LO 0) 6 0)) = 1 ∧
    ((findQuery (after (.shardAnswer 0 1 (zeros 32)) (shardNode [])) 0).any fun q => q.answers.length == 1) = true ∧
    ((findQuery (after (.shardTimeout 0) (shardNode [])) 0).any (·.timedOut)) = true ∧ (after (.searchDone 0 []) (shardNode [(1, none), (0, none)])).weft.steps = [] := by
  decide +kernel
/-- A request of node 5 on queue pair 4, with the index's key or another. -/
def shardBytes (key : Nat) : Bytes := searchRec 1 ++ putLe 4 key ++ zeros 4 ++ putLe 8 0x1F
theorem test_hyp_shard_request : let s := pathTo5 (comaNode [] tinyIndex)
    (qpOf s 4).st = .ready ∧ indexOf s (searchHdr ((shardBytes 0x51).take 64)).index = some tinyIndex ∧ tinyIndex.ctx = (qpOf s 4).ctx ∧
      tinyIndex.key = leAt (shardBytes 0x51) 64 4 ∧ tinyIndex.key ≠ leAt (shardBytes 0x50) 64 4 ∧ rbit s Off.COMA_CTRL 0 = true ∧ tinyIndex.dropping = false ∧ queueFull s tinyIndex.home = false ∧
      hdrOk (searchHdr ((shardBytes 0x51).take 64)) = true ∧ hdrFits tinyIndex (searchHdr ((shardBytes 0x51).take 64)) = true := by decide +kernel
theorem test_shard_request : let s := pathTo5 (comaNode [] tinyIndex)
    ((after (.shardRequest 4 (shardBytes 0x51)) s).coma.queries.map fun q => (q.qpn, q.running)) = [(4, true)] ∧
      ((qpOf (after (.shardRequest 4 (shardBytes 0x50)) s) 4).sq.map (·.msgType)) = [0x11] := by decide +kernel

/-- Records of the operations on index 4: 3 rows to write at row 1, one row to tombstone, entry rows. -/
def opRec (op : Nat) : Bytes :=
  if op = 1 then putLe 1 0 ++ zeros 1 ++ putLe 1 0 ++ zeros 5 ++ putLe 4 3 ++ zeros 52
  else if op = 6 then putLe 2 4 ++ zeros 2 ++ putLe 4 1 ++ putLe 4 2 ++ putLe 4 0xFFFFFFFF ++ putLe 4 0xFFFFFFFF ++ zeros 12
  else putLe 2 4 ++ putLe 1 0 ++ zeros 1 ++ putLe 4 1 ++ putLe 4 1 ++ zeros 4 ++ putLe 8 0x9000 ++ zeros 8
def opView (op : Nat) : HostView := [(0, [(0x2000, some (opRec op)), (0x9000, some (if op = 3 then putLe 4 1 else comaRow 75 1 0))])]
theorem test_hyp_index_op : ∀ op ∈ [1, 2, 3, 4, 5, 6], let s := comaNode [sketchDesc op] tinyIndex
    findDesc s 9 = some (sketchDesc op) ∧ (sketchDesc op).n 16 1 = op ∧ (sketchDesc op).kind = 6 ∧ descReady s (sketchDesc op) = true ∧ mayAdmit s 9 = true ∧
      portion s (sketchDesc op) 1 true = some (1, 3) ∧ hostRead (descView s 9 (opView op)) ((sketchDesc op).addr 24) 32 = some ((opRec op).take 32) := by decide +kernel
theorem test_hyp_index_checks : let s (op : Nat) := comaNode [sketchDesc op] tinyIndex
    createCheck (s 1) (sketchDesc 1) (opRec 1) = none ∧ freeIndex (s 1) = some 0 ∧ hostRead (descView (s 1) 9 (opView 1)) ((sketchDesc 1).addr 24) 64 = some (opRec 1) ∧
      (takeSections (blockIndex 3 (opRec 1)) 1 3 [] (admitStep (s 1) (sketchDesc 1) 3 {}) [0, 1, 2]).isSome = true ∧
      writeCheck (descView (s 2) 9 (opView 2)) (s 2) (sketchDesc 2) (opRec 2) = none ∧ tombCheck (descView (s 3) 9 (opView 3)) (s 3) (sketchDesc 3) (opRec 3) = none ∧
      hostRead (descView (s 3) 9 (opView 3)) (recBuffer (opRec 3) 16) 4 = some (putLe 4 1) ∧ opIndex (s 4) (sketchDesc 4) (opRec 4) = none ∧
      queryCheck (s 5) (sketchDesc 5) (opRec 5) = none ∧ entryCheck (s 6) (sketchDesc 6) (opRec 6) = none ∧
      (s 2).mem.behind = [] ∧ tinyIndex.sectionFrames 0 = 1 ∧ inCompute (s 2) (tinyIndex.sectionFirst 0) = false := by decide +kernel
theorem test_index_write : let t := after (.indexWrite 9 (opView 2)) (comaNode [sketchDesc 2] tinyIndex)
    (rowOf t tinyIndex 1).id = 75 ∧ (rowOf t tinyIndex 0).id = 71 ∧ (indexOf t 4).map (·.updates) = some 1 := by decide +kernel
theorem test_tombstone : let t := after (.tombstone 9 (opView 3)) (comaNode [sketchDesc 3] tinyIndex)
    (rowOf t tinyIndex 1).dead = true ∧ (rowOf t tinyIndex 0).dead = false := by decide +kernel
theorem test_query_index : ((after (.queryIndex 9 (opView 5)) (comaNode [sketchDesc 5] tinyIndex)).out.filterMap fun o => match o with
    | .hostWrite _ a b _ => if a = 0x9000 then some (leAt b 8 4, leAt b 12 4, leAt b 32 2, leAt b 36 4) else none
    | _ => none) = [(3, 0x51, 4, 2)] := by decide +kernel
theorem test_entry_drop : (indexOf (after (.setEntry 9 (opView 6)) (comaNode [sketchDesc 6] tinyIndex)) 4).map (·.entry) = some [1, 2, 0xFFFFFFFF, 0xFFFFFFFF] ∧
    (indexOf (after (.drop 9 (opView 4)) (comaNode [sketchDesc 4] tinyIndex)) 4).map (·.dropping) = some true := by decide +kernel
theorem test_hyp_drained_index : let s := comaNode [] { tinyIndex with dropping := true }
    (indexOf s 4).map (·.dropping) = some true ∧ (s.coma.queries.any fun q => q.shards.isEmpty && q.index == 4) = false ∧
      indexOf (after (.indexDrained 4) s) 4 = none ∧ (after (.indexDrained 4) s).tier.scrub = [5] := by decide +kernel

/-! ### Osier -/

/-- An instruction word (R177): opcode, vd, va, vb, m, an, fp, and the low ten bits. -/
def oWord (op vd va vb m an fp low : Nat) : Word := BitVec.ofNat 32 (op * 2 ^ 26 + vd * 2 ^ 22 + va * 2 ^ 18 + vb * 2 ^ 14 + m * 2 ^ 13 + an * 2 ^ 11 + fp * 2 ^ 10 + low)
/-- Sixteen equal lanes. -/
def splat (x : Nat) : BitVec 256 := ofLanes (List.replicate 16 x)
/-- Unit 0 of stack 24 runs one instruction; V1 holds 1.0 and V2 holds 2.0 in FP16; region 0 of its bank is COMPUTE, or PROTECTED. -/
def unitNode (w : Word) (open' : Bool) : State :=
  { up with osier := { up.osier with
      units := [(0, { st := .running, prog := [w], v := [0, splat 0x3C00, splat 0x4000] ++ List.replicate 13 0, c := [3, 1], due := true, a := [64, 0, 0, 0] })]
      regions := if open' then [(0, { st := .compute })] else [] } }
/-- The opcodes of R178. -/
def opcodes : List Nat := [0, 1, 2, 3, 4, 5, 6, 7, 8, 9, 10, 11, 0x10, 0x11, 0x12, 0x13, 0x14, 0x15, 0x18]
theorem test_hyp_issues : ∀ op ∈ opcodes, issues (unitNode (oWord op 0 1 2 0 0 0 0) true) 0 op = true ∧
    alive (unitNode (oWord op 0 1 2 0 0 0 0) true) = true := by decide +kernel
theorem test_hyp_operands : (let s := unitNode (oWord 0x10 0 1 2 0 0 0 0) true;
    operandB s 0 (unitOf s 0) (unitOf s 0).instr).isSome = true ∧
    (let s := unitNode (oWord 0x10 0 1 0 1 0 0 0) false;
      operandB s 0 (unitOf s 0) (unitOf s 0).instr = none ∧ (unitOf s 0).run = none) := by decide +kernel
theorem test_osier_arithmetic : (unitOf (after (.oAdd 0) (unitNode (oWord 0x10 3 1 2 0 0 0 0) true)) 0).reg 3 = splat 0x4200 ∧
    (unitOf (after (.oMul 0) (unitNode (oWord 0x11 2 1 2 0 0 0 1) true)) 0).reg 2 = splat 0x4400 ∧
    (unitOf (after (.oFold 0) (unitNode (oWord 0x12 3 1 2 0 0 0 0) true)) 0).reg 3 = ofLanes (List.replicate 8 0x4000 ++ List.replicate 8 0x4400) ∧
    (unitOf (after (.oImac 0) (unitNode (oWord 0x18 3 1 1 0 0 0 0) true)) 0).reg 3 = ofLanes ((List.replicate 8 [0, 0x1C20]).flatten) := by decide +kernel
theorem test_osier_bounds : (unitOf (after (.oAdd 0) (unitNode (oWord 0x10 0 1 0 1 0 0 0) false)) 0).st = .error := by decide +kernel
theorem test_osier_loop : (let u := unitOf (after (.oLoop 0) (unitNode (oWord 0x03 0 0 0 0 0 0 7) true)) 0;
    u.pc = 7 ∧ u.c = [2, 1]) ∧ (let u := unitOf (after (.oLoop 0) (unitNode (BitVec.ofNat 32 (3 * 2 ^ 26 + 2 ^ 24 + 7)) true)) 0;
      u.pc = 1 ∧ u.c = [3, 0]) := by decide +kernel
theorem test_osier_adda : (unitOf (after (.oAdda 0) (unitNode (BitVec.ofNat 32 (6 * 2 ^ 26 + 0xFFFF)) true)) 0).a = [32, 0, 0, 0] ∧
    (unitOf (after (.oYield 0) (unitNode (oWord 1 0 0 0 0 0 0 0) true)) 0).st = .parked := by decide +kernel
/-- LD and ST at A0 = 64, and LD of a bank no region of which is open. -/
theorem test_hyp_bank : (let s := unitNode (oWord 0x08 5 0 0 0 0 0 0) true;
    bankLanes s 0 (unitOf s 0) 0 0 false).isSome = true ∧
    (let s := unitNode (oWord 0x09 0 1 0 0 0 0 0) true;
      let bs := stBytes (unitOf s 0).instr ((unitOf s 0).reg 1);
      bs.length = 32 ∧ ((List.range bs.length).all fun i => mayTouch s 0 (64 + i) (unitOf s 0)) = true) := by decide +kernel
theorem test_osier_store : let t := after (.oSt 0) (unitNode (oWord 0x09 0 1 0 0 0 0 0) true)
    dramRead t (24 * 2 ^ 22) 64 4 = [0x00, 0x3C, 0x00, 0x3C] ∧ t.mem.cells = [] ∧ (unitOf t 0).a.head? = some 96 := by decide +kernel
/-- Unit 0 works for step 9 of an ATTEND: blocks to walk, jobs to come. -/
def walkNode (op : Nat) (walk : List Walk) (jobs : List (Nat × Nat × List Walk)) : State :=
  { attending with osier := { attending.osier with
      units := [(0, { st := .running, prog := [oWord op 0 1 0 0 0 0 0], attendKind := true, run := some 9, walk := walk, jobs := jobs, c := [1, 0] })] } }
theorem test_hyp_walk : issues (walkNode 7 [] []) 0 7 = true ∧ (unitOf (walkNode 7 [] []) 0).attendKind = true ∧
    (unitOf (walkNode 7 [{ k := [1] }] []) 0).walk = [{ k := [1] }] ∧ (findStep (walkNode 7 [] []) 9).isSome = true ∧
    issues (walkNode 2 [] [(0, 0, [{ k := [1] }])]) 0 2 = true := by decide +kernel
theorem test_walk : (unitOf (after (.oNext 0) (walkNode 7 [] [])) 0).c = [0, 0] ∧ (unitOf (after (.oNext 0) (walkNode 7 [{ k := [1] }] [])) 0).k = [1] ∧
    (after (.oNext 0) (walkNode 7 [{ bad := some (St.OSIER_TABLE, 5) }] [])).weft.steps = [] ∧
    (unitOf (after (.oHalt 0) (walkNode 2 [] [(0, 0, [{ k := [1] }])])) 0).k = [1] ∧
    ((unitOf (after (.oOut 0) (walkNode 0x15 [] [])) 0).outs.map fun o => (o.1, o.2.1)) = [(0, 0)] := by decide +kernel

/-- The image of an OSIER_RUN program: a header (R182) of kind 1 and one HALT. -/
def progBytes : Bytes := [0x4F, 0x53, 1, 0, 1] ++ zeros 11 ++ putLe 4 (2 * 2 ^ 26)
/-- A run of unit 0 of stack 24 on region 0, which context 3 owns at generation 6, or whose generation the record has wrong. -/
def runDesc : Desc := { id := 9, ring := 3, bytes := putLe 1 7 ++ zeros 1 ++ putLe 1 1 ++ zeros 21 ++ putLe 8 0x2000 ++ zeros 32 }
def runRec (gen : Nat) : Bytes := putLe 4 0 ++ [1, 1, 0, 0] ++ zeros 8 ++ [24, 0, 0, 0] ++ zeros 4 ++ putLe 8 gen ++ zeros 112 ++ putLe 4 0x77 ++ zeros 60
def runNode : State :=
  let s := poolNode [runDesc] 100
  let s := { s with
    map := { s.map with slices := [(1, { enabled := true, clusters := 1, stackSet := 0x1000001, channels := 1, banks := 1, ports := 1 })] }
    mem := { s.mem with stackSet := [(0, .ready), (24, .ready)] }
    weft := { s.weft with handles := [(1, { st := .loaded, img := { tinyImage with osier := progBytes } })] }
    osier := { s.osier with regions := [(0, { st := .compute, owner := some 3, gen := 6 })] } }
  reg s (Off.WEFT_KIND_COST_0 + 16) 0x10002
theorem test_hyp_run : alive runNode = true ∧ findDesc runNode 9 = some runDesc ∧ findStep runNode 9 = none ∧ runDesc.kind = 7 ∧ descReady runNode runDesc = true ∧
    runRecord (descView runNode 9 [(0, [(0x2000, some (runRec 6))])]) runDesc = some (runRec 6) ∧ runCheck runNode runDesc (runRec 6) = none ∧
    runCheck runNode runDesc (runRec 5) = some St.OSIER_FLUSH_GEN ∧ mayAdmit runNode 9 = true ∧
    portion runNode runDesc (maskBits 8 (leAt (runRec 6) 4 1)).length true = some (1, 3) ∧
    (runNode.weft.steps.all fun o => o.kind != 7 || o.started) = true ∧
    ((recRegions (runRec 6)).all fun x => (regionSt runNode (regionKey x.1 x.2.1)).run.isNone) = true ∧
    ((runUnits { stackSet := 1, unitLo := 0, unitHi := 0 }).all fun ui => (unitOf runNode ui).run.isNone) = true := by decide +kernel
def running : State := after (.osierRun 9 [(0, [(0x2000, some (runRec 6))])]) runNode
theorem test_run : (unitOf running 0).st = .running ∧ (unitOf running 0).p.head? = some 0x77 ∧ (regionSt running 0).run = some 9 := by decide +kernel
theorem test_hyp_run_done : ((findStep (after (.oHalt 0) running) 9).any fun v => v.kind == 7 && v.started &&
    (runUnits v).all fun ui => (unitOf (after (.oHalt 0) running) ui).st == .idle) = true ∧
    (after (.osierRunDone 9) (after (.oHalt 0) running)).weft.steps = [] ∧ (regionSt (after (.osierRunDone 9) (after (.oHalt 0) running)) 0).run = none := by decide +kernel
theorem test_hyp_refresh : (unitOf (unitNode 0 true) 0).st ≠ .fenced ∧ (unitOf (unitNode 0 true) 0).st = .running ∧ (unitOf (unitNode 0 true) 0).due = true ∧
    (unitOf (after (.yieldWindowExpiry 0) (unitNode 0 true)) 0).st = .preempted ∧ (unitOf (after (.yieldWindowExpiry 0) (unitNode 0 true)) 0).due = true := by decide +kernel
theorem test_refresh : (unitOf (after (.refreshDone 0) (after (.yieldWindowExpiry 0) (unitNode 0 true))) 0).st = .running ∧
    (unitOf (after (.refreshDue 2047) up) 2047).due = true := by decide +kernel
/-- Region 5 of stack 31 in a state, selected by PF0; `busy` keeps the stack's last command busy. -/
def regionNode (r : Region) (busy : Nat) : State :=
  { runNode with osier := { runNode.osier with regions := if r = {} then [] else [(regionKey 31 5, r)], busy := if busy = 0 then [] else [(31, busy)] }
                 map := { runNode.map with slices := [(1, { enabled := true, stackSet := 0x80000001 })] }
                 regs := { runNode.regs with selPcie := [(Off.OSIER_REGION_SEL 31, 5)] } }
theorem test_hyp_region_command : served (regionNode {} 0) pf0 (Off.OSIER_REGION_CMD 31) = true ∧ privileged (regionNode {} 0) pf0 = true ∧
    regionSel (regionNode {} 0) pf0 31 = 5 ∧ regionBusy (regionNode {} 0) 31 = false ∧ regionBusy (regionNode { st := .sealing } 6) 31 = true := by decide +kernel
theorem test_hyp_unseal : (regionSt (regionNode {} 0) (regionKey 31 5)).st = .prot ∧ regionEmpty (regionNode {} 0) 31 5 = true ∧ stackMoves (regionNode {} 0) 31 = false ∧
    (ctxOf (regionNode {} 0) 3).st = .active ∧ (sliceOf (regionNode {} 0) (ctxOf (regionNode {} 0) 3).slice).stackSet.getLsbD 31 = true := by decide +kernel
def openRegion : Region := { st := .compute, owner := some 3 }
theorem test_hyp_seal : (regionSt (regionNode openRegion 0) (regionKey 31 5)).st = .compute ∧ kvFrames (regionNode openRegion 0) 31 5 = false ∧
    (regionSt (regionNode openRegion 0) (regionKey 31 5)).owner.isSome = true ∧ (regionSt (regionNode openRegion 0) (regionKey 31 5)).run = none ∧ (regionSt (regionNode openRegion 0) (regionKey 31 5)).scrubbing = false := by decide +kernel
theorem test_hyp_sweeps : (regionSt (regionNode { openRegion with sealPending := true } 6) (regionKey 31 5)).sealPending = true ∧
    (regionSt (regionNode { st := .sealing } 6) (regionKey 31 5)).st = .sealing ∧ (regionSt (regionNode { openRegion with scrubbing := true } 6) (regionKey 31 5)).scrubbing = true ∧
    (regionSt (regionNode openRegion 6) (regionKey 31 5)).sealPending = false := by decide +kernel
theorem test_regions : (regionSt (after (.unsealOwned pf0 31 3) (regionNode {} 0)) (regionKey 31 5)) = openRegion ∧
    tget 0 (after (.unsealPool pf0 31) (regionNode openRegion 0)).osier.result 31 = 2 ∧
    (regionSt (after (.sealSweepDone 31 5 []) (regionNode { st := .sealing } 6)) (regionKey 31 5)) = {} ∧
    tget 0 (after (.release pf0 31) (regionNode openRegion 0)).osier.busy 31 = 6 := by decide +kernel
theorem test_hyp_unit_service : served up pf0 (Off.OSIER_U_CMD (unitStack 2047) (unitIn 2047)) = true ∧ (unitOf up 2047).run = none ∧ (unitOf up 2047).st = .idle := by
  decide +kernel
theorem test_unit_service : (unitOf (after (.unitStart pf0 2047 300) up) 2047).pc = 44 ∧
    (unitOf (after (.unitHalt pf0 2047) (after (.unitStart pf0 2047 300) up)) 2047).st = .idle := by decide +kernel

/-! ### Ports and sessions -/

/-- Node 2 (FAB_NODE); port 5, enabled by PORT_CTRL, as given; SEC_CTRL asks for no credential. -/
def portNode (port : Port) : State :=
  let s := { up with ports := [(5, port)], sec := { up.sec with rng := .ok } }
  reg (reg (reg s Off.FAB_NODE 0x80000002) (Off.PORT_CTRL 5) 3) Off.SEC_CTRL 0
theorem test_hyp_numbered : numbered (portNode {}) = true := by decide +kernel
theorem test_hyp_ports : ∀ st ∈ [PortState.down, .detect, .equalise, .lock, .peer, .auth, .up, .degraded],
    alive (portNode { st := st }) = true ∧ served (portNode { st := st }) pf0 (Off.PORT_CTRL 5) = true ∧ privileged (portNode { st := st }) pf0 = true ∧
      (portOf (portNode { st := st }) 5).st = st := by decide +kernel
theorem test_hyp_port_flags : rbit (portNode {}) Off.FAB_NODE 31 = true ∧ (portOf (portNode {}) 5).fenced = false ∧ inSafe (portNode {}) = false ∧
    mayTrain (portNode {}) 5 = true ∧ portUp { st := .up } = true ∧ portUp { st := .degraded } = true ∧ inTraining { st := .auth } = true := by decide +kernel
theorem test_lanes : usableLanes true 0xFF = some 0xFF ∧ usableLanes true 0x3F = some 0x0F ∧ usableLanes true 0xF7 = some 0xF0 ∧ usableLanes false 0x3F = none := by
  decide
theorem test_training : (portOf (after (.portEnable pf0 5 1) (portNode {})) 5).st = .detect ∧ (portOf (after (.equalise 5 0x7F) (portNode { st := .equalise })) 5).lanes = 0x0F ∧
    (portOf (after (.equalise 5 0) (portNode { st := .equalise, fails := 7 })) 5).fails = 8 ∧ (portOf (after (.equalise 5 0) (portNode { st := .equalise, fails := 7 })) 5).st = .down := by
  decide +kernel
theorem test_peer : (portOf (after (.peerExchange 5 9 0 [0, 7]) (portNode { st := .peer })) 5).txCredits = [4, 7, 0, 0, 0, 0, 0, 0] ∧
    (portOf (after (.peerExchange 5 9 0 [0, 7]) (portNode { st := .peer })) 5).st = .auth := by decide +kernel
/-- A port that is UP with one frame waiting for its acknowledgement, sent and resent. -/
def upPort (resent : Nat) : Port := { st := .up, lanes := 0xFF, replay := [{ seq := 6, resent := resent }, { seq := 7, resent := resent, frame := some {} }] }
theorem test_hyp_retrains : rf (portNode (upPort 0)) (Off.PORT_FEC_LIMIT 5) 0 16 < 65536 ∧ (upPort 8).replay.any (fun f => 8 ≤ f.resent) = true ∧
    rf (reg (portNode (upPort 0)) (Off.PORT_FEC_LIMIT 5) 3) (Off.PORT_FEC_LIMIT 5) 0 16 = 3 := by decide +kernel
theorem test_retrain : (portOf (after (.replayTimeout 5) (portNode (upPort 8))) 5).held.length = 1 ∧ (portOf (after (.replayTimeout 5) (portNode (upPort 8))) 5).st = .detect ∧
    (after (.replayTimeout 5) (portNode (upPort 7))).ports = (portNode (upPort 7)).ports := by decide +kernel
/-- Flits (R269): an idle one that acknowledges flit 6 and grants 3 credits of class 2, a data flit of sequence 0, and one whose CRC is wrong. -/
def ackFlit : Bytes := flitBytes (flitHdr 0 6 1 2 3 1) []
def dataFlit0 : Bytes := flitBytes (flitHdr 0 0 0 0 0 0) []
theorem test_hyp_flits : ackFlit.length = 256 ∧ leAt ackFlit 248 8 = crc64 (ackFlit.take 248) ∧ (zeros 248 ++ [1] ++ zeros 7 : Bytes).length = 256 ∧
    leAt (zeros 248 ++ [1] ++ zeros 7) 248 8 ≠ crc64 ((zeros 248 ++ [1] ++ zeros 7).take 248) ∧ fld (leAt ackFlit 0 8) 37 3 ≠ 0 ∧ fld (leAt ackFlit 0 8) 24 2 = 1 ∧
    (upPort 0).replay.findIdx? (fun f => f.seq == fld (leAt ackFlit 0 8) 12 12) = some 0 ∧ fld (leAt dataFlit0 0 8) 37 3 = 0 ∧ fld (leAt dataFlit0 0 8) 24 2 = 0 ∧
    fld (leAt dataFlit0 0 8) 0 12 = (upPort 0).rxSeq ∧ leAt dataFlit0 248 8 = crc64 (dataFlit0.take 248) := by decide +kernel
/-- Port 5 has the result of a bad flit to give and nothing to start, or an AUTH_HELLO that may start. -/
def nakNode (queues : Tbl (List QFrame)) : State :=
  let s := portNode { upPort 0 with rxNak := true, ackDue := 2, txCredits := [4, 0, 0, 0, 0, 0, 0, 0], sessions := [(0, { ctx := nodeSlot, opened := true })] }
  { s with egr := { s.egr with ports := [(5, { queues := queues })] } }
theorem test_hyp_nak : ((List.range 8).any fun c => (headReady (nakNode []) 5 c).isSome) = false ∧
    ((List.range 8).any fun c => (headReady (nakNode [(0, [{ ctx := 4096, frame := { op := 0xF2 } }])]) 5 c).isSome) = true ∧
    replayFull (portNode { upPort 0 with replay := List.replicate 256 {} }) 5 = true := by decide +kernel
theorem test_flits : ((portOf (after (.flitReceive 5 ackFlit 0) (portNode (upPort 0))) 5).replay.map (·.seq)) = [7] ∧
    (portOf (after (.flitReceive 5 ackFlit 0) (portNode (upPort 0))) 5).txCredits = [0, 0, 3, 0, 0, 0, 0, 0] ∧
    (portOf (after (.flitReceive 5 dataFlit0 0) (portNode (upPort 0))) 5).rxSeq = 1 ∧
    (portOf (after (.flitReceive 5 (zeros 255 ++ [1]) 2) (portNode (upPort 0))) 5).rxNak = true := by decide +kernel

/-- An AUTH_HELLO of node 9, and one of another version. -/
def peerHello (version : Nat) : Bytes := putLe 4 version ++ putLe 2 9 ++ zeros 942
theorem test_hyp_hello : helloOk (portNode { st := .auth, peerNode := 9 }) 5 (peerHello 1) = true ∧ helloOk (portNode { st := .auth, peerNode := 9 }) 5 (peerHello 2) = false ∧
    (portNode { st := .up }).sec.rng = .ok ∧ helloOk (portNode { st := .up, peerNode := 9 }) 5 (peerHello 1) = true := by decide +kernel
theorem test_hello : (portOf (after (.authHello 5 (peerHello 2)) (portNode { st := .auth, peerNode := 9 })) 5).st = .down ∧
    (statusOf (after (.authHello 5 (peerHello 2)) (portNode { st := .auth, peerNode := 9 })) Off.SEC_STATUS).hi.getLsbD 1 = true ∧
    ((tget [] (eport (after (.authHello 5 (peerHello 1)) (portNode { st := .auth, peerNode := 9 })) 5).queues 0).map (·.frame.op)) = [0xF2, 0xF3] := by decide +kernel
theorem test_hyp_proof : ({ st := .auth, peerHello := peerHello 1 } : Port).peerHello ≠ [] ∧ portUp { st := .up, peerHello := peerHello 1 } = true := by decide
/-- Port 5 is UP toward node 9 and belongs to slice 1; context 3 of tenant 0x11 is on it. -/
def sessionNode (ses : Tbl Session) : State :=
  let s := workNode []
  let s := { s with ports := [(5, { st := .up, lanes := 0xFF, peerNode := 9, sessions := (0, { ctx := nodeSlot, opened := true }) :: ses })]
                    map := { s.map with slices := [(1, { enabled := true, clusters := 1, stackSet := 1, channels := 1, banks := 1, ports := 0x20 })] } }
  reg (reg s Off.FAB_NODE 0x80000002) (Off.PORT_CTRL 5) 3
theorem test_hyp_session_open : alive (sessionNode []) = true ∧ portUp (portOf (sessionNode []) 5) = true ∧ tfind (portOf (sessionNode []) 5).sessions 2 = none ∧
    tenantContext (sessionNode []) 5 0x12 = none ∧ tenantContext (sessionNode []) 5 0x11 = some 3 ∧
    (∀ e ∈ (portOf (sessionNode []) 5).sessions, e.1 ≠ 0 → e.2.ctx ≠ 3) ∧ (portOf (sessionNode []) 5).sessions.length + rekeyReserve < sessionLimit := by decide +kernel
theorem test_session_open : (tfind (portOf (after (.sessionOpen 5 2 0x11 0) (sessionNode [])) 5).sessions 2).map (fun k => (k.ctx, k.opened)) = some (3, true) ∧
    tfind (portOf (after (.sessionOpen 5 2 0x12 0) (sessionNode [])) 5).sessions 2 = none ∧
    ((tget [] (eport (after (.sessionOpen 5 2 0x12 0) (sessionNode [])) 5).queues 0).map (·.frame.op)) = [0xF6] := by decide +kernel
/-- Session 1 of context 3, which this end opened, waits for its answer, or is open and has sent 2^46 frames. -/
def waitingSession : Tbl Session := [(1, { ctx := 3, tenant := 0x11 })]
def worn : Session := { ctx := 3, tenant := 0x11, opened := true, txCtr := 2 ^ 46 }
def rekeying : State :=
  { sessionNode [(1, worn)] with ports := [(5, { st := .up, lanes := 0xFF, peerNode := 9, sessions := [(0, { ctx := nodeSlot, opened := true, txCtr := 2 ^ 46 }), (1, worn)] })] }
theorem test_hyp_sessions : (tfind (portOf (sessionNode waitingSession) 5).sessions 1).map (·.opened) = some false ∧
    (∀ e ∈ (portOf (sessionNode waitingSession) 5).sessions, e.2.replaces ≠ some 1 ∧ e.2.replaces = none) ∧
    (tfind (portOf rekeying 5).sessions 1).map (·.opened) = some true ∧ (tfind (portOf rekeying 5).sessions 0).map (·.opened) = some true ∧
    (portOf rekeying 5).helloSent = false ∧ rekeying.sec.rng = .ok ∧ (∀ e ∈ (portOf rekeying 5).sessions, e.2.replaces ≠ some 1) ∧
    (portOf rekeying 5).sessions.length < 4096 ∧ (3 : Nat) < 2 ^ 16 := by decide +kernel
theorem test_sessions : (tfind (portOf (after (.sessionAccept 5 1) (sessionNode waitingSession)) 5).sessions 1).map (·.opened) = some true ∧
    tfind (portOf (after (.sessionRefuse 5 1 3) (sessionNode waitingSession)) 5).sessions 1 = none ∧
    (tfind (portOf (after (.sessionRekey 5 1) rekeying) 5).sessions 3).map (fun k => (k.replaces, k.opened)) = some (some 1, false) ∧
    (portOf (after (.sessionRekey 5 0) rekeying) 5).helloSent = true ∧ tfind (portOf (after (.sessionClose 5 1) rekeying) 5).sessions 1 = none := by decide +kernel

/-! ### Loads, stores, atomics -/

/-- A free tag stands where the next one is free. -/
theorem test_free_tag (s : State) (h : tfind s.fab.reqs (s.fab.nextTag % 65536) = none) : freeTag s = some (s.fab.nextTag % 65536) := by
  have e : ((List.range 65536).find? fun i => (tfind s.fab.reqs ((s.fab.nextTag + i) % 65536)).isNone) = some 0 :=
    List.find?_range_eq_some.2 ⟨by simp [h], by simp, by simp⟩
  simp [freeTag, e]
/-- The only port of a route carries every flow. -/
theorem test_one_route (s : State) (c d tc p : Nat) (h : flowPorts s c d = [p]) : flowPort s c d tc = some p := by
  simp only [flowPort, h, List.head?_cons, List.length_cons, List.length_nil]
  split
  · rename_i hb; simpa using hb
  · simp [Nat.mod_one]
/-- Node 2 with a route to node 9 over port 5, on which context 3 has session 2. -/
def linkNode : State :=
  let s := reg (sessionNode [(2, { ctx := 3, tenant := 0x11, opened := true })]) (rkey Off.FAB_ROUTE_PORTS 9) 0x20
  { s with mem := { s.mem with gib := [(0, 1)] } }
theorem test_hyp_flow : flowPort linkNode 3 9 2 = some 5 ∧ flowPort linkNode 3 9 3 = some 5 ∧ sessionOf (portOf linkNode 5) 3 = some 2 :=
  ⟨test_one_route _ _ _ _ _ (by decide +kernel), test_one_route _ _ _ _ _ (by decide +kernel), by decide +kernel⟩
/-- Node 9 asks for stream 9 over queue pair 4: the image's entry merges a partial of this node's rank with the peer's. -/
def answering : State :=
  let s := withStream linkNode
  let img := { tinyImage with variants := [{ batchLo := 1, batchHi := 1, bandMask := 0xFF, tierSet := 0xF, flags := 32, localPlan := 0, coreMap := 1 }],
                              plans := [(0, [{ head := 0, level := 1, isLocal := true, inputs := [{ isLocal := true }, { rank := 1 }] }])] }
  { s with weft := { s.weft with handles := [(1, { st := .loaded, img := img })] }
           qpe := { s.qpe with qps := [(4, { st := .ready, ctx := 3, peer := 9 })] } }
def askBody : Bytes := fit 64 attendBytes ++ zeros 130
theorem test_hyp_remote_answer : alive answering = true ∧ (qpOf answering 4).st = .ready ∧ braked answering = false ∧ answering.fault.st = .run ∧
    ((streamAt answering 9).any fun x => x.ctx == 3 && x.st == .owned && (x.layer 0).isEmpty) = true ∧ handleRefusal answering 1 = none ∧
    sessionOf (portOf answering 5) 3 = some 2 ∧
    (let img := imageOf answering 1
      let d : Desc := { ring := 3, bytes := askBody.take 64 }
      d.stream = 9 ∧ d.handle = 1 ∧ d.n 16 2 = 0 ∧ (schedOf img 1 0 0).any (fun e => match (variantsOf img e).find? fun y => y.2.remote with
        | some (k, v) => k == 0 && (remoteInputs answering img e v d 0 0).map (fun m => slotIx m.1 0 m.2) == [1]
        | none => false) = true) := by decide +kernel
theorem test_hyp_remote_flow : flowPort answering 3 9 1 = some 5 := test_one_route _ _ _ _ _ (by decide +kernel)
/-- The counter example of 11: region 0x123 at generation 0x05A, here over frame 5; the word at its offset 0x100 holds 100. -/
def regionState (rights : Nat) : State :=
  let s := { linkNode with
    fab := { linkNode.fab with regions := [(0x123, { base := 0x14000, len := 0x4000, ctx := 3, gen := 0x05A, st := .valid, rights := rights })] }
    mem := { linkNode.mem with cells := [(0x14100, 100)], tags := [(5, { slot := 3 })] } }
  reg (reg s Off.QPE_REGION_BASE 0) Off.QPE_REGION_COUNT 0x200
/-- A request of node 9 on session 2 with the key 0x05A0_0123 and the REGION address 0x41A2_0000_0000_0100. -/
def reqFrame (op size : Nat) (body : Bytes) : Frame :=
  { op := op, tc := 2, src := 9, dst := 2, session := 2, rtag := 77, key := 0x05A00123, addr := 0x41A2000000000100, size := size, body := body }
theorem test_hyp_target : alive (regionState 7) = true ∧ frameCtx (regionState 7) 5 (reqFrame 1 8 []) = some 3 ∧ (regionState 7).fault.st ≠ .fenced ∧
    polOn (regionState 7) 3 = false ∧ frameOffset (regionEnt (regionState 7) 0x123) 0x41A2000000000100 = 0x14100 ∧
    lostFrame (regionState 7) [5] [] = none ∧ (lostFrame (regionState 7) [5] [(5, true)]).isSome = true ∧ (tget [] (regionState 7).mem.lostAt 0).length < 15 := by decide +kernel
theorem test_hyp_checks : (∀ op ∈ [1, 2, 0x10, 0x11, 0x12, 0x13, 0x14], targetCheck (regionState 7) 3 (reqFrame op 8 []) = none) ∧
    targetCheck (regionState 3) 3 (reqFrame 0x10 8 []) = some St.KEY_RIGHTS ∧ targetCheck (regionState 7) 3 (reqFrame 1 4096 []) = some St.ACCESS_ALIGN ∧
    targetCheck (regionState 7) 3 { reqFrame 1 8 [] with key := 0x05B00123 } = some St.KEY_INVALID ∧
    targetCheck (regionState 7) 3 { reqFrame 1 8 [] with addr := 0x41A2000000004000 } = some St.KEY_BOUNDS := by decide +kernel
/-- The same from node 8, to which no route leads, so that no answer is sent. -/
def lone (op size : Nat) (body : Bytes) : Frame := { reqFrame op size body with src := 8 }
/-- A LOAD that was held is resumed; one to a region in stack 24 that a sweep holds waits. -/
def heldRegion : State :=
  let s := regionState 7
  { s with fab := { s.fab with regions := [(0x123, { base := 24 * 2 ^ 22 * 16384, len := 0x4000, ctx := 3, gen := 0x05A, st := .valid, rights := 7 })] }
           osier := { s.osier with regions := [(regionKey 24 0, { st := .sealing })] } }
theorem test_hyp_held_access : (∀ r : Bool, (let s := { regionState 7 with osier := { (regionState 7).osier with resuming := r } }
      (regionEnt s 0x123).ctx = 3 ∧ alignOk (reqFrame 1 8 []) 0x14100 = true ∧ mustWait s (regionsOf [5]) = false)) ∧
    frameOffset (regionEnt heldRegion 0x123) 0x41A2000000000100 / 16384 = 24 * 2 ^ 22 ∧ targetCheck heldRegion 3 (reqFrame 1 8 []) = none ∧
    frameCtx heldRegion 5 (reqFrame 1 8 []) = some 3 ∧ mustWait heldRegion (regionsOf [24 * 2 ^ 22]) = true := by decide +kernel
theorem test_held_access : ((after (.load 5 (lone 1 8 []) []) heldRegion).osier.waits.map (·.1)) = [[regionKey 24 0]] ∧
    (regionEnt (after (.load 5 (lone 1 8 []) []) heldRegion) 0x123).inflight = 1 ∧
    (regionEnt (after (.load 5 (lone 1 8 []) []) (regionState 7)) 0x123).inflight = 0 := by decide +kernel
/-- 100 and 7 give 107. -/
theorem test_counter : let t := after (.fetchAdd 5 (lone 0x10 8 (putLe 8 7)) []) (regionState 7)
    spaceRead t 3 0x14100 8 = putLe 8 107 := by decide +kernel
theorem test_targets : spaceRead (after (.store 5 (lone 2 8 (putLe 8 0x1234))) (regionState 7)) 3 0x14100 8 = putLe 8 0x1234 ∧
    spaceRead (after (.cmpSwap 5 (lone 0x12 8 (putLe 8 100 ++ putLe 8 5)) []) (regionState 7)) 3 0x14100 8 = putLe 8 5 ∧
    spaceRead (after (.cmpSwap 5 (lone 0x12 8 (putLe 8 99 ++ putLe 8 5)) []) (regionState 7)) 3 0x14100 8 = putLe 8 100 ∧
    spaceRead (after (.fetchMin 5 { lone 0x13 8 (putLe 8 (2 ^ 64 - 1)) with flags := 4 } []) (regionState 7)) 3 0x14100 8 = putLe 8 (2 ^ 64 - 1) ∧
    spaceRead (after (.fetchMin 5 (lone 0x13 8 (putLe 8 (2 ^ 64 - 1))) []) (regionState 7)) 3 0x14100 8 = putLe 8 100 := by decide +kernel
/-- A policer with no tokens, and a fenced node. -/
def policed : State := reg (regionState 7) (rkey Off.EGR_POL_RATE 3) 0x80000001
theorem test_hyp_refused : polOn policed 3 = true ∧ polTokens policed 3 < frameLen (reqFrame 1 8 []) * 2 ^ 24 ∧ policed.fault.st ≠ .fenced ∧
    frameCtx policed 5 (reqFrame 1 8 []) = some 3 ∧ alive { regionState 7 with fault := { (regionState 7).fault with st := .fenced } } = true := by decide +kernel
theorem test_policed : (policerOf (after (.load 5 (lone 1 8 []) []) policed) 3).drops = 1 := by decide +kernel
/-- Request 77 of context 3 to node 9 is outstanding, or held. -/
def asking (op : Nat) (src : ReqSrc) (held : Bool) : State :=
  { attending with fab := { attending.fab with reqs := [(77, { ctx := 3, src := src, target := 9, addr := 0x41A2000000000100, op := op, held := held })], busy := true } }
theorem test_hyp_response : (∀ op ∈ [1, 2, 0x10, 0x14], alive (asking op .fabCmd false) = true ∧ (tfind (asking op .fabCmd false).fab.reqs 77).map (·.op) = some op) ∧
    freeTag (asking 1 .fabCmd false) = some 0 ∧ freeTag (asking 1 .fabCmd true) = some 0 ∧ (findStep (asking 1 (.rim 9) false) 9).isSome = true ∧
    freeTag (asking 1 (.rim 9) false) = some 0 ∧ (0 : Nat) ≠ St.TARGET_FENCED ∧ (tfind (asking 1 .fabCmd true).fab.reqs 77).map (·.held) = some true :=
  ⟨by decide +kernel, (by rw [test_free_tag _ (by decide +kernel)]; decide +kernel), (by rw [test_free_tag _ (by decide +kernel)]; decide +kernel), by decide +kernel, (by rw [test_free_tag _ (by decide +kernel)]; decide +kernel),
    by decide +kernel, by decide +kernel⟩
/-- Cluster 2 issued the request, and has been to a later epoch since. -/
def outdated : State :=
  { asking 2 .fabCmd false with fab := { (asking 2 .fabCmd false).fab with reqs := [(77, { ctx := 3, target := 9, op := 2, unit := some (1, 2) })] },
                                fault := { (asking 2 .fabCmd false).fault with epochs := [(4096 + 2, 1)] } }
theorem test_hyp_outdated : ((tfind outdated.fab.reqs 77).any fun r => r.op == 2 && !r.held && r.unit.any fun u => epochOf outdated u.1 u.2 != r.epoch) = true ∧
    freeTag outdated = some 0 := ⟨by decide +kernel, by rw [test_free_tag _ (by decide +kernel)]; decide +kernel⟩
theorem test_late : (after (.loadResp { rtag := 78 }) (asking 1 .fabCmd false)).fab.late = 1 ∧ (after (.loadResp { rtag := 77 }) (asking 1 .fabCmd true)).fab.late = 1 := by
  decide +kernel
theorem test_timeout_poisons : let t := after (.requestTimeout 77) (asking 1 .fabCmd false)
    t.fab.poison = true ∧ t.fab.status = St.TARGET_TIMEOUT ∧ (ctxOf t 3).quiesced = true ∧ (t.fault.log.head?.map fun e => (e.source, e.peer)) = some (0x14, 9) := by
  decide +kernel
/-- The command registers hold an address of node 9. -/
def fabNode (busy quiesced : Bool) : State :=
  let s := { linkNode with fab := { linkNode.fab with busy := busy }
                           sec := { linkNode.sec with ctxs := [(3, { st := .active, slice := 1, tenant := 0x11, quiesced := quiesced })] } }
  reg (reg s Off.FAB_CMD_ADDR_LO 0x100) (Off.FAB_CMD_ADDR_LO + 4) 0x40090000
theorem test_hyp_fab_command : served (fabNode false false) pf0 Off.FAB_CMD = true ∧ privileged (fabNode false false) pf0 = true ∧
    (fabNode true false).fab.busy = true ∧ (fabNode false false).fab.busy = false ∧ (ctxOf (fabNode false true) 3).quiesced = true ∧
    (ctxOf (fabNode false false) 3).quiesced = false ∧ fld (rpair (fabNode false false) Off.FAB_CMD_ADDR_LO) 48 14 = 9 ∧ freeTag (fabNode false false) = some 0 ∧
    combines 0x02 = false ∧ combines 0x01 = true :=
  ⟨by decide +kernel, by decide +kernel, by decide +kernel, by decide +kernel, by decide +kernel, by decide +kernel, by decide +kernel,
    (by rw [test_free_tag _ (by decide +kernel)]; decide +kernel), by decide, by decide⟩
theorem test_fab_refuses : (after (.fabCmdStore pf0 3 true) (fabNode false false)).fab.status = St.COMBINE_INVALID ∧
    (after (.fabCmdLoad pf0 3 false) (fabNode false true)).fab.status = St.CONTEXT_QUIESCED := by decide +kernel
/-- Context 3, selected by PF0's FAB_QUIESCE_SEL, is quiesced. -/
def quiescedNode (reqs : Tbl Req) : State :=
  { fabNode false true with fab := { (fabNode false true).fab with reqs := reqs }
                            regs := { (fabNode false true).regs with selPcie := [(Off.FAB_QUIESCE_SEL, 3)] } }
theorem test_hyp_release : served (quiescedNode []) pf0 Off.FAB_QUIESCE = true ∧ selNum (quiescedNode []) pf0 Off.FAB_QUIESCE_SEL = 3 ∧
    (ctxOf (quiescedNode []) 3).quiesced = true ∧ outstanding (quiescedNode []) (fun r => r.ctx == 3) = 0 ∧
    0 < outstanding (quiescedNode [(7, { ctx := 3 })]) (fun r => r.ctx == 3) := by decide +kernel
theorem test_release : (ctxOf (after (.quiesceRelease pf0) (quiescedNode [])) 3).quiesced = false ∧
    (ctxOf (after (.quiesceRelease pf0) (quiescedNode [(7, { ctx := 3 })])) 3).quiesced = true := by decide +kernel

/-! ### Queue pairs -/

/-- Node 2 with the page transfer engine on and 100 queue pairs; queue pair 7 is `q` and its context is on chip. -/
def qpNode (q : Qp) : State :=
  let s := regionState 7
  let s := { s with qpe := { s.qpe with qps := [(7, q)], cache := [7] } }
  reg (reg s Off.QPE_CTRL 1) Off.QPE_CTX_LIMIT 100
/-- The same with a command on the queue pair PF0 selects. -/
def qpCommand (n : Nat) (st : QpState) : State :=
  let s := qpNode { st := st, ctx := 3, sendPsn := 5, recvPsn := 6, window := 8192 }
  let s := { s with regs := { s.regs with selPcie := [(Off.QPE_QP_SEL, n)] } }
  reg (reg (reg s Off.QPE_QP_OWNER 0x60000003) Off.QPE_QP_PEER 9) Off.QPE_QP_PEER_QPN 8
theorem test_hyp_qp_command : ∀ st ∈ [QpState.free, .ready, .error, .draining],
    served (qpCommand 7 st) pf0 Off.QPE_QP_CMD = true ∧ privileged (qpCommand 7 st) pf0 = true ∧ selNum (qpCommand 7 st) pf0 Off.QPE_QP_SEL = 7 ∧
      qpnOk (qpCommand 7 st) 7 = true ∧ (qpOf (qpCommand 7 st) 7).st = st ∧ qpnOk (qpCommand 100 st) (selNum (qpCommand 100 st) pf0 Off.QPE_QP_SEL) = false := by
  decide +kernel
theorem test_qp_create : let q := qpOf (after (.qpCreate pf0) (qpCommand 7 .free)) 7
    q.st = .ready ∧ q.ctx = 3 ∧ q.peer = 9 ∧ q.peerQpn = 8 ∧ q.tc = 3 ∧ 4096 ≤ q.window := by decide +kernel
theorem test_qp_reset : let q := qpOf (after (.qpReset pf0) (qpCommand 7 .error)) 7
    (q.st, q.sendPsn, q.recvPsn, q.window) = (.ready, 0, 0, 8192) ∧ (after (.qpReset pf0) (qpCommand 7 .ready)).qpe.cmdStatus = St.QP_STATE := by decide +kernel
theorem test_qp_destroy : (qpOf (after (.qpDestroy pf0) (qpCommand 7 .ready)) 7).st = .draining ∧ qpOf (after (.qpDestroy pf0) (qpCommand 7 .error)) 7 = {} ∧
    (after (.qpDestroy pf0) (qpCommand 100 .ready)).qpe.cmdStatus = St.QP_INVALID := by decide +kernel
theorem test_hyp_drained_qp : alive (qpCommand 7 .draining) = true ∧ (qpOf (qpCommand 7 .draining) 7).unacked = [] ∧ (qpOf (qpCommand 7 .draining) 7).recvMsg = 0 := by
  decide +kernel
theorem test_qp_drained : qpOf (after (.qpDrained 7) (qpCommand 7 .draining)) 7 = {} ∧ (after (.qpDrained 7) (qpCommand 7 .draining)).qpe.cache = [] := by decide +kernel
/-- A region of `len` bytes at frame 4 of context 3 with the rights READ and WRITE; `count` entries, of which the first is in use. -/
def regNode (len count : Nat) : State :=
  let s := qpNode {}
  let s := { s with fab := { s.fab with regions := [(0, { len := 0x4000, gen := 9, st := .valid }), (1, { gen := 0x59 })] } }
  reg (reg (reg (reg s Off.QPE_REG_BASE_LO 0x10000) Off.QPE_REG_LEN_LO len) Off.QPE_REG_OWNER 0x30000003) Off.QPE_REGION_COUNT count
theorem test_hyp_register : served (regNode 0x4000 2) pf0 Off.QPE_REG_CMD = true ∧ privileged (regNode 0x4000 2) pf0 = true ∧
    (∀ i, i < regionCount (regNode 0x4000 1) → (regionEnt (regNode 0x4000 1) i).st ≠ .free) ∧ 1 < regionCount (regNode 0x4000 2) ∧
    (regionEnt (regNode 0x4000 2) 1).st = .free ∧ (regionEnt (regNode 0x4000 2) 0).st = .valid ∧
    regPair48 (regNode 0x4000 2) Off.QPE_REG_BASE_LO = 0x10000 ∧ regPair48 (regNode 0x4000 2) Off.QPE_REG_LEN_LO = 0x4000 ∧ pfnOk (regNode 0x4000 2) 4 = true ∧
    regPair48 (regNode 0 2) Off.QPE_REG_LEN_LO = 0 := by decide +kernel
theorem test_register : (after (.register pf0) (regNode 0x4000 2)).qpe.newKey = 0x05A00001 ∧ (after (.register pf0) (regNode 0x4000 1)).qpe.regStatus = St.REGION_FULL ∧
    (after (.register pf0) (regNode 0 2)).qpe.regStatus = St.PFN_INVALID ∧ (regionEnt (after (.register pf0) (regNode 0x4000 2)) 1).rights = 3 := by decide +kernel
/-- QPE_REG_KEY names entry 0 at a generation. -/
def regionKey (gen : Nat) : State := reg (regNode 0x4000 2) Off.QPE_REG_KEY (gen * 2 ^ 20)
def revoking (inflight : Nat) : State :=
  { regionKey 9 with fab := { (regionKey 9).fab with regions := [(0, { len := 0x4000, gen := 9, st := .revoking, inflight := inflight })] } }
theorem test_hyp_revoke : keyIndex (regWord (regionKey 9) Off.QPE_REG_KEY) = 0 ∧ keyGen (regWord (regionKey 9) Off.QPE_REG_KEY) = 9 ∧
    keyGen (regWord (regionKey 8) Off.QPE_REG_KEY) ≠ 9 ∧ (regionEnt (revoking 0) 0).st = .revoking ∧ (regionEnt (revoking 0) 0).inflight = 0 ∧
    (regionEnt (revoking 1) 0).inflight ≠ 0 ∧ alive (revoking 0) = true := by decide +kernel
theorem test_revoke : (regionEnt (after (.revoke pf0) (regionKey 9)) 0).st = .revoking ∧ (after (.revoke pf0) (regionKey 8)).qpe.regStatus = St.REGION_NOT_VALID ∧
    regionEnt (after (.revokeDone 0) (revoking 0)) 0 = { gen := 9 } ∧ (regionEnt (after (.revokeDone 0) (revoking 1)) 0).st = .revoking := by decide +kernel
/-- A WRITE of 64 bytes at 0x14100 to the remote address 0x100, as 64 bytes of frame 6 of the node's own space. -/
def wrBytes : Bytes := putLe 4 0 ++ putLe 4 64 ++ putLe 8 0x14100 ++ putLe 8 0x100 ++ putLe 4 0x05A00123 ++ zeros 36
def postNode (st : QpState) (busy : Bool) : State :=
  let s := qpNode { st := st, ctx := 3 }
  let s := { s with qpe := { s.qpe with postBusy := busy }
                    mem := { s.mem with tags := [(5, { slot := 3 }), (6, { slot := nodeSlot })], cells := [(0x14100, 100), (0x18004, 64), (0x18009, 0x41), (0x1800A, 1)] } }
  reg s Off.QPE_POST_LO 0x18000
theorem test_hyp_post : ∀ st ∈ [QpState.free, .ready, .error, .draining], served (postNode st false) pf0 Off.QPE_POST = true ∧ privileged (postNode st false) pf0 = true ∧
    (postNode st false).qpe.postBusy = false ∧ qpnOk (postNode st false) 7 = true ∧ qpnOk (postNode st false) 0 = false ∧ (qpOf (postNode st false) 7).st = st := by
  decide +kernel
theorem test_post : ((qpOf (after (.qpePost pf0 7) (postNode .ready false)) 7).sq.map fun w => (w.op, w.length, w.loc, w.posted)) = [(0, 64, 0x14100, true)] ∧
    (after (.qpePost pf0 7) (postNode .error false)).qpe.postStatus = St.QP_STATE ∧ (after (.qpePost pf0 0) (postNode .ready false)).qpe.postStatus = St.QP_INVALID := by
  decide +kernel

/-- The queue of QP 7 and the region table lie in board frames. -/
def boardQueue (n : Nat) : State :=
  let s := reg (reg (postNode .ready false) Off.QPE_REGION_BASE 0x10000003) Off.QPE_REGION_COUNT 0x200
  { s with qpe := { s.qpe with qps := [(7, { st := .ready, ctx := 3, sqPfn := 0x10000002, sqTail := 9, sq := List.replicate n {} })] } }
theorem test_hyp_board : isBoard ((0x10000002 * 16384 + 64 * 9) / 16384) = true ∧ pfnOk (boardQueue 0) ((0x10000002 * 16384 + 64 * 9) / 16384) = true ∧
    isBoard ((0x10000003 * 16384 + 32 * 1) / 16384) = true ∧ pfnOk (boardQueue 0) ((0x10000003 * 16384 + 32 * 1) / 16384) = true ∧
    256 ≤ (qpOf (boardQueue 256) 7).sq.length ∧ (qpOf (boardQueue 0) 7).sq.length < 256 := by decide +kernel
theorem test_post_waits : let q := qpOf (after (.qpePost pf0 7) (boardQueue 256)) 7
    q.sq.length = 256 ∧ (q.sqWait.map (·.length)) = [64] ∧ (qpOf (after (.qpePost pf0 7) (boardQueue 0)) 7).sqTail = 10 := by decide +kernel

/-! ### Packets -/

/-- A READY queue pair of context 3 toward queue pair 8 of node 9, class 3, window 8 KiB. -/
def qp7 : Qp := { st := .ready, ctx := 3, peer := 9, peerQpn := 8, tc := 3, window := 8192, recvPsn := 6, sendPsn := 5, retryMax := 3, busyMax := 2, winMax := 65536 }
/-- Posted work: a WRITE of 6000 bytes from 0x14100, a READ of 64 bytes, a SEND and a page push of frame 5, a PAGE_READ, and one no packet can carry. -/
def wrWrite : Wr := { op := 0, length := 6000, loc := 0x14100, remote := 0x100, key := 0x05A00123, posted := true }
def wrRead : Wr := { op := 1, length := 64, loc := 0x14200, remote := 0x100, key := 0x05A00123, posted := true }
def wrSend : Wr := { op := 2, msgType := 1, length := 16, body := zeros 16 }
def wrPush : Wr := { op := 3, length := 1, loc := 5 }
def wrPageRead : Wr := { op := 4, length := 1, remote := 5 }
def wrOdd : Wr := { op := 0, length := 9, posted := true }
theorem test_hyp_send : (∀ w ∈ [wrWrite, wrRead, wrSend, wrPush, wrPageRead], alive (qpNode { qp7 with sq := [w] }) = true ∧ qpeOn (qpNode { qp7 with sq := [w] }) = true ∧
      currentWr (qpOf (qpNode { qp7 with sq := [w] }) 7) = some (0, w) ∧ isCached (qpNode { qp7 with sq := [w] }) 7 = true ∧ wrInvalid w = none ∧ bitOf w.flags 1 = false ∧ bitOf w.flags 0 = false) ∧
    (qpNode { qp7 with sq := [wrSend] }).tier.streams = [] ∧
    wrInvalid wrOdd = some St.LENGTH_INVALID ∧ currentWr (qpOf (qpNode { qp7 with sq := [wrOdd] }) 7) = some (0, wrOdd) ∧ qp7.waiting = none ∧ qp7.fetching = false ∧
    isCached (qpNode { qp7 with sq := [wrWrite] }) 8 = false ∧ currentWr { qp7 with st := .draining, sq := [{ wrWrite with sent := 3840 }] } = some (0, { wrWrite with sent := 3840 }) ∧
    (sourceFrames wrWrite 3840).length = 1 ∧ lostFrame (qpNode qp7) (sourceFrames wrWrite 3840) [] = none := by decide +kernel
theorem test_qp_routes : flowPort (qpNode qp7) 3 9 3 = some 5 ∧ sessionOf (portOf (qpNode qp7) 5) 3 = some 2 :=
  ⟨test_one_route _ _ _ _ _ (by decide +kernel), by decide +kernel⟩
theorem test_send_refused : (after (.qpSend 7 []) (qpNode { qp7 with sq := [wrOdd] })).qpe.postStatus = St.LENGTH_INVALID ∧
    (qpOf (after (.qpSend 8 []) { qpNode qp7 with qpe := { qps := [(8, { qp7 with sq := [wrRead] })], cache := [7] } }) 8).fetching = true := by decide +kernel
/-- The WRITE is cut at the 4 KiB boundary of its target; the READ takes one response, and one across the boundary two. -/
theorem test_chunks : (nextPkt (qpNode qp7) qp7 wrWrite).sent = 3840 ∧ (nextPkt (qpNode qp7) qp7 { wrWrite with sent := 3840 }).last = true ∧
    readCount 0x100 64 = 1 ∧ readCount 0xFF0 64 = 2 ∧ (nextPkt (qpNode qp7) qp7 wrPageRead).psns = 10 := by decide +kernel
/-- The offer of a draining stream stands at the head of the queue. -/
def offerNode : State :=
  let s := qpNode { qp7 with sq := [{ op := 2, msgType := 1, length := 64, wrId := 9, body := zeros 64 }] }
  { s with tier := { s.tier with streams := [(9, { ctx := 3, st := .draining, counter := 6, handoffId := some 9 })] }
           weft := { s.weft with steps := [{ desc := handDesc }] } }
theorem test_hyp_offer_sent : ((currentWr (qpOf offerNode 7)).any fun w => w.1 == 0 && w.2.op == 2 && w.2.msgType == 1 && w.2.wrId == 9 && w.2.sent == 0 && !w.2.posted && wrInvalid w.2 == none) = true ∧
    qpeOn offerNode = true ∧ isCached offerNode 7 = true ∧ ((findStep offerNode 9).any fun u => u.desc.stream == 9) = true ∧
    ((streamAt offerNode 9).any fun x => x.st == .draining && x.handoffId == some 9) = true ∧ alive offerNode = true := by decide +kernel
theorem test_offer_routes : flowPort offerNode 3 9 3 = some 5 ∧ sessionOf (portOf offerNode 5) 3 = some 2 :=
  ⟨test_one_route _ _ _ _ _ (by decide +kernel), by decide +kernel⟩
/-- A packet of node 9's queue pair 8 with 8 bytes. -/
def qpPacket (op psn len : Nat) (payload : Bytes) : Frame :=
  { op := op, tc := 3, src := 9, dst := 2, session := 2, key := 0x05A00123, addr := 0x41A2000000000100, size := payload.length,
    body := ({ dst := 7, src := 8, first := true, last := true, psn := psn, len := len } : Tp).bytes ++ payload }
theorem test_tp : let h := tpOf (qpPacket 0xA0 6 8 (zeros 8)).body
    (h.dst, h.src, h.first, h.last, h.psn, h.len, h.nak) = (7, 8, true, true, 6, 8, 0) := by decide +kernel
theorem test_hyp_write : alive (qpNode qp7) = true ∧ qpeOn (qpNode qp7) = true ∧ (qpNode qp7).fault.st ≠ .fenced ∧ frameCtx (qpNode qp7) 5 (qpPacket 0xA0 6 8 (zeros 8)) = some 3 ∧
    polOn (qpNode qp7) 3 = false ∧ qpnOk (qpNode qp7) 7 = true ∧ qp7.dropTo = none ∧ isCached (qpNode qp7) 7 = true ∧ heldFor (qpNode qp7) 7 = false ∧
    psnLater 7 qp7.recvPsn = true ∧ qp7.nakSent = false ∧ psnLater qp7.recvPsn 5 = true ∧ lengthOk 8 = true ∧
    dataLengthOk qp7 (tpOf (qpPacket 0xA0 6 8 (zeros 8)).body) 8 8 8 = true ∧
    packetRegion (qpNode qp7) qp7 (qpPacket 0xA0 6 8 (zeros 8)) 1 8 true true = none ∧
    packetRegion (qpNode qp7) qp7 { qpPacket 0xA0 6 8 (zeros 8) with key := 0x05B00123 } 1 8 true true = some St.KEY_INVALID ∧
    packetRegion (qpNode qp7) qp7 { qpPacket 0xA0 6 8 (zeros 8) with addr := 0x41A2000000004000 } 1 8 true true = some St.KEY_BOUNDS ∧
    rf (reg (qpNode qp7) Off.QPE_EVT_BASE 0xFFFFFFFF) Off.QPE_EVT_BASE 0 32 = 0xFFFFFFFF := by decide +kernel
/-- What a packet meets in its turn: nothing holds its frames, or a sweep holds them. -/
def turnState (s : State) (f : Frame) : State := useContext (police (qpeCount s 1 1) 3 f).2 7
def sweptRegion (s : State) : State :=
  { s with fab := { s.fab with regions := [(0x123, { base := 24 * 2 ^ 22 * 16384, len := 0x4000, ctx := 3, gen := 0x05A, st := .valid, rights := 7 })] }
           osier := { s.osier with regions := [(Sys2Proof.Machine.regionKey 24 0, { st := .sealing })] } }
theorem test_hyp_turn : (∀ fs ∈ [framesAt 0x14100 8, [], [0]], mustWait (turnState (qpNode qp7) (qpPacket 0xA0 6 8 (zeros 8))) (regionsOf fs ++ [qpKey 7]) = false) ∧
    (let f := qpPacket 0xA0 6 8 (zeros 8)
      let s := sweptRegion (qpNode qp7)
      let off := frameOffset (regionEnt s (keyIndex f.key)) f.addr
      mustWait (turnState s f) (regionsOf (framesAt off 8) ++ [qpKey 7]) = true ∧ frameCtx s 5 f = some 3) ∧
    alive { qpNode qp7 with fault := { (qpNode qp7).fault with st := .fenced } } = true := by decide +kernel
theorem test_packet_waits : let t := after (.write 5 (qpPacket 0xA0 6 8 (zeros 8))) (sweptRegion (qpNode qp7))
    (t.osier.waits.map (·.1)) = [[Sys2Proof.Machine.regionKey 24 0, qpKey 7]] ∧ (qpOf t 7).recvPsn = 6 := by decide +kernel
theorem test_hyp_send_packet : (let h := tpOf (qpPacket 0xA3 6 8 (putLe 8 1)).body
    lengthOk h.len && dataLengthOk qp7 h h.len 8 8 && msgTypeOk (leAt (putLe 8 1) 0 2) && leAt (putLe 8 1) 0 2 != 0x10) = true := by decide +kernel
theorem test_hyp_read : packetRegion (qpNode qp7) qp7 { qpPacket 0xA1 6 8 [] with op := 0xA1 } 0 8 true true = none ∧ lengthOk 8 = true ∧
    lostFrame (qpNode qp7) (framesAt 0x14100 8) [] = none ∧ lostFrame (qpNode qp7) (framesAt 0x14100 8) [(5, true)] ≠ none := by decide +kernel
/-- The same queue pair toward node 8, to which no route leads, so that no answer is sent. -/
def deaf : Qp := { qp7 with peer := 8 }
def lonePacket (op psn len : Nat) (payload : Bytes) : Frame := { qpPacket op psn len payload with src := 8 }
theorem test_write : let t := after (.write 5 (lonePacket 0xA0 6 8 (putLe 8 0x1234))) (qpNode deaf)
    spaceRead t 3 0x14100 8 = putLe 8 0x1234 ∧ (qpOf t 7).recvPsn = 7 ∧ (regionEnt t 0x123).inflight = 0 := by decide +kernel
theorem test_write_out_of_order : (∀ psn ∈ [7, 6 + 2 ^ 23], let t := after (.write 5 (lonePacket 0xA0 psn 8 (putLe 8 0x1234))) (qpNode deaf)
    (qpOf t 7).recvPsn = 6 ∧ (qpOf t 7).nakSent = true ∧ t.mem = (qpNode deaf).mem) ∧
    (after (.write 5 (lonePacket 0xA0 5 8 (putLe 8 0x1234))) (qpNode deaf)).mem = (qpNode deaf).mem := by decide +kernel
theorem test_write_refused : let t := after (.write 5 { lonePacket 0xA0 6 8 (zeros 8) with key := 0x05B00123 }) (qpNode deaf)
    (qpOf t 7).st = .error ∧ (statusOf t Off.QPE_STATUS).hi.getLsbD 0 = true := by decide +kernel
/-- A SEND of an offer arrives as a packet of its own operation code, and one of an unknown type is refused. -/
theorem test_send_arrives : (qpOf (after (.write 5 { lonePacket 0xA3 6 8 (putLe 8 1) with key := 0 }) (qpNode deaf)) 7).recvPsn = 7 ∧
    (qpOf (after (.write 5 { lonePacket 0xA3 6 8 (putLe 8 9) with key := 0 }) (qpNode deaf)) 7).st = .error := by decide +kernel
theorem test_read_req : (qpOf (after (.readReq 5 (lonePacket 0xA1 6 64 []) []) (qpNode deaf)) 7).recvPsn = 7 ∧
    (qpOf (after (.readReq 5 (lonePacket 0xA1 6 64 []) [(5, true)]) (qpNode deaf)) 7).st = .error := by decide +kernel
/-- The node that has a page of stream 9 in frame 0, with table slot 1 bound. -/
def pageNode (q : Qp) : State :=
  let s := { paged with ports := (qpNode q).ports, qpe := (qpNode q).qpe, fab := (qpNode q).fab, regs := (qpNode q).regs }
  reg { s with weft := { s.weft with slots := [(1, { st := .bound, bytes := [1], gen := 2 })] } } (rkey Off.TIER_QUOTA_HBM 3) 100
/-- Frame 0, stream 9, layer 0, head 0, block 0. -/
def askPage : PageAsk := { page := 9 }
theorem test_hyp_page_read : askedFrames (pageNode qp7) 3 askPage = [0] ∧ (pageShapeOk (askedPage (pageNode qp7) 3 0) &&
    pagePlaceOk (askedPage (pageNode qp7) 3 0) (askedPlace 3 askPage.page 0) && !pagePlaceOk (askedPage (pageNode qp7) 3 0) (askedPlace 3 8 0)) = true ∧
    mustWait (pageNode qp7) (regionsOf [0] ++ [qpKey 7]) = false ∧ alive (pageNode qp7) = true ∧ qpeOn (pageNode qp7) = true ∧ lostFrame (pageNode qp7) [0] [] = none ∧ frameCtx (pageNode qp7) 5 (qpPacket 0xA5 6 0 []) = some 3 := by
  decide +kernel
theorem test_hyp_push : readWr qp7 4 6 = none ∧ page0.length + 16 = pageLen ∧
    (remapPage (pageNode qp7) (page0 ++ tableTag [1] ++ tableTag [1])).toOption.map (·.2) = some [tableRef 1 2, tableRef 1 2] ∧
    1 ≤ quotaLeft (pageNode qp7) 3 0 ∧
    (takeFrames (pageNode qp7) (ctxOf (pageNode qp7) 3).slice 0 3 .reserved anyFrame 1 []).map (·.1) = some [2] := by decide +kernel
/-- The last 16 of a page's 16,400 bytes, the others having arrived. -/
def lastPart : Frame := { lonePacket 0xA4 6 0 (tableTag [1] ++ tableTag [1]) with
  body := ({ dst := 7, src := 8, last := true, psn := 6 } : Tp).bytes ++ tableTag [1] ++ tableTag [1] }
theorem test_push : let t := after (.page 5 lastPart []) (pageNode { deaf with recvMsg := 16, recvBuf := page0 })
    (tfind t.tier.frames 2).map (·.tabs) = some [129, 129] ∧ (qpOf t 7).recvPsn = 7 ∧ (qpOf t 7).recvBuf = [] := by decide +kernel
theorem test_push_unbound : let t := after (.page 5 lastPart []) { pageNode { deaf with recvMsg := 16, recvBuf := page0 } with weft := paged.weft }
    (qpOf t 7).st = .error ∧ (statusOf t Off.COMP_STATUS).hi.getLsbD 5 = true := by decide +kernel
theorem test_hyp_plain : dataLengthOk qp7 (tpOf (qpPacket 0xA4 6 8 (putLe 8 1)).body) 8 8 8 = true ∧ (putLe 8 1).length ≠ pageLen ∧
    (remapPage (pageNode qp7) (zeros 16400)).toOption = none := by decide +kernel
theorem test_plain : let t := after (.page 5 (lonePacket 0xA4 6 8 (putLe 8 1)) []) (pageNode deaf)
    Out.plainPage 7 (putLe 8 1) ∈ t.out ∧ (qpOf t 7).recvPsn = 7 := by decide +kernel
/-- A page pushed plain: one that decodes, to nothing, and one that is no page. -/
def plainPush (pfn : Nat) : Wr := { op := 3, flags := 1, length := 1, loc := pfn, posted := true }
theorem test_hyp_decode_push : (decodePush (qpNode qp7) qp7 (plainPush 5)).toOption.isSome = false ∧ (plainPush 5).plain = true ∧
    mustWait (qpNode qp7) (regionsOf (sourceFrames (plainPush 5) 4096)) = false ∧
    (decodePush (qpNode qp7) qp7 wrWrite).toOption.isSome = true := by decide +kernel
/-- A page of one position of 32 zeros in each tensor, coded under slot 1's table. -/
def zeroTable : Bytes := putLe 2 0x5154 ++ [1, 4, 1, 1] ++ putLe 2 1 ++ [0, 1] ++ zeros 6
def zeroPage : Bytes :=
  let b := (encodeBlock (tableOf zeroTable) 129 0 [(List.replicate 32 0, [])]).1
  buildPage { fmt := 4, vFmt := 4, stream := 9, ctx := 3, count := 1, kTable := 129, vTable := 129 } [] b b
def zeroNode : State :=
  let s := pageNode qp7
  { s with mem := { s.mem with cells := memWrite [] 0 zeroPage }, weft := { s.weft with slots := [(1, { st := .bound, bytes := zeroTable, gen := 2 })] } }
theorem test_hyp_plain_page : tableGood zeroTable 4 false = true ∧ (decodePush zeroNode qp7 (plainPush 0)).toOption.isSome = true := by decide +kernel
/-- The PAGE_READ that PF0 posted has been sent as PSN 5; four of a page's five packets have come. -/
def sentPageRead (placed : Nat) (body : Bytes) : Wr := { wrPageRead with sent := 1, endPsn := some 14, placed := placed, body := body, posted := true }
def pageReading (placed : Nat) (body : Bytes) : State := pageNode { qp7 with sendPsn := 15, sq := [sentPageRead placed body] }
def pageAnswer (psn : Nat) (last : Bool) (payload : Bytes) : Frame :=
  { op := 0xA4, tc := 3, src := 9, dst := 2, session := 2, body := ({ dst := 7, src := 8, psn := psn, last := last } : Tp).bytes ++ payload }
theorem test_hyp_page_answer : (answerQp (pageReading 0 []) 5 (pageAnswer 5 false [])).isSome = true ∧
    (∀ n ∈ [0, 4], (readWr (qpOf (pageReading n []) 7) 4 (5 + n)).any (fun x => x.1 == 0 && psnAdd x.2.2 n == 5 + n) = true) ∧
    mustWait (pageReading 0 []) (regionsOf (framesAt 5 32768) ++ [qpKey 7]) = false ∧ (page0 ++ tableTag [1] ++ tableTag [1]).length = pageLen ∧
    (remapPage (pageReading 4 page0) (page0 ++ tableTag [1] ++ tableTag [1])).toOption.isSome = true := by decide +kernel
theorem test_page_answer : ((qpOf (after (.page 5 (pageAnswer 5 false [1, 2]) []) (pageReading 0 [])) 7).sq.map fun w => (w.placed, w.body)) = [(1, [1, 2])] ∧
    (after (.page 5 (pageAnswer 9 true (zeros 16)) []) (pageReading 4 page0)).qpe.postStatus = St.TABLE_UNBOUND := by decide +kernel
theorem test_page_part : let t := after (.page 5 { lonePacket 0xA4 6 0 (putLe 8 1) with
      body := ({ dst := 7, src := 8, first := true, psn := 6, len := 16400 } : Tp).bytes ++ putLe 8 1 } []) (pageNode deaf)
    (qpOf t 7).recvBuf = putLe 8 1 ∧ (qpOf t 7).recvMsg = 16392 ∧ (qpOf t 7).recvPsn = 7 := by decide +kernel
theorem test_page_read : (qpOf (after (.pageRead 5 (lonePacket 0xA5 6 0 []) { ask := askPage }) (pageNode deaf)) 7).recvPsn = 16 ∧
    (qpOf (after (.pageRead 5 (lonePacket 0xA5 6 0 []) { ask := { page := 8 } }) (pageNode deaf)) 7).st = .error := by decide +kernel

/-! ### Answers at the requester -/

/-- The READ has been sent as PSN 5, with a WRITE of one packet before it as PSN 4. -/
def sentRead : Wr := { wrRead with sent := 64, endPsn := some 5 }
def sentWrite : Wr := { wrWrite with length := 64, sent := 64, endPsn := some 4 }
def out (psn op : Nat) (resent : Bool) : SentPkt := { psn := psn, frame := { op := op }, resent := resent }
def answer (op len nak : Nat) (psn : Nat) (payload : Bytes) : Frame :=
  { op := op, tc := 3, src := 9, dst := 2, session := 2, body := ({ dst := 7, src := 8, psn := psn, len := len, nak := nak } : Tp).bytes ++ payload }
def readNode : State := qpNode { qp7 with sendPsn := 6, sq := [sentRead], unacked := [out 5 0xA1 false] }
theorem test_hyp_answer : alive readNode = true ∧ (answerQp readNode 5 (answer 0xA2 0 0 5 (zeros 64))).isSome = true ∧
    readWr (qpOf readNode 7) 1 5 = some (0, sentRead, 5) ∧ psnAdd 5 ((0x100 % 4096 + 0) / 4096) = 5 ∧ chunkAt 0x100 0 64 = 64 := by decide +kernel
theorem test_read_resp : let t := after (.readResp 5 (answer 0xA2 0 0 5 (List.replicate 64 7))) readNode
    spaceRead t 3 0x14200 64 = List.replicate 64 7 ∧ (qpOf t 7).sq = [] ∧ (qpOf t 7).unacked = [] := by decide +kernel
/-- Two WRITE packets are out, of the one retransmission or busy answer the limits still allow. -/
def outNode (q : Qp) : State := qpNode { q with sendPsn := 6, sq := [{ sentWrite with endPsn := some 5 }], unacked := [out 4 0xA0 true, out 5 0xA0 true], inflight := 112 }
theorem test_hyp_ack : (ackedPkts 4 (qpOf (outNode qp7) 7).unacked).1.length = 1 ∧ (ackedPkts 3 (qpOf (outNode qp7) 7).unacked).1 = [] ∧
    (answerQp (outNode qp7) 5 (answer 0xA8 4 0 0 [])).isSome = true ∧ busyCause St.RECEIVER_BUSY = true ∧ busyCause St.PSN_SEQUENCE = false ∧ busyCause St.KEY_INVALID = false ∧
    qp7.busyMax = 2 ∧ qp7.retryMax = 3 ∧ (qpOf (outNode qp7) 7).unacked ≠ [] := by decide +kernel
theorem test_ack : ((qpOf (after (.ack 5 (answer 0xA8 4 0 0 [])) (outNode { qp7 with retries := 2 })) 7).unacked.map (·.psn)) = [5] ∧
    (qpOf (after (.ack 5 (answer 0xA8 4 0 0 [])) (outNode { qp7 with retries := 2 })) 7).retries = 0 ∧
    (after (.ack 5 (answer 0xA8 5 0 0 [])) (outNode qp7)).qpe.postStatus = 0 ∧ (qpOf (after (.ack 5 (answer 0xA8 5 0 0 [])) (outNode qp7)) 7).sq = [] := by decide +kernel
theorem test_nak : (qpOf (after (.nak 5 (answer 0xA9 4 St.RECEIVER_BUSY 0 [])) (outNode qp7)) 7).waiting = some 4 ∧
    (qpOf (after (.nak 5 (answer 0xA9 4 St.RECEIVER_BUSY 0 [])) (outNode { qp7 with busyUsed := 2 })) 7).st = .error ∧
    (after (.nak 5 (answer 0xA9 4 St.KEY_INVALID 0 [])) (outNode qp7)).qpe.postStatus = St.KEY_INVALID := by decide +kernel
theorem test_hyp_timers : qpeOn (outNode qp7) = true ∧ (qpOf (outNode { qp7 with sinceAck := 1 }) 7).sinceAck ≠ 0 ∧ qp7.retries + 1 ≤ qp7.retryMax ∧
    (qpOf (outNode { qp7 with retries := 3 }) 7).retryMax < 3 + 1 ∧ (qpOf (outNode { qp7 with waiting := some 4 }) 7).waiting = some 4 ∧
    (qpOf (outNode { qp7 with fetching := true }) 8).fetching = false ∧ (qpOf (outNode { qp7 with fetching := true }) 7).fetching = true ∧
    (cacheIn (outNode qp7) 7).isSome = true ∧ heldFor (outNode qp7) 7 = false := by decide +kernel
theorem test_timeout_fails : (qpOf (after (.retransmitTimeout 7) (outNode { qp7 with retries := 3 })) 7).st = .error ∧
    (after (.retransmitTimeout 7) (outNode { qp7 with retries := 3 })).qpe.postStatus = St.RETRY_EXCEEDED := by decide +kernel
theorem test_retransmit : let t := after (.retransmitTimeout 7) (outNode deaf)
    (qpOf t 7).retries = 1 ∧ (qpOf t 7).window = 4096 ∧ (qpOf t 7).unacked.all (·.resent) = true := by decide +kernel
theorem test_hint : (qpOf (after (.nakHintExpiry 7) (outNode { deaf with waiting := some 5 })) 7).waiting = none := by decide +kernel
/-- Contexts lie in host memory, and PF0 is in D3hot. -/
def sleepingHost : State := reg { outNode qp7 with hostq := { (outNode qp7).hostq with pf0D3 := true } } Off.QPE_CTRL 3
theorem test_hyp_context_fetch : rbit (outNode qp7) Off.QPE_CTRL 1 = false ∧ rbit sleepingHost Off.QPE_CTRL 1 = true ∧ sleepingHost.hostq.pf0D3 = true ∧
    alive sleepingHost = true ∧ qpeOn sleepingHost = true := by decide +kernel
theorem test_fetch_done : (qpOf (after (.contextFetchDone 7 []) (outNode { qp7 with fetching := true })) 7).fetching = false := by decide +kernel
/-- A full cache, every context of which has a work request: nothing makes room. -/
def pinnedNode : State :=
  { outNode { qp7 with fetching := true } with qpe :=
    { qps := (7, { qp7 with fetching := true }) :: (List.range cacheSize).map fun k => (k + 8, { sq := [wrRead] }), cache := (List.range cacheSize).map (· + 8) } }
theorem test_hyp_cache_full : cacheIn pinnedNode 7 = none := by
  have h : pinnedNode.qpe.cache.filter (· != 7) = pinnedNode.qpe.cache := by
    rw [List.filter_eq_self]; intro a ha; simp [pinnedNode] at ha; obtain ⟨b, -, rfl⟩ := ha; simp
  have p : ∀ k ∈ pinnedNode.qpe.cache, pinned' pinnedNode k = true := by
    intro k hk; simp [pinnedNode] at hk; obtain ⟨b, hb, rfl⟩ := hk
    have f (l : List Nat) (hl : b ∈ l) : tfind (l.map fun k => (k + 8, ({ sq := [wrRead] } : Qp))) (b + 8) = some { sq := [wrRead] } := by
      induction l with
      | nil => simp at hl
      | cons a l ih =>
        by_cases e : a = b
        · simp [tfind, e]
        · simp [tfind, e, ih (by simpa [Ne.symm e] using hl)]
    have g : qpOf pinnedNode (b + 8) = { sq := [wrRead] } := by
      simp [qpOf, tget, pinnedNode, tfind, f _ (List.mem_range.2 hb)]
    simp [pinned', g]
  have n : pinnedNode.qpe.cache.length = cacheSize := by simp [pinnedNode]
  have e : (pinnedNode.qpe.cache.reverse.find? fun k => !pinned' pinnedNode k) = none := by
    rw [List.find?_eq_none]; intro k hk; simp [p k (List.mem_reverse.1 hk)]
  simp [cacheIn, h, n, e]

/-! ### Egress -/

/-- Port 5 with credits and a queue of one class; its session of context 3 is 2. -/
def egrNode (tc : Nat) (q : List QFrame) : State :=
  let s := linkNode
  let port := portOf s 5
  { s with ports := [(5, { port with txCredits := List.replicate 8 100 })], egr := { s.egr with ports := [(5, { queues := [(tc, q)], turn := max 3 tc })] } }
/-- A WRITE of 4,096 bytes, 4,184 bytes long, and a LOAD. -/
def bigWrite : QFrame := { ctx := 3, frame := { op := 0xA0, tc := 3, dst := 9, size := 4096, body := zeros 4128 } }
def aLoad : QFrame := { ctx := 3, frame := { op := 1, tc := 2, dst := 9, size := 64 } }
theorem test_hyp_egress : alive (egrNode 2 [aLoad]) = true ∧ (∀ e ∈ (portOf (egrNode 2 [aLoad]) 5).sessions, e.2.closing = false) ∧
    ((headReady (accrue (egrNode 2 [aLoad]) 5) 5 2).any fun f => f.session == 2) = true ∧ tget [] (eport (egrNode 2 [aLoad]) 5).queues 2 = [aLoad] ∧
    (tfind (portOf (egrNode 2 [aLoad]) 5).sessions 2).isSome = true ∧ (∀ j, j < 2 → headReady (accrue (egrNode 2 [aLoad]) 5) 5 j = none) ∧
    ∀ c, c < 8 → headReady (accrue (egrNode 2 []) 5) 5 c = none := by decide +kernel
/-- Port 5 has nothing to start, and three credits of class 2 to return. -/
def owing : State := { egrNode 2 [] with ports := [(5, { portOf (egrNode 2 []) 5 with owed := [0, 0, 3, 0, 0, 0, 0, 0] })] }
theorem test_hyp_due : (linked (portOf (egrNode 2 []) 5) && ((portOf (egrNode 2 []) 5).ackDue != 0 || (creditOut (egrNode 2 []) 5).2 != 0)) = false ∧
    linked (portOf owing 5) = true ∧ creditOut owing 5 = (2, 3) ∧ (∀ c, c < 8 → headReady (accrue owing 5) 5 c = none) ∧
    classFrames (eport (egrNode 2 [aLoad]) 5) 2 = [aLoad] := by decide +kernel
theorem test_hyp_group : ((headReady (accrue (egrNode 3 [bigWrite]) 5) 5 3).any fun f => counted (egrNode 3 [bigWrite]) 5 f == 4184) = true ∧
    (∀ j, j < 3 → headReady (accrue (egrNode 3 [bigWrite]) 5) 5 j = none) ∧ (eport (egrNode 3 [bigWrite]) 5).turn = 3 ∧
    quantumOf (reg (egrNode 3 [bigWrite]) (rkey (Off.EGR_DRR_QUANTUM 5) 3) 256) 5 3 = 16384 := by decide +kernel
theorem test_frame_start : let t := after (.egressFrameStart 5 0) (egrNode 2 [aLoad])
    tget [] (eport t 5).queues 2 = [] ∧ (tfind (portOf t 5).sessions 2).map (·.txCtr) = some 1 ∧ (portOf t 5).replay.length = 1 ∧ (portOf t 5).txCredits.getD 2 0 = 99 := by
  decide +kernel
/-- R318: three frames of 4,184 bytes leave on a quantum of 16,384, and 3,832 remain when TC4 has its turn; each frame here is one start. -/
def drrNode : State := reg (egrNode 3 (List.replicate 5 bigWrite)) (rkey (Off.EGR_DRR_QUANTUM 5) 3) 256
theorem test_drr : let s := setEport drrNode 5 { eport drrNode 5 with deficit := [(3, 3832 + 4184)], inTurn := true }
    let r := drrTurns s 5 1 (eport s 5)
    r.1.map (·.1) = some 3 ∧ tget 0 r.2.deficit 3 = 3832 ∧ (drrTurns s 5 1 r.2).1 = none ∧ (drrTurns s 5 1 r.2).2.turn = 4 := by decide +kernel
/-- R324: guard bands at full width and DEGRADED. -/
theorem test_guard : (guardOf up 0 1 false, guardOf up 0 1 true) = (11, 21) ∧ (guardOf up 0 2 false, guardOf up 0 2 true) = (20, 39) ∧
    (guardOf up 0 7 false, guardOf up 0 7 true) = (20, 39) := by decide +kernel
/-- The windows of TC2 [10,000, 12,000) and [18,000, 20,000) of R325's example. -/
def exampleGates : GateSet := { lists := [(2, [{ dur := 2000, opened := true }, { dur := 6000 }])], cycle := 8000, base := 10000 }
def gateNode (t : Nat) : State :=
  let s := reg (egrNode 2 [aLoad]) (Off.EGR_CTRL 5) 1
  { s with clk := { s.clk with counter := t }, egr := { s.egr with ports := [(5, { queues := [(2, [aLoad])], active := some exampleGates })] } }
theorem test_gate_example : [10000, 11979, 11980, 11985, 12000, 18000].map (fun t => gateOpen (gateNode t) 5 2) = [true, true, false, false, false, true] := by decide +kernel
/-- The admin lists: TC2 has the two entries of the example, of which the second lasts `d` cycles. -/
def listNode (base cycle d : Nat) (e : EPort) : State :=
  let s := reg (reg (egrNode 2 []) (Off.EGR_GATE_BASE_LO 5) base) (Off.EGR_GATE_CYCLE 5) cycle
  let s := reg (reg (reg s (rkey (Off.EGR_GATE_LEN 5) 2) 2) (rkey (Off.EGR_GATE_ENTRY 5) 512) (2 ^ 31 + 8000 - d)) (rkey (Off.EGR_GATE_ENTRY 5) 513) d
  { s with egr := { s.egr with ports := [(5, e)] } }
theorem test_hyp_install : served (listNode 10000 8000 6000 {}) pf0 (Off.EGR_GATE_CMD 5) = true ∧ privileged (listNode 10000 8000 6000 {}) pf0 = true ∧
    (eport (listNode 10000 8000 6000 { pending := some exampleGates }) 5).pending.isSome = true ∧ (eport (listNode 10000 8000 6000 {}) 5).pending = none ∧
    rf (listNode 10000 0 6000 {}) (Off.EGR_GATE_CYCLE 5) 0 32 = 0 ∧ rf (listNode 10000 8000 6000 {}) (Off.EGR_GATE_CYCLE 5) 0 32 = 8000 ∧
    (∀ c, c < 8 → 1 ≤ c → listRefusal (listNode 10000 8000 6000 {}) 5 8000 c = none) ∧ listRefusal (listNode 10000 8000 7980 {}) 5 8000 1 = none ∧
    listRefusal (listNode 10000 8000 7980 {}) 5 8000 2 = some (St.GATE_WINDOW_SHORT, some 0) ∧ listRefusal (listNode 10000 8000 7979 {}) 5 8000 2 = none ∧
    listRefusal (listNode 10000 9000 6000 {}) 5 9000 2 = some (St.GATE_LIST_BAD, none) ∧ listRefusal (listNode 10000 8000 0 {}) 5 8000 2 = some (St.GATE_LIST_BAD, some 1) ∧
    rpair (listNode 1024 8000 6000 {}) (Off.EGR_GATE_BASE_LO 5) = 0 + 1024 ∧ rpair (listNode 1023 8000 6000 {}) (Off.EGR_GATE_BASE_LO 5) < 0 + 1024 := by decide +kernel
theorem test_install : ((eport (after (.gateInstall pf0 5) (listNode 1024 8000 6000 {})) 5).pending.map fun g => (g.cycle, g.base, (tget [] g.lists 2).length)) = some (8000, 1024, 2) ∧
    (eport (after (.gateInstall pf0 5) (listNode 10000 8000 7980 {})) 5).resStatus = St.GATE_WINDOW_SHORT ∧
    (eport (after (.gateCancel pf0 5) (listNode 0 0 0 { pending := some exampleGates })) 5).pending = none := by decide +kernel
theorem test_hyp_base : alive (listNode 0 0 0 { pending := some exampleGates }) = true ∧ (listNode 0 0 0 {}).clk.counter < exampleGates.base ∧
    (eport (gateNode 10000) 5).active = some exampleGates ∧ exampleGates.cycle ≠ 0 ∧ tget [] exampleGates.lists 2 ≠ [] := by decide +kernel
theorem test_base : (after (.gateBase 5) (listNode 0 0 0 { pending := some exampleGates })).clk.counter = 10000 ∧
    (after (.gateEntryEnd 5 2) (gateNode 10500)).clk.counter = 12000 ∧ (after (.gateEntryEnd 5 2) (gateNode 12000)).clk.counter = 18000 := by decide +kernel

/-! ### Ill-formed commands: one for each check of WellFormed -/

/-- A requester ID is 16 bits wide. -/
def badM : Master := .pcie 65536
/-- Every command of a register master checks its master. -/
theorem test_wf_rejects_master : ∀ c ∈ ([.recoveryLoad badM [] (boots true false),
    .ringEnable badM 0, .ringDisable badM 0, .unsealPool badM 24, .unsealOwned badM 24 0, .sealRegion badM 24, .release badM 24, .unitStart badM 0 0,
    .unitHalt badM 0, .plaitSearch badM 0, .plaitNext badM 0, .plaitInsert badM 0 0, .plaitInsertUnique badM 0 0, .plaitDelete badM 0 0,
    .portEnable badM 0 0, .portRetrain badM 0, .qpePost badM 0, .gateInstall badM 0, .gateCancel badM 0, .budgetWrite badM 0,
    .clusterReqWrite badM .normal 0, .enrolKey badM 0 0, .removeKey badM 0, .fenceUnit badM 1 0, .rejoinUnit badM 1 0 false false false,
    .groupActivate badM 0, .registerWrite badM .normal 0 0 0 0, .seqWriteBack badM 0 0, .statusRead badM 0 1, .loReadLatch badM 0 1, .stageAppend badM,
    .check badM, .commit badM, .stageClear badM, .quiesceRelease badM, .fabCmdLoad badM 0 false, .fabCmdStore badM 0 false,
    .fabCmdFetchAdd badM 0 false, .fabCmdSwap badM 0 false, .fabCmdCmpSwap badM 0 false, .fabCmdFetchMin badM 0 false false,
    .fabCmdFetchMax badM 0 false false, .qpCreate badM, .qpReset badM, .qpDestroy badM, .register badM, .revoke badM, .brakeAck badM,
    .erase badM false false, .setCredential badM, .attest badM, .advanceSv badM, .secDataAccess badM none, .fenceNode badM, .unfenceNode badM,
    .rebuildSend badM, .rebuildRecv badM, .shadowStart badM, .promote badM, .safe badM 0, .tierFlush badM false, .parityAddrRead badM,
    .svcDataRead badM] : List Instr), c.wf = false := by decide +kernel
/-- Operands out of their ranges. -/
theorem test_wf_rejects_operand_1 : ∀ c ∈ ([.vfFlr 64, .vfFlr 0, .vfD3hot 64, .vfD3hot 0,
    .msixModerationTimer 2048, .ringEnable pf0 (2 ^ 32), .ringDisable pf0 (2 ^ 32), .ringDisabled 4097, .corePassEnd 0 128 [], .scrubDone (2 ^ 32),
    .handoffOffer 4096 0 0 0 0 0 0 (zeros 32) [], .handoffOffer 0 (2 ^ 24) 0 0 0 0 0 (zeros 32) [], .handoffOffer 0 0 (2 ^ 32) 0 0 0 0 (zeros 32) [],
    .handoffOffer 0 0 0 16384 0 0 0 (zeros 32) [], .handoffDrained (2 ^ 24), .handoffAccept (2 ^ 24) 0, .handoffAccept 0 (2 ^ 32),
    .handoffRefuse (2 ^ 24) 0 0, .handoffRefuse 0 (2 ^ 32) 0, .handoffTimeout (2 ^ 24), .handoffQuery 4096 0 0 0, .handoffQuery 0 16384 0 0,
    .handoffQuery 0 0 (2 ^ 24) 0, .handoffQuery 0 0 0 (2 ^ 32), .handoffAnswer (2 ^ 24) 0 0, .handoffAnswer 0 (2 ^ 32) 0, .handoffAnswer 0 0 3,
    .handoffResolve 4096 0 [] false, .handoffResolve 0 (2 ^ 24) [] false, .comaQueueStart 8, .indexDrained 1024, .slotScrubStart 4096,
    .contextRemoveDone 4096, .retireDrained 256, .tableSlotFree 64, .imageLoadComplete 256, .partialRec 8 0 [], .partialRec 0 4 [], .oNop 2048,
    .oYield 2048, .oHalt 2048, .oLoop 2048, .oSetc 2048, .oSeta 2048, .oAdda 2048, .oNext 2048, .oLd 2048, .oSt 2048, .oLdl 2048, .oStl 2048,
    .oAdd 2048, .oMul 2048, .oFold 2048, .oAct 2048, .oMsk 2048, .oOut 2048, .oImac 2048, .refreshDue 2048, .yieldWindowExpiry 2048, .refreshDone 2048,
    .unsealPool pf0 32, .unsealPool pf0 23, .unsealOwned pf0 32 0, .unsealOwned pf0 23 0, .unsealOwned pf0 24 4096, .sealRegion pf0 32,
    .sealRegion pf0 23, .release pf0 32, .release pf0 23, .sealSweepStart 32 0, .sealSweepStart 23 0, .sealSweepStart 24 24576, .sealSweepDone 32 0 [],
    .sealSweepDone 23 0 [], .sealSweepDone 24 24576 []] : List Instr), c.wf = false := by decide +kernel
/-- Operands out of their ranges. -/
theorem test_wf_rejects_operand_2 : ∀ c ∈ ([.releaseScrubDone 32 0, .releaseScrubDone 23 0,
    .releaseScrubDone 24 24576, .unitStart pf0 2048 0, .unitStart pf0 0 256, .unitHalt pf0 2048, .plaitSearch pf0 4096, .plaitNext pf0 4096,
    .plaitInsert pf0 4096 0, .plaitInsert pf0 0 65536, .plaitInsertUnique pf0 4096 0, .plaitInsertUnique pf0 0 65536, .plaitDelete pf0 4096 0,
    .plaitDelete pf0 0 65536, .shiftDone 64, .plaitParitySweep 64 {}, .portEnable pf0 24 0, .portEnable pf0 0 (2 ^ 32), .portRetrain pf0 24,
    .detect 24, .equalise 24 0, .lock 24, .peerExchange 24 0 0 [], .peerExchange 0 16384 0 [], .peerExchange 0 0 2 [], .trainingTimeout 24,
    .portRetry 24, .fecLimitExceeded 24 0, .portDown 24, .flitReceive 24 (zeros 256) 0, .replayTimeout 24, .authHello 24 (zeros 948),
    .authProof 24 (zeros 384), .sessionOpen 24 0 0 0, .sessionOpen 0 65536 0 0, .sessionOpen 0 0 (2 ^ 32) 0, .sessionOpen 0 0 0 65536,
    .sessionAccept 24 0, .sessionAccept 0 65536, .sessionRefuse 24 0 0, .sessionRefuse 0 65536 0, .sessionClose 24 0, .sessionClose 0 65536,
    .sessionRekey 24 0, .sessionRekey 0 65536, .load 24 {} [], .load 0 { tc := 8 } [], .store 24 {}, .store 0 { tc := 8 }, .fetchAdd 24 {} [],
    .fetchAdd 0 { tc := 8 } [], .swap 24 {} [], .swap 0 { tc := 8 } [], .cmpSwap 24 {} [], .cmpSwap 0 { tc := 8 } [], .fetchMin 24 {} [],
    .fetchMin 0 { tc := 8 } [], .fetchMax 24 {} [], .fetchMax 0 { tc := 8 } [], .loadResp { tc := 8 }, .storeResp { tc := 8 }, .atomicResp { tc := 8 },
    .requestTimeout 65536, .rtagHoldExpiry 65536, .qpDrained (2 ^ 24), .revokeDone (2 ^ 20), .qpePost pf0 (2 ^ 24), .qpSend (2 ^ 24) [], .write 24 {},
    .write 0 { tc := 8 }, .readReq 24 {} [], .readReq 0 { tc := 8 } [], .readResp 24 {}, .readResp 0 { tc := 8 }, .page 24 {} []] : List Instr), c.wf = false := by decide +kernel
/-- Operands out of their ranges. -/
theorem test_wf_rejects_operand_3 : ∀ c ∈ ([.page 0 { tc := 8 } [], .pageRead 24 {} {},
    .pageRead 0 { tc := 8 } {}, .ack 24 {}, .ack 0 { tc := 8 }, .nak 24 {}, .nak 0 { tc := 8 }, .ackTimer (2 ^ 24), .retransmitTimeout (2 ^ 24),
    .nakHintExpiry (2 ^ 24), .contextFetchDone (2 ^ 24) [], .shardRequest (2 ^ 24) [], .parityDelta 16384 [] [], .remoteAttend (2 ^ 24) [],
    .egressFrameStart 24 0, .gateEntryEnd 24 1, .gateEntryEnd 0 8, .gateEntryEnd 0 0, .gateInstall pf0 24, .gateCancel pf0 24, .gateBase 24,
    .budgetWrite pf0 4096, .thermalTrip 128 0, .clusterReqWrite pf0 .normal (2 ^ 32), .clusterSleep 32, .clusterPowerUp 32 false false, .stackSleep 32,
    .stackWake 32, .enrolKey pf0 8 0, .enrolKey pf0 0 4, .removeKey pf0 8, .groupActivate pf0 4096, .canaryDone 128 false,
    .registerWrite pf0 .normal (2 ^ 24) 0 0 0, .registerWrite pf0 .normal 0 (2 ^ 64) 0 0, .registerWrite pf0 .normal 0 0 0 256,
    .seqWriteBack pf0 (2 ^ 26) 0, .seqWriteBack pf0 0 (2 ^ 32), .statusRead pf0 (2 ^ 26) 1, .statusRead pf0 0 4097, .statusRead pf0 0 0,
    .loReadLatch pf0 (2 ^ 26) 1, .loReadLatch pf0 0 4097, .loReadLatch pf0 0 0, .setdasa 128 0, .setdasa 0 128, .entdaa 128, .msixUnmask 64 {},
    .generationRetired 65536, .arrivalTimeout (2 ^ 32) 0, .arrivalTimeout 0 256, .shadowUnmatched (2 ^ 32) 0 0, .shadowUnmatched 0 256 0,
    .shadowUnmatched 0 0 1024, .fabCmdLoad pf0 4096 false, .fabCmdStore pf0 4096 false, .fabCmdFetchAdd pf0 4096 false, .fabCmdSwap pf0 4096 false,
    .fabCmdCmpSwap pf0 4096 false, .fabCmdFetchMin pf0 4096 false false, .fabCmdFetchMax pf0 4096 false false, .safe pf0 65536, .enec 256, .disec 256,
    .flitReceive 0 (zeros 255) 0, .authHello 0 (zeros 947), .authProof 0 (zeros 385), .handoffOffer 0 0 0 0 0 0 0 (zeros 31) [],
    .handoffOffer 0 0 0 0 0 0 0 (zeros 32) [(1024, 0, 0, 0)], .handoffOffer 0 0 0 0 0 0 0 (zeros 32) [(0, 256, 0, 0)],
    .handoffOffer 0 0 0 0 0 0 0 (zeros 32) [(0, 0, 2 ^ 26, 0)], .pageRead 0 {} { ask := { pfn := 2 ^ 32 } },
    .pageRead 0 {} { ask := { page := 2 ^ 64 } }, .pageRead 0 {} { ask := { block := 2 ^ 26 } }, .msixUnmask 0 { vec := 2048 }] : List Instr), c.wf = false := by decide +kernel
/-- Operands out of their ranges. -/
theorem test_wf_rejects_operand_4 : ∀ c ∈ ([.msixUnmask 0 { addr := 2 ^ 64 }, .msixUnmask 0 { data := 2 ^ 32 },
    .plaitParitySweep 0 { pos := 65536 }, .plaitParitySweep 0 { upsets := [(64, 0)] }, .plaitParitySweep 0 { upsets := [(0, 65544)] },
    .thermalSample (List.replicate 129 none), .paritySweep (some (2 ^ 56, 0)) false, .fenceUnit pf0 1 128, .fenceUnit pf0 2 32, .fenceUnit pf0 3 32,
    .fenceUnit pf0 4 2048, .fenceUnit pf0 5 16, .fenceUnit pf0 6 24, .fenceUnit pf0 7 128, .fenceUnit pf0 8 8, .fenceUnit pf0 9 0,
    .rejoinUnit pf0 8 8 false false false, .epochWaitTimeout 8 8, .loadResp { op := 256 }, .loadResp { tc := 8 }, .loadResp { dst := 16384 },
    .loadResp { src := 16384 }, .loadResp { session := 65536 }, .loadResp { rtag := 65536 }, .loadResp { key := 2 ^ 32 }, .loadResp { size := 65536 },
    .loadResp { addr := 2 ^ 64 }, .loadResp { counter := 2 ^ 48 }] : List Instr), c.wf = false := by decide +kernel
/-- The same commands in range. -/
theorem test_wf_accepts : ∀ c ∈ ([.vfFlr 1, .vfD3hot 1, .recoveryLoad pf0 [] (boots true false),
    .msixModerationTimer 0, .ringEnable pf0 0, .ringDisable pf0 0, .ringDisabled 0, .corePassEnd 0 0 [], .scrubDone 0,
    .handoffOffer 0 0 0 0 0 0 0 (zeros 32) [], .handoffDrained 0, .handoffAccept 0 0, .handoffRefuse 0 0 0, .handoffTimeout 0, .handoffQuery 0 0 0 0,
    .handoffAnswer 0 0 0, .handoffResolve 0 0 [] false, .comaQueueStart 0, .indexDrained 0, .slotScrubStart 0, .contextRemoveDone 0, .retireDrained 0,
    .tableSlotFree 0, .imageLoadComplete 0, .partialRec 0 0 [], .oNop 0, .oYield 0, .oHalt 0, .oLoop 0, .oSetc 0, .oSeta 0, .oAdda 0, .oNext 0, .oLd 0,
    .oSt 0, .oLdl 0, .oStl 0, .oAdd 0, .oMul 0, .oFold 0, .oAct 0, .oMsk 0, .oOut 0, .oImac 0, .refreshDue 0, .yieldWindowExpiry 0, .refreshDone 0,
    .unsealPool pf0 24, .unsealOwned pf0 24 0, .sealRegion pf0 24, .release pf0 24, .sealSweepStart 24 0, .sealSweepDone 24 0 [],
    .releaseScrubDone 24 0, .unitStart pf0 0 0, .unitHalt pf0 0, .plaitSearch pf0 0, .plaitNext pf0 0, .plaitInsert pf0 0 0,
    .plaitInsertUnique pf0 0 0, .plaitDelete pf0 0 0, .shiftDone 0, .plaitParitySweep 0 {}, .portEnable pf0 0 0, .portRetrain pf0 0, .detect 0,
    .equalise 0 0, .lock 0, .peerExchange 0 0 0 [], .trainingTimeout 0, .portRetry 0, .fecLimitExceeded 0 0, .portDown 0, .flitReceive 0 (zeros 256) 0,
    .replayTimeout 0, .authHello 0 (zeros 948), .authProof 0 (zeros 384), .sessionOpen 0 0 0 0, .sessionAccept 0 0, .sessionRefuse 0 0 0,
    .sessionClose 0 0, .sessionRekey 0 0, .load 0 {} [], .store 0 {}, .fetchAdd 0 {} [], .swap 0 {} [], .cmpSwap 0 {} [], .fetchMin 0 {} [],
    .fetchMax 0 {} [], .loadResp {}, .storeResp {}, .atomicResp {}, .requestTimeout 0, .rtagHoldExpiry 0, .qpDrained 0, .revokeDone 0, .qpePost pf0 0,
    .qpSend 0 [], .write 0 {}, .readReq 0 {} [], .readResp 0 {}, .page 0 {} [], .pageRead 0 {} {}, .ack 0 {}, .nak 0 {}, .ackTimer 0,
    .retransmitTimeout 0, .nakHintExpiry 0, .contextFetchDone 0 [], .shardRequest 0 [], .parityDelta 0 [] [], .remoteAttend 0 [],
    .egressFrameStart 0 0, .gateEntryEnd 0 1, .gateInstall pf0 0, .gateCancel pf0 0, .gateBase 0, .budgetWrite pf0 0, .thermalSample [],
    .thermalTrip 0 0, .clusterReqWrite pf0 .normal 0, .clusterSleep 0, .clusterPowerUp 0 false false, .stackSleep 0, .stackWake 0, .enrolKey pf0 0 0,
    .removeKey pf0 0, .fenceUnit pf0 1 0, .rejoinUnit pf0 1 0 false false false, .epochWaitTimeout 1 0, .groupActivate pf0 0, .canaryDone 0 false,
    .registerWrite pf0 .normal 0 0 0 0, .seqWriteBack pf0 0 0, .statusRead pf0 0 1, .loReadLatch pf0 0 1, .setdasa 0 0, .entdaa 0, .msixUnmask 0 {},
    .stageAppend pf0, .check pf0, .commit pf0, .stageClear pf0, .generationRetired 0, .arrivalTimeout 0 0, .shadowUnmatched 0 0 0, .quiesceRelease pf0,
    .fabCmdLoad pf0 0 false, .fabCmdStore pf0 0 false, .fabCmdFetchAdd pf0 0 false, .fabCmdSwap pf0 0 false, .fabCmdCmpSwap pf0 0 false,
    .fabCmdFetchMin pf0 0 false false, .fabCmdFetchMax pf0 0 false false, .qpCreate pf0, .qpReset pf0, .qpDestroy pf0, .register pf0, .revoke pf0,
    .brakeAck pf0, .erase pf0 false false, .setCredential pf0, .attest pf0, .advanceSv pf0, .secDataAccess pf0 none, .fenceNode pf0, .unfenceNode pf0,
    .rebuildSend pf0, .rebuildRecv pf0, .shadowStart pf0, .promote pf0, .safe pf0 0, .tierFlush pf0 false, .paritySweep none false,
    .parityAddrRead pf0, .svcDataRead pf0, .enec 0, .disec 0] : List Instr), c.wf = true := by decide +kernel

/-! ### The spec's worked examples -/

/-- R29: 3.1 x 2^7 rounds to 384 in FP8-E4M3, 0.0123 x 2^7 to 1.625; the scale code is 0x78. 3.1 is 0x40466666 and 0.0123 is 0x3C4985F0. -/
theorem test_block_scale : scaleCode 8 [f32 0x40466666, f32 0x3C4985F0] = 0x78 ∧
    (quantRow { fmt := 3, scaling := true, ieee := false, stoch := false } (fun _ => 0) (f32 0x40466666 :: f32 0x3C4985F0 :: List.replicate 30 .zero)).1.take 2 = [0x7C, 0x3D] := by
  decide +kernel
/-- R43 to R46: a score 2.0 below the maximum has code 23, weight 0.136230, and 1.625 in FP8-E4M3 then contributes 454 x 2^-11. -/
theorem test_p8l : p8lCode 0x40400000 0x40A00000 = 23 ∧ p8lProduct 3 0x3D 127 23 = .fin false 454 (-11) ∧ p8lWeight 23 = .fin false 279 (-11) := by decide +kernel
/-- Millionths of a positive FP32 value, to nearest. -/
def micro (w : Word) : Nat := match f32 w with
  | .fin _ m e => (m * 10 ^ 6 * 2 ^ (e.toNat + 1) / 2 ^ (-e).toNat + 1) / 2
  | _ => 0
def partA : Partial := { m := 0x40400000, l := 0x40200000, o := [0x3F800000, 0xBF000000], empty := false, covered := 1 }
def partB : Partial := { m := 0x40A00000, l := 0x3F99999A, o := [0x3F19999A, 0x3F666666], empty := false, covered := 1 }
/-- 04's merge of A, B and the empty C. -/
theorem test_merge : let r := mergeAll [partA, partB, emptyPart 2]
    (r.m, micro r.l, r.o.map micro) = (0x40A00000, 1538338, [735335, 832332]) ∧ r = partA.merge partB := by decide +kernel
/-- R151, R152: the table for FP4-E2M1, its code words, and +0, +1.0, -0.5, +0, +3.0, +0 as 0xAE 0xA6 0x00. -/
def fp4Table : Bytes := putLe 2 0x5154 ++ [1, 7, 4, 3] ++ putLe 2 5 ++ [0x0, 0x1, 0x9, 0x2, 0xA] ++ [1, 3, 3, 4, 4]
theorem test_code_words : tableGood fp4Table 7 false = true ∧ (tableOf fp4Table).kraft = 2 ^ 16 ∧
    (tableOf fp4Table).codes.map (fun c => (c.len, c.val, c.sym)) =
      [(1, 0, some 0), (3, 4, some 1), (3, 5, some 9), (3, 6, none), (4, 14, some 2), (4, 15, some 0xA)] := by decide +kernel
theorem test_coded : let b := encodeBlock (tableOf fp4Table) 0 0 [([0, 2, 9, 0, 5, 0], [])]
    (slice b.1 16 3, leAt b.1 8 4, b.2) = ([0xAE, 0xA6, 0x00], 17, 1) := by decide +kernel
/-- R401: data shards 2 and 5 of 8+2 from the accumulators 0x55 and 0x90. -/
theorem test_rebuild : solveTwo 2 5 [0x55] [0x90] = ([0x33], [0x66]) ∧ gfMul 0x24 0x66 = 0xD9 := by decide +kernel
/-- R311: the window falls to 234,838 bytes. -/
theorem test_congestion : let q : Qp := { window := 262144, target := 32768, srtt := 2400, baseRtt := 1600, baseRun := 1600, basePeriod := 1000000, gain := 128, maxMd := 128, winMax := 2 ^ 26 }
    ((congest q 10000 4184 (10000 - 2400)).1.window, (congest q 10000 4184 (10000 - 2400)).2) = (234838, true) := by decide +kernel
/-- R343: the reconciliation of window 500. -/
theorem test_reconcile : let s := { up with ledger := { up.ledger with debits := 3050000, meas := 3294000, refills := 3200000, scale := 16384 } }
    (reconcile s 500).ledger.scale = 0x4147 ∧ ((reconcile s 500).ledger.recs.head?.map fun r => (r.index, r.err, r.skipped)) = some (5, 80, false) := by decide +kernel
/-- R444: the writes to PORT_CTRL of PORT_7, which reads 0xA03. -/
def portSeven : State := reg up 0x51C008 0xA03
theorem test_views : 0x51C008 = Off.PORT_CTRL 7 ∧ regWord (after (.registerWrite pf0 .set 0x51C008 4 4 15) portSeven) 0x51C008 = 0xA03 ∧
    regWord (after (.registerWrite pf0 .clear 0x51C008 2 4 15) portSeven) 0x51C008 = 0xA01 ∧
    regWord (after (.registerWrite pf0 .toggle 0x51C008 0x1E00 4 15) (reg up 0x51C008 0xA01)) 0x51C008 = 0x1401 ∧
    regWord (after (.registerWrite pf0 .clear 0x51C008 4 4 15) (reg up 0x51C008 0x1401)) 0x51C008 = 0x1401 := by decide +kernel
/-- FIPS 180-4's digest of the empty message. -/
theorem test_sha256 : (sha256 []).take 4 = [0xE3, 0xB0, 0xC4, 0x42] := by decide +kernel

end Sys2Proof.Tests
end

/-!
Proofs. Loads, stores and atomics (11 R277, R281 to R289): O57.

In order: the bytes of a frame and what a put of one leaves of every other; what an ECC event
and an answer leave alone; a request at its target; a response and a timeout at its requester;
the command registers, and the release of a quiesced context.
-/
section
namespace Sys2Proof.Machine
open Sys2Proof

/-! ### A run of bytes that lies in one frame (11 R274, R277) -/

/-- Bytes read back from the cells that hold them. -/
theorem memFill_skip {a n : Nat} {l : List Host.Cell} (h : ∀ c ∈ l, c.1 ≠ a) : memFill a (n + 1) l = emptyByte :: memFill (a + 1) n l := by
  cases l with
  | nil => rfl
  | cons c cs => rw [memFill, if_neg (h c (List.mem_cons_self ..))]

theorem memFill_cellsOf : ∀ (bs : Bytes) (a : Nat), memFill a bs.length (cellsOf a bs) = bs
  | [], _ => rfl
  | b :: bs, a => by
    rw [List.length_cons, cellsOf]
    split
    · rename_i hb
      rw [memFill_skip fun c hc => by have := cellsOf_range bs (a + 1) c hc; omega, memFill_cellsOf bs (a + 1), hb]
    · rw [memFill, if_pos rfl, memFill_cellsOf bs (a + 1)]

/-- Exactly the bytes of a write read back as written, whatever the list held. -/
theorem memRead_memWrite (l : List Host.Cell) (a : Nat) (bs : Bytes) : memRead (memWrite l a bs) a bs.length = bs := by
  have e : ((memWrite l a bs).filter fun c => decide (a ≤ c.1) && decide (c.1 < a + bs.length)) = cellsOf a bs := by
    unfold memWrite
    rw [List.filter_append, List.filter_append, List.filter_filter, List.filter_filter]
    have lo : (l.filter fun c => (decide (a ≤ c.1) && decide (c.1 < a + bs.length)) && decide (c.1 < a)) = [] := by
      simp only [List.filter_eq_nil_iff, Bool.and_eq_true, decide_eq_true_eq]; intro c _; omega
    have hi : (l.filter fun c => (decide (a ≤ c.1) && decide (c.1 < a + bs.length)) && decide (a + bs.length ≤ c.1)) = [] := by
      simp only [List.filter_eq_nil_iff, Bool.and_eq_true, decide_eq_true_eq]; intro c _; omega
    have mid : ((cellsOf a bs).filter fun c => decide (a ≤ c.1) && decide (c.1 < a + bs.length)) = cellsOf a bs := by
      rw [List.filter_eq_self]; intro c hc; simpa using cellsOf_range bs a c hc
    rw [lo, hi, mid, List.nil_append, List.append_nil]
  unfold memRead; rw [e, memFill_cellsOf]

/-- A frame reads back what was written into it under the same tag. -/
theorem frameRead_frameWrite (s : State) (tag : EncTag) (pfn off : Nat) (bs : Bytes) :
    frameRead (frameWrite s tag pfn off bs) tag pfn off bs.length = bs := by
  unfold frameRead frameWrite; dsimp only
  rw [tget_tset_self, if_pos rfl, memRead_memWrite]

/-- A write into a frame leaves the bytes of other frames, and under the frame's own tag every byte that it does not name. -/
theorem memByte_frameWrite_outside (s : State) (tag : EncTag) {pfn off a : Nat} (bs : Bytes) (hl : off + bs.length ≤ 16384)
    (h : a / 16384 ≠ pfn ∨ tget {} s.mem.tags pfn = tag ∧ (a < frameAddr pfn + off ∨ frameAddr pfn + off + bs.length ≤ a)) :
    memByte (frameWrite s tag pfn off bs).mem.cells a = memByte s.mem.cells a := by
  unfold frameWrite frameAddr at *; dsimp only
  rw [memByte_memWrite_outside _ _ _ _ (by omega)]
  split
  · rfl
  · rename_i ht
    rcases h with h | ⟨h, -⟩
    · exact memByte_memWrite_outside _ _ _ _ (by simp only [List.length_map, List.length_range]; omega)
    · simp [h] at ht

theorem memByte_frameWrite_inside (s : State) (tag : EncTag) (pfn off i : Nat) (bs : Bytes) (h : i < bs.length) :
    memByte (frameWrite s tag pfn off bs).mem.cells (frameAddr pfn + off + i) = bs.getD i 0 := memByte_memWrite_inside _ _ _ _ h

@[simp] theorem length_fit (n : Nat) (bs : Bytes) : (fit n bs).length = n := by
  unfold fit; rw [List.length_append, List.length_take, List.length_replicate]; omega

@[simp] theorem length_putLe : ∀ n v : Nat, (putLe n v).length = n
  | 0, _ => rfl
  | n + 1, v => by rw [putLe, List.length_cons, length_putLe n]

theorem getD_fit {n i : Nat} (bs : Bytes) (h : i < n) : (fit n bs).getD i 0 = bs.getD i 0 := by
  unfold fit
  simp only [List.getD_eq_getElem?_getD, List.getElem?_append, List.length_take, List.getElem?_take, List.getElem?_replicate]
  by_cases hi : i < bs.length
  · rw [if_pos (by omega), if_pos h]
  · rw [if_neg (by omega), if_pos (by omega), List.getElem?_eq_none (by omega : bs.length ≤ i)]; rfl

theorem span_self (q : Nat) : span q q = [q] := by
  have e : q + 1 - q = 1 := by omega
  simp [span, e]

theorem mem_span {lo hi x : Nat} : x ∈ span lo hi ↔ lo ≤ x ∧ x ≤ hi := by
  simp only [span, List.mem_map, List.mem_range]
  constructor
  · rintro ⟨i, hi, rfl⟩; omega
  · rintro ⟨h1, h2⟩; exact ⟨x - lo, by omega, by omega⟩

/-- Bytes that no frame boundary cuts are one piece. -/
theorem spacePieces_one {off n : Nat} (hn : 0 < n) (h : off % 16384 + n ≤ 16384) : spacePieces off n = [(off / 16384, off % 16384, 0, n)] := by
  have f : framesAt off n = [off / 16384] := by
    have e : (off + n - 1) / 16384 = off / 16384 := by omega
    unfold framesAt; rw [if_neg (by omega), e, span_self]
  have m : max off (off / 16384 * 16384) = off := by omega
  have k : min (off + n) ((off / 16384 + 1) * 16384) = off + n := by omega
  unfold spacePieces; rw [f]
  simp [m, k]

theorem spaceRead_one (s : State) (c : Nat) {off n : Nat} (hn : 0 < n) (h : off % 16384 + n ≤ 16384) :
    spaceRead s c off n = getFrame s c (off / 16384) (off % 16384) n := by
  unfold spaceRead; rw [spacePieces_one hn h]; simp

theorem spaceWrite_one (s : State) (c : Nat) {off : Nat} {bs : Bytes} (hn : 0 < bs.length) (h : off % 16384 + bs.length ≤ 16384) :
    spaceWrite s c off bs = putFrame s c (off / 16384) (off % 16384) bs := by
  unfold spaceWrite; rw [spacePieces_one hn h]; simp [slice]

/-! ### Lines of the page cache (03 R69, R70) -/

theorem getLsbD_lineMask {off n i : Nat} (h0 : 0 < n) (h : off + n ≤ 16384) (h1 : off / 128 ≤ i) (h2 : i ≤ (off + n - 1) / 128) :
    (lineMask off n).getLsbD i = true := by
  unfold lineMask
  rw [if_neg (by omega), BitVec.getLsbD_shiftLeft, BitVec.getLsbD_ushiftRight, BitVec.getLsbD_allOnes]
  simp only [Bool.and_eq_true, decide_eq_true_eq, Bool.not_eq_true', decide_eq_false_iff_not]
  omega

/-- The dirty lines without one of them. -/
def clearLine (d : Tbl (BitVec 128)) (l : Nat) : Tbl (BitVec 128) := tset 0 d (l / 128) (tget 0 d (l / 128) &&& ~~~(1#128 <<< (l % 128)))

theorem dirty_clearLine (d : Tbl (BitVec 128)) {l k : Nat} (h : l ≠ k) :
    (tget 0 (clearLine d l) (k / 128)).getLsbD (k % 128) = (tget 0 d (k / 128)).getLsbD (k % 128) := by
  unfold clearLine
  by_cases e : k / 128 = l / 128
  · have hb : ¬ k % 128 < l % 128 → ¬ k % 128 - l % 128 = 0 := by omega
    rw [e, tget_tset_self, BitVec.getLsbD_and, BitVec.getLsbD_not, BitVec.getLsbD_shiftLeft, BitVec.getLsbD_one]
    have hk : k % 128 < 128 := Nat.mod_lt _ (by omega)
    by_cases hlt : k % 128 < l % 128 <;> simp [hk, hlt, hb]
  · rw [tget_tset_ne _ _ _ e]

/-- An eviction leaves a line dirty unless it is one of those evicted. -/
theorem isDirty_evict (s : State) (c l : Nat) (h : l ∉ victims s c) : isDirty (evict s c) l = isDirty s l := by
  have k : ∀ (out : List Nat) (d : Tbl (BitVec 128)), l ∉ out →
      (tget 0 (out.foldl clearLine d) (l / 128)).getLsbD (l % 128) = (tget 0 d (l / 128)).getLsbD (l % 128) := by
    intro out
    induction out with
    | nil => intro d _; rfl
    | cons x out ih =>
      intro d hl; simp only [List.mem_cons, not_or] at hl
      rw [List.foldl_cons, ih _ hl.2, dirty_clearLine d (Ne.symm hl.1)]
  exact k (victims s c) s.tier.dirty h

theorem mem_behind_evict {s : State} {c : Nat} {e : Nat × Bytes} (h : e ∈ (evict s c).mem.behind) : e ∈ s.mem.behind ∧ e.1 ∉ victims s c := by
  unfold evict at h; simpa using h

/-- A line that was dirty before an eviction is never read from behind the cache after it. -/
theorem staleLine_evict_dirty {s : State} {c : Nat} {e : Nat × Bytes} (he : e ∈ (evict s c).mem.behind) (hd : isDirty s e.1 = true) :
    staleLine (evict s c) e.1 = none := by
  have d : isDirty (evict s c) e.1 = true := by rw [isDirty_evict s c e.1 (mem_behind_evict he).2, hd]
  unfold staleLine; split <;> simp [d]

/-- A line that holds none of the bytes read puts nothing over them. -/
theorem overlay_other {off l : Nat} {b line : Bytes} (h : ∀ i, i < b.length → (off + i) / 128 ≠ l % 128) : overlay off b l line = b := by
  have e : ∀ x ∈ b.zipIdx, (if (off + x.2) / 128 = l % 128 then line.getD ((off + x.2) % 128) 0 else x.1) = x.1 := by
    intro x hx; rw [if_neg (h _ (List.snd_lt_of_mem_zipIdx hx))]
  unfold overlay; rw [List.map_congr_left e, List.zipIdx_map_fst]

/-- A read whose lines the cache holds gives what the controllers hold. -/
theorem getFrame_cached (s : State) (slot pfn off n : Nat) (hn : (frameRead s (frameTag s slot pfn) pfn off n).length = n)
    (h : ∀ e ∈ s.mem.behind, e.1 / 128 = pfn → off / 128 ≤ e.1 % 128 → e.1 % 128 ≤ (off + n - 1) / 128 → staleLine s e.1 = none) :
    getFrame s slot pfn off n = frameRead s (frameTag s slot pfn) pfn off n := by
  have k : ∀ (es : List (Nat × Bytes)) (b : Bytes), (∀ e ∈ es, e ∈ s.mem.behind ∧ e.1 / 128 = pfn) → b.length = n →
      es.foldl (fun b e => match staleLine s e.1 with
        | some line => overlay off b e.1 line
        | none => b) b = b := by
    intro es
    induction es with
    | nil => intro b _ _; rfl
    | cons e es ih =>
      intro b he hb
      obtain ⟨⟨hm, hp⟩, hes⟩ := List.forall_mem_cons.1 he
      have step : (match staleLine s e.1 with
          | some line => overlay off b e.1 line
          | none => b) = b := by
        by_cases hr : off / 128 ≤ e.1 % 128 ∧ e.1 % 128 ≤ (off + n - 1) / 128
        · rw [h e hm hp hr.1 hr.2]
        · cases staleLine s e.1 with
          | none => rfl
          | some line => exact overlay_other fun i hi => by omega
      rw [List.foldl_cons, step, ih b hes hb]
  unfold getFrame
  refine k _ _ (fun e he => ?_) hn
  simpa using he

/-! ### A controller's write (03 R69, R70) -/

/-- A controller's write before the eviction that follows it. -/
def putDirty (s : State) (slot pfn off : Nat) (bs : Bytes) : State :=
  let u := fillLines (wakeFrame s pfn) pfn off bs.length
  let u := touchRegion (frameWrite u (frameTag u slot pfn) pfn off bs) pfn
  { u with tier := { u.tier with dirty := tset 0 u.tier.dirty pfn (tget 0 u.tier.dirty pfn ||| lineMask off bs.length) } }

theorem putFrame_eq (s : State) (slot pfn off : Nat) (bs : Bytes) :
    putFrame s slot pfn off bs = evict (putDirty s slot pfn off bs) (lineCtrl (pfn * 128)) := rfl

theorem inCompute_congr {s t : State} (h : t.osier = s.osier) (q : Nat) : inCompute t q = inCompute s q := by
  unfold inCompute regionSt; rw [h]

theorem frameTag_congr {s t : State} (h : ∀ q, inCompute t q = inCompute s q) (h' : t.sec = s.sec) (slot q : Nat) :
    frameTag t slot q = frameTag s slot q := by
  unfold frameTag tagOf keySlot; rw [h, h']

theorem putFrame_inCompute (s : State) (slot pfn off : Nat) (bs : Bytes) (q : Nat) :
    inCompute (putFrame s slot pfn off bs) q = inCompute s q := by
  let u := fillLines (wakeFrame s pfn) pfn off bs.length
  calc inCompute (putFrame s slot pfn off bs) q
      = inCompute (touchRegion (frameWrite u (frameTag u slot pfn) pfn off bs) pfn) q := rfl
    _ = inCompute (frameWrite u (frameTag u slot pfn) pfn off bs) q := touchRegion_inCompute ..
    _ = inCompute s q := inCompute_congr (by simp [u]) q

theorem putFrame_frameTag (s : State) (slot pfn off : Nat) (bs : Bytes) (c q : Nat) :
    frameTag (putFrame s slot pfn off bs) c q = frameTag s c q :=
  frameTag_congr (putFrame_inCompute s slot pfn off bs) (putFrame_sec ..) c q

/-- What the controllers hold after a write: the lines have been filled, then the bytes are written under the owner's tag. -/
theorem putFrame_mem (s : State) (slot pfn off : Nat) (bs : Bytes) :
    let u := fillLines (wakeFrame s pfn) pfn off bs.length
    (putFrame s slot pfn off bs).mem.cells = (frameWrite u (frameTag s slot pfn) pfn off bs).mem.cells ∧
      (putFrame s slot pfn off bs).mem.tags = (frameWrite u (frameTag s slot pfn) pfn off bs).mem.tags := by
  intro u
  have t : frameTag u slot pfn = frameTag s slot pfn := frameTag_congr (fun q => inCompute_congr (by simp [u]) q) (by simp [u]) slot pfn
  have m : ∀ v : State, (touchRegion v pfn).mem = v.mem := fun v => touchRegion_mem v pfn
  rw [← t]
  constructor
  · show (touchRegion _ pfn).mem.cells = _; rw [m]
  · show (touchRegion _ pfn).mem.tags = _; rw [m]

/-- The lines of a write are dirty before the eviction. -/
theorem putDirty_dirty {s : State} {slot pfn off l : Nat} {bs : Bytes} (h0 : 0 < bs.length) (h : off + bs.length ≤ 16384) (hp : l / 128 = pfn)
    (h1 : off / 128 ≤ l % 128) (h2 : l % 128 ≤ (off + bs.length - 1) / 128) : isDirty (putDirty s slot pfn off bs) l = true := by
  unfold isDirty putDirty; dsimp only
  rw [hp, tget_tset_self, BitVec.getLsbD_or, getLsbD_lineMask h0 h h1 h2, Bool.or_true]

/-- The owner reads back what was written for it. -/
theorem getFrame_putFrame (s : State) (slot : Nat) {pfn off : Nat} {bs : Bytes} (h0 : 0 < bs.length) (h : off + bs.length ≤ 16384) :
    getFrame (putFrame s slot pfn off bs) slot pfn off bs.length = bs := by
  obtain ⟨hc, ht⟩ := putFrame_mem s slot pfn off bs
  have r : frameRead (putFrame s slot pfn off bs) (frameTag (putFrame s slot pfn off bs) slot pfn) pfn off bs.length = bs := by
    rw [putFrame_frameTag]
    unfold frameRead; rw [hc, ht]
    exact frameRead_frameWrite _ (frameTag s slot pfn) pfn off bs
  rw [getFrame_cached _ _ _ _ _ (by rw [r]), r]
  intro e he hp h1 h2
  exact staleLine_evict_dirty (s := putDirty s slot pfn off bs) he (putDirty_dirty h0 h hp h1 h2)

theorem wakeFrame_behind (s : State) (pfn : Nat) : (wakeFrame s pfn).mem.behind = s.mem.behind := by unfold wakeFrame; split <;> rfl

theorem staleLine_find {s : State} {l : Nat} {bs : Bytes} (h : staleLine s l = some bs) : tfind s.mem.behind l = some bs := by
  unfold staleLine at h; split at h
  · split at h
    · cases h
    · rename_i e _; rw [e, h]
  · cases h

/-- One line of a frame enters the cache as the DRAM holds it, where that is the one that shows. -/
def fillLine (s : State) (pfn : Nat) (t : State) (l : Nat) : State :=
  match staleLine s l with
  | some bs => frameWrite t {} pfn (l % 128 * 128) (fit 128 bs)
  | none => t

theorem fillLine_tag (s : State) {pfn : Nat} {t : State} (l : Nat) (h : tget {} t.mem.tags pfn = {}) :
    tget {} (fillLine s pfn t l).mem.tags pfn = {} := by
  unfold fillLine; split
  · exact tget_tset_self {} t.mem.tags pfn {}
  · exact h

/-- What the fill of one line leaves at an address: the byte there, or the DRAM's where the address lies in the line. -/
theorem memByte_fillLine (s : State) {pfn l a : Nat} (t : State) (hl : l / 128 = pfn) (h : a / 16384 ≠ pfn ∨ tget {} t.mem.tags pfn = {}) :
    memByte (fillLine s pfn t l).mem.cells a = memByte t.mem.cells a ∨
      a / 128 = l ∧ ∃ line, tfind s.mem.behind l = some line ∧ memByte (fillLine s pfn t l).mem.cells a = line.getD (a % 128) 0 := by
  unfold fillLine
  cases e : staleLine s l with
  | none => exact .inl rfl
  | some bs =>
    by_cases ha : a / 128 = l
    · refine .inr ⟨ha, bs, staleLine_find e, ?_⟩
      have i := memByte_frameWrite_inside t {} pfn (l % 128 * 128) (a % 128) (fit 128 bs) (by rw [length_fit]; omega)
      have x : frameAddr pfn + l % 128 * 128 + a % 128 = a := by unfold frameAddr; omega
      rw [x, getD_fit bs (Nat.mod_lt _ (by omega))] at i
      exact i
    · refine .inl (memByte_frameWrite_outside t {} _ (by rw [length_fit]; omega) ?_)
      rw [length_fit]; unfold frameAddr
      refine h.imp id fun h => ⟨h, by omega⟩

/-- The same of a fill of lines: where a byte changes, it becomes what a unit has left behind the cache. -/
theorem memByte_fillLines_fold (s : State) {pfn a : Nat} : ∀ (ls : List Nat) (t : State), (∀ l ∈ ls, l / 128 = pfn) →
    (a / 16384 ≠ pfn ∨ tget {} t.mem.tags pfn = {}) →
    memByte (ls.foldl (fillLine s pfn) t).mem.cells a = memByte t.mem.cells a ∨
      a / 128 ∈ ls ∧ ∃ line, tfind s.mem.behind (a / 128) = some line ∧
        memByte (ls.foldl (fillLine s pfn) t).mem.cells a = line.getD (a % 128) 0
  | [], _, _, _ => .inl rfl
  | l :: ls, t, hl, ht => by
    obtain ⟨hp, hls⟩ := List.forall_mem_cons.1 hl
    rw [List.foldl_cons]
    rcases memByte_fillLines_fold s ls (fillLine s pfn t l) hls (ht.imp id (fillLine_tag s l)) with e | ⟨hm, line, hf, hv⟩
    · rcases memByte_fillLine s t hp ht with f | ⟨ha, line, hf, hv⟩
      · exact .inl (e.trans f)
      · exact .inr ⟨by simp [ha], line, by rw [ha]; exact hf, e.trans hv⟩
    · exact .inr ⟨List.mem_cons_of_mem _ hm, line, hf, hv⟩

theorem tags_fillLines_fold (s : State) (pfn : Nat) (ls : List Nat) (t : State) (h : tget {} t.mem.tags pfn = {}) :
    tget {} (ls.foldl (fillLine s pfn) t).mem.tags pfn = {} :=
  foldl_inv (fun u => tget {} u.mem.tags pfn = {}) _ (fun _ l h => fillLine_tag s l h) ls t h

theorem fillLines_compute {s : State} {pfn off n : Nat} (h : inCompute s pfn = true) :
    (fillLines s pfn off n).mem.cells = ((frameLines pfn off n).foldl (fillLine s pfn) s).mem.cells ∧
      (fillLines s pfn off n).mem.tags = ((frameLines pfn off n).foldl (fillLine s pfn) s).mem.tags := by
  unfold fillLines; rw [h]; exact ⟨rfl, rfl⟩

theorem mem_frameLines {pfn off n l : Nat} (h : l ∈ frameLines pfn off n) (hb : off + n ≤ 16384) :
    l / 128 = pfn ∧ pfn * 128 + off / 128 ≤ l ∧ l ≤ pfn * 128 + (off + n - 1) / 128 := by
  unfold frameLines lineOf at h
  split at h
  · simp at h
  · rw [mem_span] at h; omega

/-- A write of bytes of one frame leaves every byte of other frames, and where the frame lies under the owner's tag already every other
byte of it, but those of a COMPUTE region's lines that a unit has written behind the cache (03 R70). -/
theorem memByte_putFrame {s : State} {slot pfn off a : Nat} {bs : Bytes} (hb : off + bs.length ≤ 16384)
    (h : a / 16384 ≠ pfn ∨ tget {} s.mem.tags pfn = frameTag s slot pfn ∧ (a < frameAddr pfn + off ∨ frameAddr pfn + off + bs.length ≤ a)) :
    memByte (putFrame s slot pfn off bs).mem.cells a = memByte s.mem.cells a ∨
      inCompute s pfn = true ∧ pfn * 128 + off / 128 ≤ a / 128 ∧ a / 128 ≤ pfn * 128 + (off + bs.length - 1) / 128 ∧
        ∃ line, tfind s.mem.behind (a / 128) = some line ∧ memByte (putFrame s slot pfn off bs).mem.cells a = line.getD (a % 128) 0 := by
  have hw : inCompute (wakeFrame s pfn) pfn = inCompute s pfn := wakeFrame_inCompute s pfn pfn
  rw [(putFrame_mem s slot pfn off bs).1]
  cases hi : inCompute s pfn with
  | false =>
    have f : fillLines (wakeFrame s pfn) pfn off bs.length = wakeFrame s pfn := by unfold fillLines; simp [hw, hi]
    rw [f, ← wakeFrame_cells s pfn]
    refine .inl (memByte_frameWrite_outside _ _ _ hb ?_)
    rw [wakeFrame_tags]; exact h
  | true =>
    have t : frameTag s slot pfn = {} := by unfold frameTag; rw [hi]; rfl
    rw [t] at h ⊢
    obtain ⟨fc, ft⟩ := fillLines_compute (off := off) (n := bs.length) (hw.trans hi)
    have tag : tget {} s.mem.tags pfn = {} →
        tget {} (fillLines (wakeFrame s pfn) pfn off bs.length).mem.tags pfn = {} := fun e => by
      rw [ft]; exact tags_fillLines_fold _ pfn _ _ (by rw [wakeFrame_tags]; exact e)
    rw [memByte_frameWrite_outside _ {} bs hb (h.imp id fun x => ⟨tag x.1, x.2⟩), fc]
    rcases memByte_fillLines_fold (wakeFrame s pfn) (frameLines pfn off bs.length) (wakeFrame s pfn) (fun l hl => (mem_frameLines hl hb).1)
        (h.imp id fun x => by rw [wakeFrame_tags]; exact x.1) with e | ⟨hm, line, hf, hv⟩
    · rw [wakeFrame_cells] at e; exact .inl e
    · obtain ⟨-, lo, up⟩ := mem_frameLines hm hb
      rw [wakeFrame_behind] at hf
      exact .inr ⟨rfl, lo, up, line, hf, hv⟩

/-! ### Updates of one part -/

theorem only_fab (s : State) (x : Fab) : OnlyParts [.fab] s { s with fab := x } := by
  intro p hp; cases p <;> first | exact absurd (by decide) hp | rfl

theorem only_egr (s : State) (x : Egr) : OnlyParts [.egr] s { s with egr := x } := by
  intro p hp; cases p <;> first | exact absurd (by decide) hp | rfl

theorem only_regs (s : State) (x : Regs) : OnlyParts [.regs] s { s with regs := x } := by
  intro p hp; cases p <;> first | exact absurd (by decide) hp | rfl

theorem only_weft (s : State) (x : Weft) : OnlyParts [.weft] s { s with weft := x } := by
  intro p hp; cases p <;> first | exact absurd (by decide) hp | rfl

/-! ### What the route of an answer and a read of memory depend on -/

/-- What the port and the session of a frame depend on is as it was (11 R275). -/
structure SameRoutes (s t : State) : Prop where
  store : t.regs.store = s.regs.store
  ports : t.ports = s.ports
  queues : t.egr.ports = s.egr.ports
  flows : t.egr.flows = s.egr.flows

/-- What the controllers' reads depend on is as it was (03 R70; 15 R367). -/
structure SameMemory (s t : State) : Prop where
  cells : t.mem.cells = s.mem.cells
  tags : t.mem.tags = s.mem.tags
  behind : t.mem.behind = s.mem.behind
  tier : t.tier = s.tier
  osier : t.osier = s.osier
  sec : t.sec = s.sec

/-- What an ECC event that costs no stack leaves alone. -/
structure Undisturbed (s t : State) : Prop where
  routes : SameRoutes s t
  memory : SameMemory s t
  fab : t.fab = s.fab

theorem SameRoutes.trans {s t u : State} (h : SameRoutes s t) (k : SameRoutes t u) : SameRoutes s u :=
  ⟨k.store.trans h.store, k.ports.trans h.ports, k.queues.trans h.queues, k.flows.trans h.flows⟩

theorem SameMemory.trans {s t u : State} (h : SameMemory s t) (k : SameMemory t u) : SameMemory s u :=
  ⟨k.cells.trans h.cells, k.tags.trans h.tags, k.behind.trans h.behind, k.tier.trans h.tier, k.osier.trans h.osier, k.sec.trans h.sec⟩

theorem Undisturbed.refl (s : State) : Undisturbed s s := ⟨⟨rfl, rfl, rfl, rfl⟩, ⟨rfl, rfl, rfl, rfl, rfl, rfl⟩, rfl⟩

theorem Undisturbed.trans {s t u : State} (h : Undisturbed s t) (k : Undisturbed t u) : Undisturbed s u :=
  ⟨h.routes.trans k.routes, h.memory.trans k.memory, k.fab.trans h.fab⟩

theorem SameRoutes.eport {s t : State} (h : SameRoutes s t) (p : Nat) : eport t p = eport s p := by
  unfold Machine.eport; rw [h.queues]

theorem SameRoutes.portOf {s t : State} (h : SameRoutes s t) (p : Nat) : portOf t p = portOf s p := by
  unfold Machine.portOf; rw [h.ports]

/-- The port of a flow depends on its route's word, the ports and the flows bound. -/
theorem flowPort_congr {s t : State} {dst : Nat} (hw : regWord t (rkey Off.FAB_ROUTE_PORTS dst) = regWord s (rkey Off.FAB_ROUTE_PORTS dst))
    (hp : t.ports = s.ports) (hf : t.egr.flows = s.egr.flows) (c tc : Nat) : flowPort t c dst tc = flowPort s c dst tc := by
  have p : ∀ q, Machine.portOf t q = Machine.portOf s q := fun q => by unfold Machine.portOf; rw [hp]
  have r : flowPorts t c dst = flowPorts s c dst := by unfold flowPorts routeSet; simp only [hw, p]
  unfold flowPort; simp only [r, hf, p]

theorem SameRoutes.flowPort {s t : State} (h : SameRoutes s t) (c dst tc : Nat) : flowPort t c dst tc = flowPort s c dst tc :=
  flowPort_congr (regWord_congr h.store _) h.ports h.flows c tc

theorem SameMemory.frameTag {s t : State} (h : SameMemory s t) (c q : Nat) : frameTag t c q = frameTag s c q :=
  frameTag_congr (inCompute_congr h.osier) h.sec c q

theorem SameMemory.spaceRead {s t : State} (h : SameMemory s t) (c off n : Nat) : spaceRead t c off n = spaceRead s c off n := by
  have l : ∀ l, staleLine t l = staleLine s l := fun l => by unfold staleLine isDirty; rw [h.behind, h.tier]
  have g : ∀ p o m, getFrame t c p o m = getFrame s c p o m := fun p o m => by
    unfold getFrame frameRead; rw [h.behind, h.frameTag, h.tags, h.cells]; simp only [l]
  unfold Machine.spaceRead; simp only [g]

theorem SameMemory.lostFrame {s t : State} (h : SameMemory s t) (ps : List Nat) (ecc : MemObs) : lostFrame t ps ecc = lostFrame s ps ecc := by
  unfold Machine.lostFrame; simp only [inCompute_congr h.osier]

/-! ### ECC events (16 R387; 18 R460) -/

theorem Undisturbed.of_parts {s t : State} (h : OnlyParts [.regs, .hostq, .out, .sb, .rngCtr, .fault, .svc] s t)
    (hs : t.regs.store = s.regs.store) : Undisturbed s t := by
  have m : t.mem = s.mem := h .mem (by decide)
  have e : t.egr = s.egr := h .egr (by decide)
  exact ⟨⟨hs, h .ports (by decide), by rw [e], by rw [e]⟩,
    ⟨by rw [m], by rw [m], by rw [m], h .tier (by decide), h .osier (by decide), h .sec (by decide)⟩, h .fab (by decide)⟩

theorem raise_undisturbed (s : State) (off flags : Nat) (puts : List (Nat × Nat × Nat)) : Undisturbed s (raise s off flags puts) :=
  .of_parts ((raise_only s off flags puts).mono (by decide)) (raise_regs_store ..)

theorem correctedRead_undisturbed (s : State) (kind ix : Nat) (onDie : Bool) : Undisturbed s (correctedRead s kind ix onDie) := by
  refine .of_parts (fun p hp => ?_) (by simp [correctedRead])
  cases p <;> first | exact absurd (by decide) hp | simp [Part.same, correctedRead]

theorem countSat_undisturbed (s : State) (key n : Nat) : Undisturbed s (countSat s key n) :=
  ⟨⟨rfl, rfl, rfl, rfl⟩, ⟨rfl, rfl, rfl, rfl, rfl, rfl⟩, rfl⟩

/-- The frame of the newest ECC event of a stack or channel is noted. -/
theorem eccPfn_undisturbed (s : State) (i pfn : Nat) :
    Undisturbed s { s with mem := { s.mem with eccPfn := tset 0xFFFFFFFF s.mem.eccPfn i pfn } } :=
  ⟨⟨rfl, rfl, rfl, rfl⟩, ⟨rfl, rfl, rfl, rfl, rfl, rfl⟩, rfl⟩

/-- A corrected error is counted at its stack or channel and told. -/
theorem corrected_undisturbed (s : State) (cnt off flags kind ix : Nat) (onDie : Bool) :
    Undisturbed s (correctedRead (raise (countSat s cnt 1) off flags) kind ix onDie) :=
  (countSat_undisturbed ..).trans ((raise_undisturbed ..).trans (correctedRead_undisturbed ..))

/-- A stack that has lost fewer than 15 reads within a second is not fenced by one more. -/
theorem lostRead_undisturbed {s : State} {i : Nat} (h : (tget [] s.mem.lostAt i).length < 15) : Undisturbed s (lostRead s i) := by
  have l := List.length_filter_le (fun t => decide (s.clk.counter < t + secondCycles)) (tget [] s.mem.lostAt i)
  unfold lostRead; dsimp only
  rw [if_pos (by rw [List.length_cons]; omega)]
  exact ⟨⟨rfl, rfl, rfl, rfl⟩, ⟨rfl, rfl, rfl, rfl, rfl, rfl⟩, rfl⟩

theorem memEvent_undisturbed {s : State} {e : Nat × Bool}
    (h : inCompute s e.1 = true ∨ e.2 = false ∨ (tget [] s.mem.lostAt (stackOf e.1)).length < 15) : Undisturbed s (memEvent s e) := by
  unfold memEvent onDieEvent; dsimp only
  split
  · split
    · exact (eccPfn_undisturbed ..).trans (corrected_undisturbed ..)
    · rename_i hc
      refine (eccPfn_undisturbed s (stackOf e.1) e.1).trans ?_
      split
      · rename_i he
        refine (raise_undisturbed ..).trans (lostRead_undisturbed ?_)
        rw [raise_mem]
        rcases h with h | h | h
        · exact absurd h hc
        · rw [h] at he; cases he
        · exact h
      · exact corrected_undisturbed ..
  · refine (eccPfn_undisturbed s (32 + channelOf e.1) e.1).trans ?_
    split
    · exact raise_undisturbed ..
    · exact corrected_undisturbed ..

theorem wakeFrame_undisturbed (s : State) (pfn : Nat) : Undisturbed s (wakeFrame s pfn) := by
  refine ⟨⟨?_, ?_, ?_, ?_⟩, ⟨?_, ?_, wakeFrame_behind s pfn, ?_, ?_, ?_⟩, ?_⟩ <;> simp

/-- A read of a frame that loses nothing disturbs nothing. -/
theorem memEvents_undisturbed {s : State} {pfn : Nat} {ecc : MemObs} (h : (lostFrame s [pfn] ecc).isSome = false) :
    Undisturbed s (memEvents s [pfn] ecc) := by
  have k : ∀ (es : List (Nat × Bool)) (u : State), (∀ e ∈ es, inCompute s e.1 = true ∨ e.2 = false) → Undisturbed s u →
      Undisturbed s (es.foldl memEvent u) := by
    intro es
    induction es with
    | nil => intro u _ hu; exact hu
    | cons e es ih =>
      intro u he hu
      obtain ⟨h1, h2⟩ := List.forall_mem_cons.1 he
      refine ih _ h2 (hu.trans (memEvent_undisturbed ?_))
      rw [inCompute_congr hu.memory.osier]
      exact h1.imp id .inl
  refine k _ _ (fun e he => ?_) (wakeFrame_undisturbed s pfn)
  obtain ⟨hm, hp⟩ := List.mem_filter.1 he
  have hp : e.1 = pfn := by simpa using hp
  cases hc : inCompute s e.1 with
  | true => exact .inl rfl
  | false =>
    cases hb : e.2 with
    | false => exact .inr rfl
    | true =>
      exfalso
      have hl : (!inCompute s pfn && ecc.any fun e => e.1 == pfn && e.2) = true := by
        rw [← hp, hc, Bool.not_false, Bool.true_and, List.any_eq_true]; exact ⟨e, hm, by simp [hb]⟩
      simp only [lostFrame, List.find?_cons, hl] at h; cases h

/-- One read lost, of a stack that has lost fewer than 15 within the second, disturbs nothing either. -/
theorem memEvents_lost_undisturbed {s : State} {pfn : Nat} (h : (tget [] s.mem.lostAt (stackOf pfn)).length < 15) :
    Undisturbed s (memEvents s [pfn] [(pfn, true)]) := by
  have e : memEvents s [pfn] [(pfn, true)] = memEvent (wakeFrame s pfn) (pfn, true) := by simp [memEvents]
  have w : (wakeFrame s pfn).mem.lostAt = s.mem.lostAt := by unfold wakeFrame; split <;> rfl
  rw [e]
  exact (wakeFrame_undisturbed s pfn).trans (memEvent_undisturbed (.inr (.inr (by rw [w]; exact h))))

/-! ### The answer (11 R276, R283) -/

/-- What a request's answer looks like in its class queue. -/
def answerFrame (s : State) (c : Nat) (f : Frame) (resp st : Nat) (body : Bytes) (region : Option Nat) (n : Nat) : QFrame :=
  { ctx := c, region := region,
    frame := { op := resp, tc := 2, flags := if f.combine > 1 then 2 else 0, combine := f.combine, dst := f.src, src := nodeNum s, session := n,
               rtag := f.rtag, key := st, size := f.size, body := body } }

/-- An answer leaves on the flow's port, or, without one, no_route is raised and the region is left at once. -/
theorem respond_cases (s : State) (c : Nat) (f : Frame) (resp st : Nat) (body : Bytes) (region : Option Nat) :
    (flowPort s c f.src 2 = none ∧ respond s c f resp st body region = leaveRegion (raise s Off.FAB_STATUS 4) region) ∨
      ∃ p n, flowPort s c f.src 2 = some p ∧ sessionOf (portOf s p) c = some n ∧
        respond s c f resp st body region =
          putClass (bindFlow s c f.src 2 p) p 2 (classFrames (eport s p) 2 ++ [answerFrame s c f resp st body region n]) := by
  cases h : flowPort s c f.src 2 with
  | none => exact .inl ⟨rfl, by simp [respond, sendFrame, h]⟩
  | some p =>
    obtain ⟨n, hn⟩ := Option.isSome_iff_exists.1 (flowPort_session h)
    exact .inr ⟨p, n, rfl, hn, by simp [respond, sendFrame, h, hn, enqueue, answerFrame]⟩

/-- An answer touches the queues, the in-flight count of its region and, without a route, the status event. -/
theorem respond_only (s : State) (c : Nat) (f : Frame) (resp st : Nat) (body : Bytes) (region : Option Nat) :
    OnlyParts [.regs, .hostq, .out, .sb, .egr, .fab] s (respond s c f resp st body region) := by
  rcases respond_cases s c f resp st body region with ⟨-, e⟩ | ⟨p, n, -, -, e⟩ <;> rw [e]
  · refine ((raise_only s Off.FAB_STATUS 4 []).mono (by decide)).trans ?_
    cases region with
    | none => exact OnlyParts.refl _ _
    | some i => exact (only_fab _ _).mono (by decide)
  · exact (only_egr _ _).mono (by decide)

theorem respond_memory (s : State) (c : Nat) (f : Frame) (resp st : Nat) (body : Bytes) (region : Option Nat) :
    SameMemory s (respond s c f resp st body region) := by
  have h := respond_only s c f resp st body region
  have m : (respond s c f resp st body region).mem = s.mem := h .mem (by decide)
  exact ⟨by rw [m], by rw [m], by rw [m], h .tier (by decide), h .osier (by decide), h .sec (by decide)⟩

/-- The answer of a request, at the end of class 2 on the port of its flow. -/
def Answered (s t : State) (c : Nat) (f : Frame) (resp st : Nat) (body : Bytes) (region : Option Nat) : Prop :=
  ∀ q n, flowPort s c f.src 2 = some q → sessionOf (portOf s q) c = some n →
    ∃ g, classFrames (eport t q) 2 = classFrames (eport s q) 2 ++ [g] ∧ g.ctx = c ∧ g.region = region ∧ g.frame.op = resp ∧ g.frame.dst = f.src ∧
      g.frame.rtag = f.rtag ∧ g.frame.combine = f.combine ∧ g.frame.key = st ∧ g.frame.body = body

theorem respond_answered {s u : State} (h : SameRoutes s u) (c : Nat) (f : Frame) (op resp st : Nat) (body : Bytes) (region : Option Nat) :
    Answered s (respond u c { f with op := op } resp st body region) c f resp st body region := by
  intro q n hq _
  rcases respond_cases u c { f with op := op } resp st body region with ⟨e, -⟩ | ⟨p, m, e, -, r⟩ <;> dsimp only at e <;>
    rw [h.flowPort, hq] at e <;> cases e
  refine ⟨answerFrame u c { f with op := op } resp st body region m, ?_, rfl, rfl, rfl, rfl, rfl, rfl, rfl, rfl⟩
  rw [r, classFrames_putClass, h.eport]

/-- The answer holds the in-flight count of its region where it has a route. -/
theorem respond_fab (s : State) (c : Nat) (f : Frame) (resp st : Nat) (body : Bytes) (region : Option Nat) :
    (respond s c f resp st body region).fab = if (flowPort s c f.src 2).isNone then (leaveRegion s region).fab else s.fab := by
  rcases respond_cases s c f resp st body region with ⟨h, e⟩ | ⟨p, n, h, -, e⟩ <;> rw [e, h]
  · cases region with
    | none => exact raise_fab ..
    | some i => simp [leaveRegion, setRegionEnt, regionEnt]
  · rfl

theorem respond_policers (s : State) (c : Nat) (f : Frame) (resp st : Nat) (body : Bytes) (region : Option Nat) :
    (respond s c f resp st body region).egr.policers = s.egr.policers := by
  rcases respond_cases s c f resp st body region with ⟨-, e⟩ | ⟨p, n, -, -, e⟩ <;> rw [e]
  · cases region <;> simp [leaveRegion, setRegionEnt]
  · rfl

/-- An event clears no flag of its status register where it names nothing. -/
theorem raise_keeps_flag {s : State} {off i : Nat} (flags : Nat) (h : (statusOf s off).hi.getLsbD i = true) :
    (statusOf (raise s off flags) off).hi.getLsbD i = true := by
  rw [statusOf_raise]; dsimp only [List.foldl_nil]
  have hi := BitVec.lt_of_getLsbD h
  rw [BitVec.getLsbD_ofNat, Nat.testBit_or, BitVec.testBit_toNat, h]; simp [hi]

theorem respond_keeps_flag {s : State} {i : Nat} (c : Nat) (f : Frame) (resp st : Nat) (body : Bytes) (region : Option Nat)
    (h : (statusOf s Off.FAB_STATUS).hi.getLsbD i = true) :
    (statusOf (respond s c f resp st body region) Off.FAB_STATUS).hi.getLsbD i = true := by
  rcases respond_cases s c f resp st body region with ⟨-, e⟩ | ⟨p, n, -, -, e⟩ <;> rw [e]
  · have k := raise_keeps_flag 4 h
    cases region <;> exact k
  · exact h

/-! ### A request at its target (11 R281) -/

/-- The offset in frame space that a request's address names. -/
def accessOffset (s : State) (f : Frame) : Nat := frameOffset (regionEnt s (keyIndex f.key)) f.addr

/-- A request of a context's session that the node takes: it is not fenced, and the policer lets it (13 R331; 16 R392). -/
def Admitted (s : State) (p c : Nat) (f : Frame) : Prop :=
  s.osier.resuming = false ∧ frameCtx s p f = some c ∧ s.fault.st ≠ .fenced ∧ (polOn s c = false ∨ frameLen f * 2 ^ 24 ≤ polTokens s c)

/-- A request that is carried out: one resumed, or one that passes every check and finds its region free. -/
def Passes (s : State) (p c : Nat) (f : Frame) (op : Nat) : Prop :=
  s.osier.resuming = true ∧ c = (regionEnt s (keyIndex f.key)).ctx ∧ alignOk { f with op := op } (accessOffset s f) = true ∨
    Admitted s p c f ∧ targetCheck s c { f with op := op } = none ∧ mustWait s (regionsOf [accessOffset s f / 16384]) = false

/-- The request is in flight in its region until its answer has left; one that is resumed was so already. -/
def InFlight (s t : State) (c : Nat) (f : Frame) : Prop :=
  t.fab.reqs = s.fab.reqs ∧ ∀ j, regionEnt t j = if j = keyIndex f.key then
    { regionEnt s (keyIndex f.key) with
      inflight := (regionEnt s (keyIndex f.key)).inflight + b2n (!s.osier.resuming) - b2n (flowPort s c f.src 2).isNone } else regionEnt s j

/-- Bytes outside a write of `n` bytes at an offset stay, in a COMPUTE region but for lines that a unit has written (03 R70). -/
def OthersKept (s t : State) (c off n : Nat) : Prop :=
  ∀ a, a / 16384 ≠ off / 16384 ∨ tget {} s.mem.tags (off / 16384) = frameTag s c (off / 16384) ∧ (a < off ∨ off + n ≤ a) →
    memByte t.mem.cells a = memByte s.mem.cells a ∨ inCompute s (off / 16384) = true ∧ off / 128 ≤ a / 128 ∧ a / 128 ≤ (off + n - 1) / 128 ∧
      ∃ line, tfind s.mem.behind (a / 128) = some line ∧ memByte t.mem.cells a = line.getD (a % 128) 0

/-- A policer's bucket accrues, then takes its new value: nothing but the policers changes. -/
theorem setPolicer_twice (s : State) (c : Nat) (v w : Policer) :
    ∃ ps, setPolicer (setPolicer s c v) c w = { s with egr := { s.egr with policers := ps } } ∧ tget {} ps c = w :=
  ⟨_, rfl, tget_tset_self ..⟩

/-- A frame that conforms changes the policer alone. -/
theorem police_conforms {s : State} {c : Nat} {f : Frame} (h : polOn s c = false ∨ frameLen f * 2 ^ 24 ≤ polTokens s c) :
    ∃ ps, police s c f = (true, { s with egr := { s.egr with policers := ps } }) := by
  unfold police
  cases hp : polOn s c with
  | false => exact ⟨s.egr.policers, rfl⟩
  | true =>
    simp only [Bool.not_true, Bool.false_eq_true, if_false, polAccrue, policerOf_setPolicer]
    split
    · obtain ⟨ps, e, -⟩ := setPolicer_twice s c _ _
      exact ⟨ps, by rw [e]⟩
    · rename_i hn; exact absurd (h.resolve_left (by simp [hp])) hn

/-- One that does not is counted and told. -/
theorem police_refuses {s : State} {c : Nat} {f : Frame} (hp : polOn s c = true) (hn : polTokens s c < frameLen f * 2 ^ 24) :
    ∃ ps, police s c f = (false, raise { s with egr := { s.egr with policers := ps } } Off.EGR_POL_STATUS 1 [(20, 12, c)]) ∧
      (tget {} ps c).drops = min 0xFFFFFFFF ((policerOf s c).drops + 1) := by
  unfold police
  simp only [hp, Bool.not_true, Bool.false_eq_true, if_false, polAccrue, policerOf_setPolicer]
  split
  · rename_i h; exact absurd h (Nat.not_le.2 hn)
  · obtain ⟨ps, e, d⟩ := setPolicer_twice s c _ _
    exact ⟨ps, by rw [e], by rw [d]; exact Nat.min_comm ..⟩

/-- A request that is admitted and passes every check is under way in its region, and done unless its controller holds it. -/
theorem target_checked {s : State} {p c : Nat} {f : Frame} {op : Nat} (h : Admitted s p c f) (hc : targetCheck s c { f with op := op } = none)
    (cmd : Instr) (resp : Nat) (ecc : MemObs) (run : State → Nat → Nat → Bytes × State) :
    ∃ ps, let q := { s with egr := { s.egr with policers := ps } }
      target cmd p f op resp ecc run s = heldOr (enterRegion q (keyIndex f.key)) [accessOffset s f / 16384] cmd
        (targetAccess { f with op := op } resp (keyIndex f.key) c ecc run) := by
  obtain ⟨hr, hctx, hf, hp⟩ := h
  obtain ⟨ps, e⟩ := police_conforms hp
  have e' : police s c { f with op := op } = (true, { s with egr := { s.egr with policers := ps } }) := e
  have hctx' : frameCtx s p { f with op := op } = some c := hctx
  have hc' : targetCheck { s with egr := { s.egr with policers := ps } } c { f with op := op } = none := hc
  refine ⟨ps, ?_⟩
  unfold target; simp only [hr, hctx', hf, e', hc', if_false, Bool.false_eq_true, Bool.not_true]
  rfl

/-- One that fails a check is answered with the first that it fails. -/
theorem target_fails {s : State} {p c : Nat} {f : Frame} {op st : Nat} (h : Admitted s p c f)
    (hc : targetCheck s c { f with op := op } = some st) (cmd : Instr) (resp : Nat) (ecc : MemObs) (run : State → Nat → Nat → Bytes × State) :
    ∃ ps, let q := { s with egr := { s.egr with policers := ps } }
      target cmd p f op resp ecc run s = respond (if st = St.KEY_INVALID then raise q Off.FAB_STATUS 8 else q) c { f with op := op } resp st [] := by
  obtain ⟨hr, hctx, hf, hp⟩ := h
  obtain ⟨ps, e⟩ := police_conforms hp
  have e' : police s c { f with op := op } = (true, { s with egr := { s.egr with policers := ps } }) := e
  have hctx' : frameCtx s p { f with op := op } = some c := hctx
  have hc' : targetCheck { s with egr := { s.egr with policers := ps } } c { f with op := op } = some st := hc
  refine ⟨ps, ?_⟩
  unfold target; simp only [hr, hctx', hf, e', hc', if_false, Bool.false_eq_true, Bool.not_true]

theorem target_fenced {s : State} {p c : Nat} {f : Frame} (hr : s.osier.resuming = false) (hctx : frameCtx s p f = some c)
    (hf : s.fault.st = .fenced) (cmd : Instr) (op resp : Nat) (ecc : MemObs) (run : State → Nat → Nat → Bytes × State) :
    target cmd p f op resp ecc run s = respond s c { f with op := op } resp St.TARGET_FENCED [] := by
  have hctx' : frameCtx s p { f with op := op } = some c := hctx
  unfold target; simp only [hr, hctx', hf, if_true, if_false, Bool.false_eq_true]

theorem target_policed {s : State} {p c : Nat} {f : Frame} (hr : s.osier.resuming = false) (hctx : frameCtx s p f = some c)
    (hf : s.fault.st ≠ .fenced) (hp : polOn s c = true) (hn : polTokens s c < frameLen f * 2 ^ 24)
    (cmd : Instr) (op resp : Nat) (ecc : MemObs) (run : State → Nat → Nat → Bytes × State) :
    ∃ ps, target cmd p f op resp ecc run s =
        respond (raise { s with egr := { s.egr with policers := ps } } Off.EGR_POL_STATUS 1 [(20, 12, c)]) c { f with op := op } resp St.POLICED [] ∧
      (tget {} ps c).drops = min 0xFFFFFFFF ((policerOf s c).drops + 1) := by
  obtain ⟨ps, e, hd⟩ := police_refuses hp hn
  have e' : police s c { f with op := op } = (false, raise { s with egr := { s.egr with policers := ps } } Off.EGR_POL_STATUS 1 [(20, 12, c)]) := e
  have hctx' : frameCtx s p { f with op := op } = some c := hctx
  refine ⟨ps, ?_, hd⟩
  unfold target; simp only [hr, hctx', hf, e', if_true, if_false, Bool.false_eq_true, Bool.not_false]

/-- The state in which the access of a request that passes runs: the request is in flight. -/
structure Entered (s u : State) (f : Frame) : Prop where
  routes : SameRoutes s u
  memory : SameMemory s u
  lostAt : u.mem.lostAt = s.mem.lostAt
  reqs : u.fab.reqs = s.fab.reqs
  region : ∀ j, regionEnt u j = if j = keyIndex f.key then
    { regionEnt s (keyIndex f.key) with inflight := (regionEnt s (keyIndex f.key)).inflight + b2n (!s.osier.resuming) } else regionEnt s j

theorem Entered.offset {s u : State} {f : Frame} (h : Entered s u f) : accessOffset u f = accessOffset s f := by
  unfold accessOffset; rw [h.region, if_pos rfl]; rfl

theorem entered_enterRegion (s : State) (f : Frame) (ps : Tbl Policer) (hr : s.osier.resuming = false) :
    Entered s (enterRegion { s with egr := { s.egr with policers := ps } } (keyIndex f.key)) f := by
  refine ⟨⟨rfl, rfl, rfl, rfl⟩, ⟨rfl, rfl, rfl, rfl, rfl, rfl⟩, rfl, rfl, fun j => ?_⟩
  split
  · rename_i e; rw [e, regionEnt_enterRegion, hr]; rfl
  · rename_i e; exact regionEnt_setRegionEnt_ne _ _ e

/-- A request that passes has its access, resumed or not. -/
theorem target_passes {s : State} {p c : Nat} {f : Frame} {op : Nat} (h : Passes s p c f op) (cmd : Instr) (resp : Nat) (ecc : MemObs)
    (run : State → Nat → Nat → Bytes × State) :
    ∃ u, Entered s u f ∧ target cmd p f op resp ecc run s = targetAccess { f with op := op } resp (keyIndex f.key) c ecc run u := by
  rcases h with ⟨hr, hc, -⟩ | ⟨ha, hc, hw⟩
  · refine ⟨s, ⟨⟨rfl, rfl, rfl, rfl⟩, ⟨rfl, rfl, rfl, rfl, rfl, rfl⟩, rfl, rfl, fun j => ?_⟩, ?_⟩
    · split
      · rename_i e; rw [e, hr]; rfl
      · rfl
    · unfold target; rw [hr, hc]; rfl
  · obtain ⟨ps, e⟩ := target_checked ha hc cmd resp ecc run
    refine ⟨_, entered_enterRegion s f ps ha.1, ?_⟩
    rw [e, heldOr]
    have hw' : mustWait (enterRegion { s with egr := { s.egr with policers := ps } } (keyIndex f.key)) (regionsOf [accessOffset s f / 16384]) = false := hw
    rcases heldBy_cases _ (regionsOf [accessOffset s f / 16384]) cmd (targetAccess { f with op := op } resp (keyIndex f.key) c ecc run) with ⟨-, k⟩ | ⟨k, -⟩
    · exact k
    · rw [hw'] at k; cases k

/-- A request that passes is aligned (11 R277). -/
theorem Passes.aligned {s : State} {p c : Nat} {f : Frame} {op : Nat} (h : Passes s p c f op) :
    alignOk { f with op := op } (accessOffset s f) = true := by
  rcases h with ⟨-, -, h⟩ | ⟨-, hc, -⟩
  · exact h
  · have k : ∀ e g c r n a l b, regionCheck e g c r n a l b = none → b = true := by
      intro e g c r n a l b hk; unfold regionCheck at hk; (repeat' split at hk) <;> simp_all
    unfold targetCheck at hc; dsimp only at hc
    split at hc
    · cases hc
    · split at hc
      · cases hc
      · rename_i hk; exact k _ _ _ _ _ _ _ _ hk

/-- What an access leaves when it has been done and answered: `w` is what the operation left. -/
theorem done_inFlight {s u w : State} {c : Nat} {f : Frame} (h : Entered s u f) (hr : SameRoutes u w) (hf : w.fab = u.fab)
    (op resp st : Nat) (body : Bytes) : InFlight s (respond w c { f with op := op } resp st body (some (keyIndex f.key))) c f := by
  have e := respond_fab w c { f with op := op } resp st body (some (keyIndex f.key))
  dsimp only at e; rw [hr.flowPort, h.routes.flowPort] at e
  have hw : ∀ j, regionEnt w j = regionEnt u j := fun j => by unfold regionEnt; rw [hf]
  cases hn : (flowPort s c f.src 2).isNone with
  | false =>
    rw [hn] at e; simp only [Bool.false_eq_true, if_false] at e
    refine ⟨by rw [e, hf, h.reqs], fun j => ?_⟩
    have ej : regionEnt (respond w c { f with op := op } resp st body (some (keyIndex f.key))) j = regionEnt u j := by unfold regionEnt; rw [e, hf]
    rw [ej, h.region, hn]; rfl
  | true =>
    rw [hn] at e; simp only [if_true] at e
    refine ⟨by rw [e]; exact (congrArg Fab.reqs hf).trans h.reqs, fun j => ?_⟩
    have ej : regionEnt (respond w c { f with op := op } resp st body (some (keyIndex f.key))) j = regionEnt (leaveRegion w (some (keyIndex f.key))) j := by
      unfold regionEnt; rw [e]
    rw [ej, regionEnt_leaveRegion, hw, h.region, hn]
    by_cases hj : j = keyIndex f.key
    · subst hj; simp [b2n]
    · simp [hj, Ne.symm hj]

/-! ### What each request does (11 R277, R281, R282) -/

/-- A request that passes and loses nothing runs its operation in a state with the same memory and routes, and is answered. -/
theorem target_done {s : State} {p c : Nat} {f : Frame} {op : Nat} {ecc : MemObs} (h : Passes s p c f op)
    (hl : (lostFrame s [accessOffset s f / 16384] ecc).isSome = false) (cmd : Instr) (resp : Nat) (run : State → Nat → Nat → Bytes × State) :
    ∃ u v, Entered s u f ∧ Undisturbed u v ∧ target cmd p f op resp ecc run s =
      respond (run v c (accessOffset s f)).2 c { f with op := op } resp St.OK (run v c (accessOffset s f)).1 (some (keyIndex f.key)) := by
  obtain ⟨u, hu, e⟩ := target_passes h cmd resp ecc run
  have ho : frameOffset (regionEnt u (keyIndex f.key)) f.addr = accessOffset s f := hu.offset
  have hl' : (lostFrame u [accessOffset s f / 16384] ecc).isSome = false := by rw [hu.memory.lostFrame]; exact hl
  refine ⟨u, _, hu, memEvents_undisturbed hl', ?_⟩
  rw [e]; unfold targetAccess; dsimp only
  rw [ho, hl']; simp only [Bool.false_eq_true, if_false]

/-- Where the one read of a request is lost, it is answered DATA_POISON and has no other effect (11 R281). -/
theorem target_lost {s : State} {p c : Nat} {f : Frame} {op : Nat} (h : Passes s p c f op)
    (hl : (lostFrame s [accessOffset s f / 16384] [(accessOffset s f / 16384, true)]).isSome = true)
    (hn : (tget [] s.mem.lostAt (stackOf (accessOffset s f / 16384))).length < 15)
    (cmd : Instr) (resp : Nat) (run : State → Nat → Nat → Bytes × State) :
    ∃ u v, Entered s u f ∧ Undisturbed u v ∧ target cmd p f op resp [(accessOffset s f / 16384, true)] run s =
      respond v c { f with op := op } resp St.DATA_POISON [] (some (keyIndex f.key)) := by
  obtain ⟨u, hu, e⟩ := target_passes h cmd resp [(accessOffset s f / 16384, true)] run
  have ho : frameOffset (regionEnt u (keyIndex f.key)) f.addr = accessOffset s f := hu.offset
  refine ⟨u, _, hu, memEvents_lost_undisturbed (pfn := accessOffset s f / 16384) (by rw [hu.lostAt]; exact hn), ?_⟩
  rw [e]; unfold targetAccess; dsimp only
  rw [ho, hu.memory.lostFrame, hl]; simp only [if_true]

theorem spaceWrite_routes (s : State) (c off : Nat) (bs : Bytes) : SameRoutes s (spaceWrite s c off bs) := by
  constructor <;> simp

/-- A run of bytes written into one frame reads back for its owner, and the other bytes are kept. -/
theorem spaceWrite_done {s v : State} (h : SameMemory s v) (c : Nat) {off : Nat} {bs : Bytes} (h0 : 0 < bs.length)
    (hb : off % 16384 + bs.length ≤ 16384) :
    spaceRead (spaceWrite v c off bs) c off bs.length = bs ∧ OthersKept s (spaceWrite v c off bs) c off bs.length := by
  have fa : frameAddr (off / 16384) + off % 16384 = off := by unfold frameAddr; omega
  refine ⟨?_, fun a ha => ?_⟩
  · rw [spaceRead_one _ c h0 hb, spaceWrite_one v c h0 hb, getFrame_putFrame v c h0 hb]
  · rw [spaceWrite_one v c h0 hb]
    have k := memByte_putFrame (s := v) (slot := c) (pfn := off / 16384) (off := off % 16384) (a := a) (bs := bs) hb
      (by rw [h.tags, h.frameTag, fa]; exact ha)
    rw [h.cells, h.behind, inCompute_congr h.osier] at k
    refine k.imp id fun ⟨hi, lo, up, x⟩ => ⟨hi, by omega, by omega, x⟩

/-- What a write leaves still holds when it has been answered. -/
theorem respond_written {s w : State} {c off n : Nat} {bs : Bytes} (h : spaceRead w c off n = bs ∧ OthersKept s w c off n) (g : Frame)
    (resp st : Nat) (body : Bytes) (region : Option Nat) :
    spaceRead (respond w c g resp st body region) c off n = bs ∧ OthersKept s (respond w c g resp st body region) c off n := by
  have m := respond_memory w c g resp st body region
  refine ⟨by rw [m.spaceRead]; exact h.1, fun a ha => ?_⟩
  rw [m.cells]; exact h.2 a ha

section Request
variable {s : State} {p c : Nat} {f : Frame} {ecc : MemObs} (ha : alive s = true)
include ha

/-- A load is answered with the bytes at its address and changes no memory. -/
theorem load_completes (hl : (lostFrame s [accessOffset s f / 16384] ecc).isSome = false) (h : Passes s p c f 0x01) :
    Completes (.load p f ecc) s fun t => t.mem.cells = s.mem.cells ∧ t.mem.tags = s.mem.tags ∧ t.tier = s.tier ∧ InFlight s t c f ∧
      Answered s t c f 0x81 0 (spaceRead s c (accessOffset s f) f.size) (some (keyIndex f.key)) := by
  obtain ⟨u, v, hu, hv, e⟩ := target_done h hl (.load p f ecc) 0x81 fun s c off => (spaceRead s c off f.size, s)
  have m := hu.memory.trans hv.memory
  have n := m.trans (respond_memory v c { f with op := 0x01 } 0x81 St.OK (spaceRead v c (accessOffset s f) f.size) (some (keyIndex f.key)))
  refine ⟨_, whileAlive_live s _ ha, ?_⟩
  rw [load, e]; dsimp only
  rw [m.spaceRead] at n ⊢
  exact ⟨n.cells, n.tags, n.tier, done_inFlight hu hv.routes hv.fab .., respond_answered (hu.routes.trans hv.routes) c f 0x01 _ _ _ _⟩

/-- A store leaves its bytes. -/
theorem store_completes (h : Passes s p c f 0x02) :
    Completes (.store p f) s fun t => spaceRead t c (accessOffset s f) f.size = fit f.size f.body ∧ OthersKept s t c (accessOffset s f) f.size ∧
      InFlight s t c f ∧ Answered s t c f 0x82 0 [] (some (keyIndex f.key)) := by
  obtain ⟨u, v, hu, hv, e⟩ := target_done (ecc := []) h (by simp [lostFrame]) (.store p f) 0x82
    fun s c off => ([], spaceWrite s c off (fit f.size f.body))
  have al := h.aligned
  simp only [alignOk, isAtomic, Bool.and_eq_true, Bool.or_eq_true, beq_iff_eq, decide_eq_true_eq] at al
  have hw := spaceWrite_done (hu.memory.trans hv.memory) c (off := accessOffset s f) (bs := fit f.size f.body)
    (by rw [length_fit]; omega) (by rw [length_fit]; omega)
  rw [length_fit] at hw
  have r := spaceWrite_routes v c (accessOffset s f) (fit f.size f.body)
  refine ⟨_, whileAlive_live s _ ha, ?_⟩
  rw [store, e]; dsimp only
  obtain ⟨h1, h2⟩ := respond_written hw { f with op := 0x02 } 0x82 St.OK [] (some (keyIndex f.key))
  exact ⟨h1, h2, done_inFlight hu (hv.routes.trans r) ((spaceWrite_fab ..).trans hv.fab) ..,
    respond_answered (hu.routes.trans (hv.routes.trans r)) c f 0x02 _ _ _ _⟩

/-- An atomic leaves the word of its operation and is answered with the old one. -/
theorem atomic_completes {i : Instr} {op : Nat} (hx : exec i s = whileAlive s (atomic i p f op ecc s)) (hop : isAtomic op = true)
    (hl : (lostFrame s [accessOffset s f / 16384] ecc).isSome = false) (h : Passes s p c f op) :
    Completes i s fun t =>
      let old := BitVec.ofNat 64 (le (spaceRead s c (accessOffset s f) 8))
      let w := atomicNew op (frameFlag f 2) old (BitVec.ofNat 64 (leAt f.body 0 8)) (BitVec.ofNat 64 (leAt f.body 8 8))
      spaceRead t c (accessOffset s f) 8 = putLe 8 w.toNat ∧ OthersKept s t c (accessOffset s f) 8 ∧ InFlight s t c f ∧
        Answered s t c f 0x90 0 (putLe 8 old.toNat) (some (keyIndex f.key)) := by
  obtain ⟨u, v, hu, hv, e⟩ := target_done h hl i 0x90 fun s c off =>
    let old := BitVec.ofNat 64 (le (spaceRead s c off 8))
    let w := atomicNew op (frameFlag f 2) old (BitVec.ofNat 64 (leAt f.body 0 8)) (BitVec.ofNat 64 (leAt f.body 8 8))
    (putLe 8 old.toNat, spaceWrite s c off (putLe 8 w.toNat))
  have m := hu.memory.trans hv.memory
  have al := h.aligned
  simp only [alignOk, hop, Bool.true_or, Bool.and_true, beq_iff_eq] at al
  refine ⟨_, hx.trans (whileAlive_live s _ ha), ?_⟩
  rw [atomic, e]; dsimp only
  rw [m.spaceRead]
  generalize atomicNew op (frameFlag f 2) _ _ _ = w
  have r := spaceWrite_routes v c (accessOffset s f) (putLe 8 w.toNat)
  have hw := spaceWrite_done m c (off := accessOffset s f) (bs := putLe 8 w.toNat) (by rw [length_putLe]; omega) (by rw [length_putLe]; omega)
  rw [length_putLe] at hw
  obtain ⟨h1, h2⟩ := respond_written hw { f with op := op } 0x90 St.OK
    (putLe 8 (BitVec.ofNat 64 (le (spaceRead s c (accessOffset s f) 8))).toNat) (some (keyIndex f.key))
  exact ⟨h1, h2, done_inFlight hu (hv.routes.trans r) ((spaceWrite_fab ..).trans hv.fab) ..,
    respond_answered (hu.routes.trans (hv.routes.trans r)) c f op _ _ _ _⟩

end Request

/-! ### Requests that are not done (07 R168; 11 R281; 13 R331; 16 R392) -/

/-- What an answer without effect leaves: `q` is the state it is sent from. -/
theorem answered_only {s q : State} {c op resp : Nat} {f : Frame} (hr : SameRoutes s q) (hm : q.mem = s.mem) (ht : q.tier = s.tier) (hf : q.fab = s.fab) (st : Nat) :
    let t := respond q c { f with op := op } resp st []
    t.mem = s.mem ∧ t.tier = s.tier ∧ t.fab = s.fab ∧ Answered s t c f resp st [] none := by
  have o := respond_only q c { f with op := op } resp st [] none
  have e := respond_fab q c { f with op := op } resp st [] none
  refine ⟨Eq.trans (o .mem (by decide)) hm, Eq.trans (o .tier (by decide)) ht, ?_, respond_answered hr c f op _ _ _ _⟩
  rw [e]; split <;> exact hf

section Refusals
variable {s : State} {p c : Nat} {f : Frame} {i : Instr} {op resp : Nat} {ecc : MemObs} {run : State → Nat → Nat → Bytes × State}
  (ha : alive s = true)
include ha

/-- A read that ECC cannot correct answers DATA_POISON and changes no memory. -/
theorem lost_completes (hx : exec i s = whileAlive s (target i p f op resp [(accessOffset s f / 16384, true)] run s)) (h : Passes s p c f op)
    (hl : (lostFrame s [accessOffset s f / 16384] [(accessOffset s f / 16384, true)]).isSome = true)
    (hn : (tget [] s.mem.lostAt (stackOf (accessOffset s f / 16384))).length < 15) :
    Completes i s fun t => t.mem.cells = s.mem.cells ∧ t.mem.tags = s.mem.tags ∧ t.tier = s.tier ∧ InFlight s t c f ∧
      Answered s t c f resp St.DATA_POISON [] (some (keyIndex f.key)) := by
  obtain ⟨u, v, hu, hv, e⟩ := target_lost h hl hn i resp run
  have n := (hu.memory.trans hv.memory).trans (respond_memory v c { f with op := op } resp St.DATA_POISON [] (some (keyIndex f.key)))
  refine ⟨_, hx.trans (whileAlive_live s _ ha), ?_⟩
  rw [e]
  exact ⟨n.cells, n.tags, n.tier, done_inFlight hu hv.routes hv.fab .., respond_answered (hu.routes.trans hv.routes) c f op _ _ _ _⟩

/-- While its region is held, a request that passes its checks waits at the controller. -/
theorem held_completes (hx : exec i s = whileAlive s (target i p f op resp ecc run s)) (h : Admitted s p c f)
    (hc : targetCheck s c { f with op := op } = none) (hw : mustWait s (regionsOf [accessOffset s f / 16384]) = true) :
    Completes i s fun t => t.mem = s.mem ∧ t.tier = s.tier ∧
      t.osier = { s.osier with waits := s.osier.waits ++ [(regionsOf [accessOffset s f / 16384], i)] } ∧ t.egr.ports = s.egr.ports ∧
      (regionEnt t (keyIndex f.key)).inflight = (regionEnt s (keyIndex f.key)).inflight + 1 := by
  obtain ⟨ps, e⟩ := target_checked h hc i resp ecc run
  refine ⟨_, hx.trans (whileAlive_live s _ ha), ?_⟩
  rw [e, heldOr]
  have hw' : mustWait (enterRegion { s with egr := { s.egr with policers := ps } } (keyIndex f.key)) (regionsOf [accessOffset s f / 16384]) = true := hw
  rcases heldBy_cases _ (regionsOf [accessOffset s f / 16384]) i (targetAccess { f with op := op } resp (keyIndex f.key) c ecc run) with ⟨k, -⟩ | ⟨-, k⟩
  · rw [hw'] at k; cases k
  · rw [k]
    refine ⟨rfl, rfl, rfl, rfl, ?_⟩
    exact congrArg RegEnt.inflight (regionEnt_enterRegion { s with egr := { s.egr with policers := ps } } (keyIndex f.key))

/-- A request that fails a check has no effect but its answer. -/
theorem fails_completes (hx : exec i s = whileAlive s (target i p f op resp ecc run s)) (h : Admitted s p c f) {st : Nat}
    (hc : targetCheck s c { f with op := op } = some st) :
    Completes i s fun t => t.mem = s.mem ∧ t.tier = s.tier ∧ t.fab = s.fab ∧ Answered s t c f resp st [] none ∧
      (st = St.KEY_INVALID → (statusOf t Off.FAB_STATUS).hi.getLsbD 3 = true) := by
  obtain ⟨ps, e⟩ := target_fails h hc i resp ecc run
  refine ⟨_, hx.trans (whileAlive_live s _ ha), ?_⟩
  rw [e]
  by_cases hk : st = St.KEY_INVALID
  · rw [if_pos hk]
    have d := raise_undisturbed { s with egr := { s.egr with policers := ps } } Off.FAB_STATUS 8 []
    have r : SameRoutes s { s with egr := { s.egr with policers := ps } } := ⟨rfl, rfl, rfl, rfl⟩
    obtain ⟨h1, h2, h3, h4⟩ := answered_only (c := c) (f := f) (op := op) (resp := resp) (r.trans d.routes) (raise_mem ..) (raise_tier ..) (raise_fab ..) st
    exact ⟨h1, h2, h3, h4, fun _ => respond_keeps_flag _ _ _ _ _ _ (raise_flag _ _ 3 [] (by omega) (by simp))⟩
  · rw [if_neg hk]
    obtain ⟨h1, h2, h3, h4⟩ := answered_only (c := c) (f := f) (op := op) (resp := resp) (q := { s with egr := { s.egr with policers := ps } })
      ⟨rfl, rfl, rfl, rfl⟩ rfl rfl rfl st
    exact ⟨h1, h2, h3, h4, fun e => absurd e hk⟩

theorem fenced_completes (hx : exec i s = whileAlive s (target i p f op resp ecc run s)) (hr : s.osier.resuming = false)
    (hctx : frameCtx s p f = some c) (hf : s.fault.st = .fenced) :
    Completes i s fun t => t.mem = s.mem ∧ t.tier = s.tier ∧ t.fab = s.fab ∧ Answered s t c f resp St.TARGET_FENCED [] none := by
  refine ⟨_, hx.trans (whileAlive_live s _ ha), ?_⟩
  rw [target_fenced hr hctx hf]
  exact answered_only ⟨rfl, rfl, rfl, rfl⟩ rfl rfl rfl _

/-- A request that the policer does not let is counted. -/
theorem policed_completes (hx : exec i s = whileAlive s (target i p f op resp ecc run s)) (hr : s.osier.resuming = false)
    (hctx : frameCtx s p f = some c) (hf : s.fault.st ≠ .fenced) (hp : polOn s c = true) (hn : polTokens s c < frameLen f * 2 ^ 24) :
    Completes i s fun t => t.mem = s.mem ∧ t.tier = s.tier ∧ t.fab = s.fab ∧ Answered s t c f resp St.POLICED [] none ∧
      (policerOf t c).drops = min 0xFFFFFFFF ((policerOf s c).drops + 1) := by
  obtain ⟨ps, e, hd⟩ := target_policed hr hctx hf hp hn i op resp ecc run
  refine ⟨_, hx.trans (whileAlive_live s _ ha), ?_⟩
  rw [e]
  have d := raise_undisturbed { s with egr := { s.egr with policers := ps } } Off.EGR_POL_STATUS 1 [(20, 12, c)]
  have r : SameRoutes s { s with egr := { s.egr with policers := ps } } := ⟨rfl, rfl, rfl, rfl⟩
  obtain ⟨h1, h2, h3, h4⟩ := answered_only (c := c) (f := f) (op := op) (resp := resp) (r.trans d.routes) (raise_mem ..) (raise_tier ..) (raise_fab ..) St.POLICED
  refine ⟨h1, h2, h3, h4, ?_⟩
  unfold policerOf at hd ⊢; rw [respond_policers, raise_egr]; exact hd

end Refusals

/-! ### The requests of the three kinds -/

/-- The atomics, by their operations. -/
def atomicReqs (p : Nat) (f : Frame) (ecc : MemObs) : List (Instr × Nat) :=
  [(.fetchAdd p f ecc, 0x10), (.swap p f ecc, 0x11), (.cmpSwap p f ecc, 0x12), (.fetchMin p f ecc, 0x13), (.fetchMax p f ecc, 0x14)]

/-- The requests that read, by operation and response. -/
def readReqs (p : Nat) (f : Frame) (ecc : MemObs) : List (Instr × Nat × Nat) :=
  (.load p f ecc, 0x01, 0x81) :: (atomicReqs p f ecc).map fun x => (x.1, x.2, 0x90)

theorem atomicReqs_exec {p : Nat} {f : Frame} {ecc : MemObs} {i : Instr} {op : Nat} (h : (i, op) ∈ atomicReqs p f ecc) (s : State) :
    exec i s = whileAlive s (atomic i p f op ecc s) ∧ isAtomic op = true := by
  simp only [atomicReqs, List.mem_cons, Prod.mk.injEq, List.not_mem_nil, or_false] at h
  rcases h with ⟨rfl, rfl⟩ | ⟨rfl, rfl⟩ | ⟨rfl, rfl⟩ | ⟨rfl, rfl⟩ | ⟨rfl, rfl⟩ <;> exact ⟨rfl, rfl⟩

theorem readReqs_exec {p : Nat} {f : Frame} {ecc : MemObs} {i : Instr} {op resp : Nat} (h : (i, op, resp) ∈ readReqs p f ecc) (s : State) :
    ∃ run, exec i s = whileAlive s (target i p f op resp ecc run s) := by
  rcases List.mem_cons.1 h with h | h
  · cases h; exact ⟨_, rfl⟩
  · obtain ⟨⟨j, o⟩, hm, e⟩ := List.mem_map.1 h
    cases e; exact ⟨_, (atomicReqs_exec hm s).1⟩

theorem fabricReqs_exec {p : Nat} {f : Frame} {ecc : MemObs} {i : Instr} {op resp : Nat}
    (h : (i, op, resp) ∈ (Instr.store p f, 0x02, 0x82) :: readReqs p f ecc) (s : State) :
    ∃ ecc run, exec i s = whileAlive s (target i p f op resp ecc run s) := by
  rcases List.mem_cons.1 h with h | h
  · cases h; exact ⟨[], _, rfl⟩
  · exact ⟨ecc, readReqs_exec h s⟩

/-- The word that an atomic leaves, by its operation (R282). -/
theorem atomicNew_eq (op : Nat) (signed : Bool) (old a b : BitVec 64) :
    atomicNew op signed old a b = if op = 0x10 then old + a else if op = 0x11 then a else if op = 0x12 then (if old = a then b else old)
      else if op = 0x13 then (if if signed then a.toInt < old.toInt else a.toNat < old.toNat then a else old)
      else if if signed then old.toInt < a.toInt else old.toNat < a.toNat then a else old := by
  unfold atomicNew; cases signed <;> simp [BitVec.slt, BitVec.ult]

/-! ### Responses and timeouts at the requester (11 R284 to R286; 16 R409) -/

/-- The responses, by the operations of the requests they answer. -/
def responseOps (f : Frame) : List (Instr × Nat) :=
  [(.loadResp f, 0x01), (.storeResp f, 0x02), (.atomicResp f, 0x10), (.atomicResp f, 0x11), (.atomicResp f, 0x12), (.atomicResp f, 0x13),
    (.atomicResp f, 0x14)]

theorem responseOps_exec {f : Frame} {i : Instr} {op : Nat} (h : (i, op) ∈ responseOps f) (s : State) :
    ∃ fits : Nat → Bool, fits op = true ∧ exec i s = whileAlive s (response fits f s) := by
  simp only [responseOps, List.mem_cons, Prod.mk.injEq, List.not_mem_nil, or_false] at h
  rcases h with ⟨rfl, rfl⟩ | ⟨rfl, rfl⟩ | ⟨rfl, rfl⟩ | ⟨rfl, rfl⟩ | ⟨rfl, rfl⟩ | ⟨rfl, rfl⟩ | ⟨rfl, rfl⟩
  · exact ⟨(· == 0x01), rfl, rfl⟩
  · exact ⟨(· == 0x02), rfl, rfl⟩
  all_goals exact ⟨isAtomic, rfl, rfl⟩

/-- What a response of an outstanding request does, where no source waits for its tag. -/
theorem response_matched {s : State} {fits : Nat → Bool} {f : Frame} {r : Req} (hr : tfind s.fab.reqs f.rtag = some r) (hh : r.held = false)
    (ho : fits r.op = true) (ht : (freeTag s).isSome = true) :
    response fits f s =
      if r.unit.any fun u => epochOf s u.1 u.2 != r.epoch then count (dropTag s f.rtag) (ckey Off.FAULT_CNT_LO 5 0) 1
      else if f.key % 2 ^ 16 = St.TARGET_FENCED then deadTarget (dropTag s f.rtag) r St.TARGET_FENCED else endRequest (dropTag s f.rtag) r f := by
  have hf : (freeTag s).isNone = false := by cases e : freeTag s <;> simp_all
  have he : ∀ k j, epochOf (dropTag s f.rtag) k j = epochOf s k j := fun _ _ => rfl
  unfold response; rw [hr]; simp [hh, ho, hf, freedTag, he]

/-- One that finds no outstanding request is late. -/
theorem response_late {s : State} (fits : Nat → Bool) {f : Frame} (h : ∀ r, tfind s.fab.reqs f.rtag = some r → r.held = true) :
    response fits f s = lateResponse s := by
  unfold response
  cases e : tfind s.fab.reqs f.rtag with
  | none => rfl
  | some r => simp [h r e]

theorem dropTag_only (s : State) (tag : Nat) : OnlyParts [.fab] s (dropTag s tag) := only_fab s _

theorem dropTag_find (s : State) (tag : Nat) :
    tfind (dropTag s tag).fab.reqs tag = none ∧ ∀ j, j ≠ tag → tfind (dropTag s tag).fab.reqs j = tfind s.fab.reqs j :=
  ⟨tfind_tdel_self .., fun _ h => tfind_tdel_ne _ h⟩

/-- A step put back is the one found. -/
theorem findStep_putStep {s : State} {id : Nat} {v w : Step} (h : findStep s id = some v) (hw : w.desc.id = v.desc.id) :
    findStep (putStep s w) id = some w := by
  have hv : v.desc.id = id := by simpa using List.find?_some h
  have k : ∀ l : List Step, (l.find? fun t => t.desc.id == id) = some v →
      ((l.map fun u => if u.desc.id = w.desc.id then w else u).find? fun t => t.desc.id == id) = some w := by
    intro l
    induction l with
    | nil => intro e; cases e
    | cons u l ih =>
      intro e
      rw [List.map_cons]
      by_cases hu : u.desc.id = id
      · rw [if_pos (by rw [hu, hw, hv]), List.find?_cons_of_pos (by simp [hw, hv])]
      · rw [List.find?_cons_of_neg (by simpa using hu)] at e
        rw [if_neg (by rw [hw, hv]; exact hu), List.find?_cons_of_neg (by simpa using hu), ih e]
  exact k _ h

/-- A request's end touches the requester's registers or its step. -/
theorem endRequest_only (s : State) (r : Req) (f : Frame) : OnlyParts [.fab, .weft] s (endRequest s r f) := by
  unfold endRequest; dsimp only
  split
  · exact (only_fab s _).mono (by decide)
  · split
    · split
      · exact OnlyParts.refl _ _
      · exact (only_weft s _).mono (by decide)
    · exact OnlyParts.refl _ _

theorem endRequest_reqs (s : State) (r : Req) (f : Frame) : (endRequest s r f).fab.reqs = s.fab.reqs := by
  unfold endRequest; dsimp only; (repeat' split) <;> rfl

/-- FAB_CMD takes the response's status, flag and word. -/
theorem endRequest_fabCmd {s : State} {r : Req} (f : Frame) (h : r.src = .fabCmd) :
    endRequest s r f = { s with fab := { s.fab with
      combined := frameFlag f 1, busy := false, status := f.key % 2 ^ 16,
      rdata := if f.key % 2 ^ 16 = 0 ∧ r.op ≠ 2 then BitVec.ofNat 64 (leAt f.body 0 8) else s.fab.rdata } } := by
  unfold endRequest; rw [h]; simp [fabEnd]

/-- A step takes the status of the first response that fails. -/
theorem endRequest_rim {s : State} {r : Req} {id : Nat} {v : Step} (f : Frame) (h : r.src = .rim id) (hv : findStep s id = some v) :
    (endRequest s r f).fab = s.fab ∧ ∃ w, findStep (endRequest s r f) id = some w ∧
      w.status = if f.key % 2 ^ 16 = 0 ∨ v.status ≠ 0 then v.status else f.key % 2 ^ 16 := by
  unfold endRequest; rw [h]; dsimp only; rw [hv]; dsimp only
  by_cases hk : f.key % 2 ^ 16 = 0 ∨ v.status ≠ 0
  · rw [if_pos (by simpa using hk), if_pos hk]; exact ⟨rfl, v, hv, rfl⟩
  · rw [if_neg (by simpa using hk), if_neg hk]; exact ⟨rfl, _, findStep_putStep hv rfl, rfl⟩

/-! ### A dead target (11 R286) -/

theorem statusOf_count (s : State) (key n off : Nat) : statusOf (count s key n) off = statusOf s off := rfl

theorem statusOf_faultRingWrite (s : State) (r : FaultRec) (off : Nat) : statusOf (faultRingWrite s r) off = statusOf s off := by
  have e : ∀ fn o, statusOf (emitAs s fn o) off = statusOf s off := fun fn o => by unfold emitAs; (repeat' split) <;> rfl
  unfold faultRingWrite; dsimp only; split
  · rfl
  · split
    · exact statusOf_count ..
    · exact e ..

theorem faultRingWrite_log (s : State) (r : FaultRec) : (faultRingWrite s r).fault.log = s.fault.log := by
  have e : ∀ o, (emitAs s 0 o).fault.log = s.fault.log := fun o => by rw [emitAs_fault]
  unfold faultRingWrite; dsimp only; split
  · rfl
  · split
    · rfl
    · exact e _

/-- A STEP fault's record heads the log, and no other status register is told. -/
theorem faultReport_step {s : State} {r : FaultRec} (h : sourceClass r.source = 1) :
    ((faultReport s r).fault.log.head?.map fun e => (e.source, e.ctx, e.peer)) = some (r.source, r.ctx, r.peer) ∧
      ∀ off, off ≠ Off.FAULT_STATUS → statusOf (faultReport s r) off = statusOf s off := by
  unfold faultReport; rw [h]; unfold faultReportAs
  simp only [Nat.one_ne_zero, if_false, if_true, show (1 : Nat) ≤ 2 by omega, show ¬ (1 : Nat) ≥ 2 by omega, show (1 : Nat) ≤ 3 by omega]
  refine ⟨?_, fun off ho => ?_⟩
  · rw [raise_fault, faultRingWrite_log, count_fault]; rfl
  · rw [statusOf_raise_ne _ _ _ ho, statusOf_faultRingWrite]; rfl

/-- A request of FAB_CMD whose target is dead: the context is quiesced, the target named, and FAB_CMD ends poisoned where it read. -/
theorem deadTarget_fabCmd {s : State} {r : Req} (status : Nat) (h : r.src = .fabCmd) :
    let t := deadTarget s r status
    (ctxOf t r.ctx).quiesced = true ∧ (statusOf t Off.FAB_STATUS).hi.getLsbD 0 = true ∧
      (t.fault.log.head?.map fun e => (e.source, e.ctx, e.peer)) = some (0x14, r.ctx, r.target) ∧
      t.fab = { s.fab with deadNode := r.target, deadCtx := r.ctx, status := status, busy := false,
                           poison := if r.op = 2 then s.fab.poison else true, rdata := if r.op = 2 then s.fab.rdata else BitVec.allOnes 64 } := by
  intro t
  let u := setCtx s r.ctx { ctxOf s r.ctx with quiesced := true }
  let v := raise { u with fab := { u.fab with deadNode := r.target, deadCtx := r.ctx } } Off.FAB_STATUS 1
  let w := if r.op = 2 then fabEnd v status
    else { v with fab := { v.fab with status := status, busy := false, poison := true, rdata := BitVec.allOnes 64 } }
  have e : t = faultReport w { source := 0x14, ctx := r.ctx, status := status, detail := r.addr, peer := r.target } := by
    show deadTarget s r status = _
    unfold deadTarget; rw [h]; dsimp only; rw [Bool.and_false, if_neg Bool.false_ne_true]
  have vf : v.fab = { s.fab with deadNode := r.target, deadCtx := r.ctx } := raise_fab ..
  have ws : w.sec = v.sec ∧ (∀ off, statusOf w off = statusOf v off) := by simp only [w]; split <;> exact ⟨rfl, fun _ => rfl⟩
  obtain ⟨hl, hs⟩ := faultReport_step (s := w) (r := { source := 0x14, ctx := r.ctx, status := status, detail := r.addr, peer := r.target })
    (by decide : sourceClass 0x14 = 1)
  rw [e]
  refine ⟨?_, ?_, hl, ?_⟩
  · have k : (faultReport w { source := 0x14, ctx := r.ctx, status := status, detail := r.addr, peer := r.target }).sec = u.sec := by
      rw [faultReport_sec, ws.1]; exact raise_sec ..
    unfold ctxOf; rw [k]
    exact congrArg Ctx.quiesced (ctxOf_setCtx s r.ctx _)
  · rw [hs _ (by decide), ws.2]
    exact raise_flag _ _ 0 [] (by omega) (by simp)
  · rw [faultReport_fab]
    by_cases ho : r.op = 2
    · simp only [w, ho, if_true, fabEnd, vf]
    · simp only [w, ho, if_false, vf]

section Requester
variable {s : State} {f : Frame} {i : Instr} {fits : Nat → Bool} {r : Req} (ha : alive s = true) (hx : exec i s = whileAlive s (response fits f s))
include ha hx

theorem response_completes {P : State → Prop} (h : P (response fits f s)) : Completes i s P := ⟨_, hx.trans (whileAlive_live s _ ha), h⟩

/-- A response stamped with another epoch than its unit's is dropped and counted. -/
theorem dropped_completes (hr : tfind s.fab.reqs f.rtag = some r) (hh : r.held = false) (ho : fits r.op = true) (ht : (freeTag s).isSome = true)
    (hd : (r.unit.any fun u => epochOf s u.1 u.2 != r.epoch) = true) :
    Completes i s fun t => OnlyParts [.fab, .regs] s t ∧ tfind t.fab.reqs f.rtag = none ∧ t.fab.busy = s.fab.busy ∧
      cnt t (ckey Off.FAULT_CNT_LO 5 0) = (cnt s (ckey Off.FAULT_CNT_LO 5 0) + 1) % 2 ^ 64 := by
  apply response_completes ha hx
  rw [response_matched hr hh ho ht, if_pos hd]
  exact ⟨((dropTag_only s f.rtag).mono (by decide)).trans ((only_regs _ _).mono (by decide)), (dropTag_find s f.rtag).1, rfl, cnt_count ..⟩

/-- A response ends its request. -/
theorem ended_completes (hr : tfind s.fab.reqs f.rtag = some r) (hh : r.held = false) (ho : fits r.op = true) (ht : (freeTag s).isSome = true)
    (hd : (r.unit.any fun u => epochOf s u.1 u.2 != r.epoch) = false) (hk : f.key % 2 ^ 16 ≠ St.TARGET_FENCED) :
    Completes i s fun t => OnlyParts [.fab, .weft] s t ∧ tfind t.fab.reqs f.rtag = none ∧
      (∀ j, j ≠ f.rtag → tfind t.fab.reqs j = tfind s.fab.reqs j) ∧
      (r.src = .fabCmd → t.weft = s.weft ∧ t.fab.busy = false ∧ t.fab.status = f.key % 2 ^ 16 ∧ t.fab.combined = frameFlag f 1 ∧
        t.fab.rdata = if f.key % 2 ^ 16 = 0 ∧ r.op ≠ 2 then BitVec.ofNat 64 (leAt f.body 0 8) else s.fab.rdata) ∧
      ∀ id v, r.src = .rim id → findStep s id = some v → t.fab.busy = s.fab.busy ∧ t.fab.status = s.fab.status ∧
        ∃ w, findStep t id = some w ∧ w.status = if f.key % 2 ^ 16 = 0 ∨ v.status ≠ 0 then v.status else f.key % 2 ^ 16 := by
  apply response_completes ha hx
  rw [response_matched hr hh ho ht, if_neg (by rw [hd]; decide), if_neg hk]
  obtain ⟨h1, h2⟩ := dropTag_find s f.rtag
  rw [endRequest_reqs]
  refine ⟨((dropTag_only s f.rtag).mono (by decide)).trans (endRequest_only _ r f), h1, h2, fun hs => ?_, fun id v hs hv => ?_⟩
  · rw [endRequest_fabCmd f hs]; exact ⟨rfl, rfl, rfl, rfl, rfl⟩
  · obtain ⟨hf, w, hw, hst⟩ := endRequest_rim (s := dropTag s f.rtag) f hs hv
    exact ⟨by rw [hf]; rfl, by rw [hf]; rfl, w, hw, hst⟩

/-- A target that answers TARGET_FENCED is dead: FAB_CMD ends and its context is quiesced. -/
theorem fencedResponse_completes (hr : tfind s.fab.reqs f.rtag = some r) (hh : r.held = false) (ho : fits r.op = true) (ht : (freeTag s).isSome = true)
    (hd : (r.unit.any fun u => epochOf s u.1 u.2 != r.epoch) = false) (hk : f.key % 2 ^ 16 = St.TARGET_FENCED) (hs : r.src = .fabCmd) :
    Completes i s fun t => tfind t.fab.reqs f.rtag = none ∧ (ctxOf t r.ctx).quiesced = true ∧ t.fab.busy = false ∧
      t.fab.status = St.TARGET_FENCED ∧ t.fab.deadNode = r.target ∧ (statusOf t Off.FAB_STATUS).hi.getLsbD 0 = true := by
  apply response_completes ha hx
  rw [response_matched hr hh ho ht, if_neg (by rw [hd]; decide), if_pos hk]
  obtain ⟨hq, he, -, hf⟩ := deadTarget_fabCmd (s := dropTag s f.rtag) St.TARGET_FENCED hs
  rw [hf]
  exact ⟨(dropTag_find s f.rtag).1, hq, rfl, rfl, rfl, he⟩

/-- A response that finds no request is counted late. -/
theorem late_completes (h : ∀ r, tfind s.fab.reqs f.rtag = some r → r.held = true) :
    Completes i s fun t => t.fab.reqs = s.fab.reqs ∧ t.fab.late = min 0xFFFFFFFF (s.fab.late + 1) ∧
      (statusOf t Off.FAB_STATUS).hi.getLsbD 1 = true := by
  apply response_completes ha hx
  rw [response_late fits h, lateResponse, raise_fab]
  exact ⟨rfl, Nat.min_comm .., raise_flag _ _ 1 [] (by omega) (by simp)⟩

end Requester

/-- A request of FAB_CMD that is not answered in time: its tag is held, its context quiesced and what it read poisoned. -/
theorem timeout_completes {s : State} {tag : Nat} {r : Req} (ha : alive s = true) (hr : tfind s.fab.reqs tag = some r) (hh : r.held = false)
    (hs : r.src = .fabCmd) :
    Completes (.requestTimeout tag) s fun t =>
      tfind t.fab.reqs tag = some { r with held := true } ∧ (ctxOf t r.ctx).quiesced = true ∧ t.fab.deadNode = r.target ∧
        t.fab.deadCtx = r.ctx ∧ (statusOf t Off.FAB_STATUS).hi.getLsbD 0 = true ∧ t.fab.busy = false ∧ t.fab.status = St.TARGET_TIMEOUT ∧
        (r.op = 2 → t.fab.poison = s.fab.poison ∧ t.fab.rdata = s.fab.rdata) ∧
        (r.op ≠ 2 → t.fab.poison = true ∧ t.fab.rdata = BitVec.allOnes 64) ∧
        (t.fault.log.head?.map fun e => (e.source, e.ctx, e.peer)) = some (0x14, r.ctx, r.target) := by
  refine ⟨_, whileAlive_live s _ ha, ?_⟩
  have e : requestTimeout tag s =
      deadTarget { s with fab := { s.fab with reqs := tput s.fab.reqs tag { r with held := true } } } r St.TARGET_TIMEOUT := by
    unfold requestTimeout; rw [hr]; simp [hh]
  obtain ⟨hq, he, hl, hf⟩ := deadTarget_fabCmd
    (s := { s with fab := { s.fab with reqs := tput s.fab.reqs tag { r with held := true } } }) St.TARGET_TIMEOUT hs
  rw [e]; dsimp only; rw [hf]
  exact ⟨tfind_tput_self .., hq, rfl, rfl, he, rfl, rfl, fun ho => ⟨if_pos ho, if_pos ho⟩, fun ho => ⟨if_neg ho, if_neg ho⟩, hl⟩

/-- A second timeout frees a held tag. -/
theorem holdExpiry_completes {s : State} {tag : Nat} {r : Req} (ha : alive s = true) (hr : tfind s.fab.reqs tag = some r) (hh : r.held = true)
    (ht : (freeTag s).isSome = true) :
    Completes (.rtagHoldExpiry tag) s fun t => OnlyParts [.fab] s t ∧ tfind t.fab.reqs tag = none ∧
      ∀ j, j ≠ tag → tfind t.fab.reqs j = tfind s.fab.reqs j := by
  have hf : (freeTag s).isNone = false := by cases e : freeTag s <;> simp_all
  refine ⟨_, whileAlive_live s _ ha, ?_⟩
  have e : rtagHoldExpiry tag s = dropTag s tag := by unfold rtagHoldExpiry; rw [hr]; simp [hh, hf, freedTag]
  rw [e]
  exact ⟨dropTag_only s tag, dropTag_find s tag⟩

/-! ### The write of a command register (18 R444, R449) -/

/-- Fields put into a word leave every other bit of it. -/
theorem testBit_withFields {i : Nat} : ∀ (puts : List (Nat × Nat × Nat)) (v : Nat), (∀ p ∈ puts, ¬ (p.1 ≤ i ∧ i < p.1 + p.2.1)) →
    (withFields v puts).testBit i = v.testBit i
  | [], _, _ => rfl
  | p :: ps, v, h => by
    obtain ⟨hp, hps⟩ := List.forall_mem_cons.1 h
    show (withFields (putFld v p.1 p.2.1 p.2.2) ps).testBit i = _
    rw [testBit_withFields ps _ hps, testBit_putFld, if_neg hp]

/-- A privileged write that changes no reserved bit changes the stored word and nothing else. -/
theorem typedWrite_takes {s : State} {m : Master} {off : Nat} {r : Reg} {d : Nat} (hp : privileged s m = true) (ho : off < 2 ^ 24)
    (hm : reservedMask r < 2 ^ 32) (h : ∀ i, (reservedMask r).testBit i = true → d.testBit i = (storedWord s m off).testBit i) :
    typedWrite s m .normal off r d = takeWord s m off r (writtenWord s m .normal r (storedWord s m off) d) := by
  have he : off % 2 ^ 24 = off := Nat.mod_eq_of_lt ho
  have z : (writtenWord s m .normal r (storedWord s m off) d ^^^ storedWord s m off) &&& reservedMask r = 0 := by
    apply Nat.eq_of_testBit_eq; intro i
    rw [Nat.testBit_and, Nat.testBit_xor, Nat.zero_testBit]
    cases hb : (reservedMask r).testBit i with
    | false => rw [Bool.and_false]
    | true =>
      have hi : i < 32 := by
        refine Decidable.byContradiction fun hc => ?_
        rw [Nat.testBit_lt_two_pow (Nat.lt_of_lt_of_le hm (Nat.pow_le_pow_right (by omega) (by omega)))] at hb; cases hb
      unfold writtenWord; dsimp only
      rw [if_pos (by simp [hp]), testBit_under _ _ _ _ hi, if_pos hb, h i hb]; simp
  unfold typedWrite; dsimp only
  rw [he, if_neg (by simp)]
  simp only [hp, Bool.not_true, Bool.and_false, Bool.false_eq_true, if_false]
  rw [z]; rfl

theorem takeWord_only (s : State) {m : Master} {off : Nat} (r : Reg) (w : Nat) (hm : perMaster off = false) :
    OnlyParts [.regs] s (takeWord s m off r w) := by
  unfold takeWord putStored; dsimp only; rw [hm]
  split <;> exact only_regs s _

/-- A served command's write of its fields touches the registers alone, where it names no reserved bit. -/
theorem cmdState_only {s : State} {m : Master} {off : Nat} {r : Reg} {puts : List (Nat × Nat × Nat)} (hr : regAt off = some r)
    (hp : privileged s m = true) (hm : perMaster off = false) (ho : off < 2 ^ 24) (hk : reservedMask r < 2 ^ 32)
    (h : ∀ p ∈ puts, ∀ i, (reservedMask r).testBit i = true → ¬ (p.1 ≤ i ∧ i < p.1 + p.2.1)) :
    OnlyParts [.regs] s (cmdState s m off puts) := by
  unfold cmdState; rw [hr]; dsimp only
  rw [typedWrite_takes hp ho hk fun i hi => testBit_withFields puts _ fun p hq => h p hq i hi]
  exact takeWord_only s r _ hm

/-! ### FAB_CMD (11 R286 to R288) -/

/-- The register FAB_CMD. -/
def fabCmdReg : Reg := ⟨0x2040, [⟨0, 1, .wo, 0x0⟩, ⟨1, 3, .rwg, 0x0⟩, ⟨4, 1, .rwg, 0x0⟩, ⟨5, 1, .rwg, 0x0⟩, ⟨16, 12, .rwg, 0x0⟩]⟩

theorem regAt_fabCmd : regAt Off.FAB_CMD = some fabCmdReg := by decide

theorem fabCmdReg_reserved : reservedMask fabCmdReg = 0xF000FFC0 := by decide

/-- The fields that a FAB_CMD row writes. -/
def fabPuts (ix c : Nat) (signed : Option Bool) (k : Bool) : List (Nat × Nat × Nat) :=
  [(0, 1, 1), (1, 3, ix), (5, 1, b2n k), (16, 12, c)] ++ match signed with
    | some b => [(4, 1, b2n b)]
    | none => []

theorem fabPuts_reserved (ix c : Nat) (signed : Option Bool) (k : Bool) :
    ∀ p ∈ fabPuts ix c signed k, ∀ i, (reservedMask fabCmdReg).testBit i = true → ¬ (p.1 ≤ i ∧ i < p.1 + p.2.1) := by
  have z : ∀ i < 32, (0xF000FFC0 : Nat).testBit i = true → 6 ≤ i ∧ i < 16 ∨ 28 ≤ i := by decide
  intro p hp i hi
  rw [fabCmdReg_reserved] at hi
  have l : ∀ p ∈ fabPuts ix c signed k, p.1 + p.2.1 ≤ 6 ∨ 16 ≤ p.1 ∧ p.1 + p.2.1 ≤ 28 := by cases signed <;> simp [fabPuts]
  have hl := l p hp
  by_cases h32 : i < 32
  · have := z i h32 hi; omega
  · omega

theorem bitOf_fld (v i : Nat) : bitOf v i = (fld v i 1 == 1) := rfl

/-- A field of FAB_CMD that a privileged write reaches reads as it was put. -/
theorem fld_fabCmd {s : State} {m : Master} (hp : privileged s m = true) (puts : List (Nat × Nat × Nat)) {lo w : Nat} (hw : lo + w ≤ 32)
    (h : ∀ i, i < w → (typeMask fabCmdReg fun t => t == .rw || t == .rwg).testBit (lo + i) = true)
    (h' : ∀ i, i < w → (reservedMask fabCmdReg).testBit (lo + i) = false) :
    fld (regWord (cmdState s m Off.FAB_CMD puts) Off.FAB_CMD) lo w = fld (withFields (regWord s Off.FAB_CMD) puts) lo w := by
  have e := regWord_cmdState (s := s) (m := m) puts regAt_fabCmd (by decide) (by decide)
  rw [keyOf_plain s m Off.FAB_CMD (by decide)] at e
  rw [e, fld_mod32 hw, fld_writtenWord hp hw h h']

theorem fld_fabPuts (v ix c : Nat) (signed : Option Bool) (k : Bool) :
    let w := withFields v (fabPuts ix c signed k)
    fld w 1 3 = ix % 2 ^ 3 ∧ fld w 16 12 = c % 2 ^ 12 ∧ fld w 5 1 = b2n k % 2 ^ 1 ∧ ∀ b, signed = some b → fld w 4 1 = b2n b % 2 ^ 1 := by
  cases signed <;> simp (disch := omega) [withFields, fabPuts, fld_putFld, fld_putFld_ne]

/-- FAB_CMD reads as its row has written it: operation, context, combinable and sign. -/
theorem fabCmd_fields {s : State} {m : Master} (hp : privileged s m = true) (ix c : Nat) (signed : Option Bool) (k : Bool) :
    let w := regWord (cmdState s m Off.FAB_CMD (fabPuts ix c signed k)) Off.FAB_CMD
    fld w 1 3 = ix % 2 ^ 3 ∧ fld w 16 12 = c % 2 ^ 12 ∧ bitOf w 5 = k ∧ ∀ b, signed = some b → bitOf w 4 = b := by
  have one : ∀ b : Bool, (b2n b % 2 ^ 1 == 1) = b := by decide
  obtain ⟨hix, hc, hk, hs⟩ := fld_fabPuts (regWord s Off.FAB_CMD) ix c signed k
  refine ⟨?_, ?_, ?_, fun b hb => ?_⟩
  · rw [fld_fabCmd hp _ (by decide) (by decide) (by decide), hix]
  · rw [fld_fabCmd hp _ (by decide) (by decide) (by decide), hc]
  · rw [bitOf_fld, fld_fabCmd hp _ (by decide) (by decide) (by decide), hk, one]
  · rw [bitOf_fld, fld_fabCmd hp _ (by decide) (by decide) (by decide), hs b hb, one]

/-- The body of a request of FAB_CMD: the data, behind the word to compare with for CMP_SWAP. -/
def fabBody (s : State) (op : Nat) : Bytes :=
  if op = 0x01 then [] else if op = 0x12 then putLe 8 (rpair s Off.FAB_CMD_CMP_LO) ++ putLe 8 (rpair s Off.FAB_CMD_DATA_LO)
  else putLe 8 (rpair s Off.FAB_CMD_DATA_LO)

/-- The request that FAB_CMD's registers spell for an operation. -/
def fabRequest (s : State) (op : Nat) (sg k : Bool) : Frame :=
  { op := op, flags := b2n k + 4 * b2n (sg && decide (0x13 ≤ op)), tc := 2, dst := fld (rpair s Off.FAB_CMD_ADDR_LO) 48 14,
    key := regWord s Off.FAB_CMD_KEY, size := 8, addr := rpair s Off.FAB_CMD_ADDR_LO, body := fabBody s op }

/-- A row of FAB_CMD: the number of its operation and the sign it writes, if any. -/
structure FabRow (ix op : Nat) (signed : Option Bool) (sg : Bool) : Prop where
  lt : ix < 2 ^ 3
  opcode : fabOpcode ix = op
  sign : 0x13 ≤ op → signed = some sg

/-- The commands of FAB_CMD with their operations. -/
def fabOps (m : Master) (c : Nat) (k sg : Bool) : List (Instr × Nat) :=
  [(.fabCmdLoad m c k, 0x01), (.fabCmdStore m c k, 0x02), (.fabCmdFetchAdd m c k, 0x10), (.fabCmdSwap m c k, 0x11), (.fabCmdCmpSwap m c k, 0x12),
    (.fabCmdFetchMin m c sg k, 0x13), (.fabCmdFetchMax m c sg k, 0x14)]

theorem fabOps_exec {m : Master} {c : Nat} {k sg : Bool} {i : Instr} {op : Nat} (h : (i, op) ∈ fabOps m c k sg) (s : State) :
    ∃ ix signed, FabRow ix op signed sg ∧ exec i s = .next (fabCmd m ix c signed k s) := by
  simp only [fabOps, List.mem_cons, Prod.mk.injEq, List.not_mem_nil, or_false] at h
  rcases h with ⟨rfl, rfl⟩ | ⟨rfl, rfl⟩ | ⟨rfl, rfl⟩ | ⟨rfl, rfl⟩ | ⟨rfl, rfl⟩ | ⟨rfl, rfl⟩ | ⟨rfl, rfl⟩
  · exact ⟨0, none, ⟨by decide, rfl, fun h => absurd h (by decide)⟩, rfl⟩
  · exact ⟨1, none, ⟨by decide, rfl, fun h => absurd h (by decide)⟩, rfl⟩
  · exact ⟨2, none, ⟨by decide, rfl, fun h => absurd h (by decide)⟩, rfl⟩
  · exact ⟨3, none, ⟨by decide, rfl, fun h => absurd h (by decide)⟩, rfl⟩
  · exact ⟨4, none, ⟨by decide, rfl, fun h => absurd h (by decide)⟩, rfl⟩
  · exact ⟨5, some sg, ⟨by decide, rfl, fun _ => rfl⟩, rfl⟩
  · exact ⟨6, some sg, ⟨by decide, rfl, fun _ => rfl⟩, rfl⟩

/-- A served write of FAB_CMD by a privileged master: nothing more while a command is under way, else the command is issued. -/
theorem fabCmd_eq {s : State} {m : Master} (hv : served s m Off.FAB_CMD = true) (hp : privileged s m = true) (ix c : Nat) (signed : Option Bool)
    (k : Bool) :
    let u := cmdState s m Off.FAB_CMD (fabPuts ix c signed k)
    fabCmd m ix c signed k s =
      if s.fab.busy then u else fabIssue { u with fab := { s.fab with busy := true, poison := false, combined := false } } := by
  have e : ∀ run, regCmd s m Off.FAB_CMD (fabPuts ix c signed k) run = run (cmdState s m Off.FAB_CMD (fabPuts ix c signed k)) :=
    fun run => regCmd_eq _ run hv hp (by decide)
  have w := (cmdState_written (s := s) (m := m) (off := Off.FAB_CMD) (fabPuts ix c signed k) hp (by decide) (by decide)).fab
  have l : fabCmd m ix c signed k s = regCmd s m Off.FAB_CMD (fabPuts ix c signed k) fun s =>
      if s.fab.busy then s else fabIssue { s with fab := { s.fab with busy := true, poison := false, combined := false } } := by
    cases signed <;> rfl
  rw [l, e]; dsimp only; rw [w]

/-- The state in which FAB_CMD issues the request `g` of context `c`. -/
structure Spelled (s v : State) (c : Nat) (k : Bool) (g : Frame) : Prop where
  only : OnlyParts [.regs, .fab] s v
  fab : v.fab = { s.fab with busy := true, poison := false, combined := false }
  ctx : fld (regWord v Off.FAB_CMD) 16 12 = c
  comb : bitOf (regWord v Off.FAB_CMD) 5 = k
  frame : fabFrame v = g
  route : ∀ dst, regWord v (rkey Off.FAB_ROUTE_PORTS dst) = regWord s (rkey Off.FAB_ROUTE_PORTS dst)
  node : nodeNum v = nodeNum s

/-- FAB_CMD's registers spell the request of the row that is written. -/
theorem fabCmd_spelled {s : State} {m : Master} {ix op c : Nat} {signed : Option Bool} {k sg : Bool} (hp : privileged s m = true) (hc : c < 4096)
    (h : FabRow ix op signed sg) :
    Spelled s { cmdState s m Off.FAB_CMD (fabPuts ix c signed k) with fab := { s.fab with busy := true, poison := false, combined := false } }
      c k (fabRequest s op sg k) := by
  obtain ⟨hix, hctx, hk, hs⟩ := fabCmd_fields hp ix c signed k
  have kp := keyOf_plain s m Off.FAB_CMD (by decide)
  have reg : ∀ j, j ≠ Off.FAB_CMD → regWord (cmdState s m Off.FAB_CMD (fabPuts ix c signed k)) j = regWord s j := fun j hj =>
    (cmdState_written (s := s) (m := m) (fabPuts ix c signed k) hp (by decide) (by decide)).reg j (by rw [kp]; exact hj)
  have o := cmdState_only (s := s) (m := m) (puts := fabPuts ix c signed k) regAt_fabCmd hp (by decide) (by decide)
    (by rw [fabCmdReg_reserved]; decide) (fabPuts_reserved ix c signed k)
  have pair : ∀ lo, lo ≠ Off.FAB_CMD → lo + 4 ≠ Off.FAB_CMD →
      rpair (cmdState s m Off.FAB_CMD (fabPuts ix c signed k)) lo = rpair s lo := fun lo h1 h2 => by
    unfold rpair; rw [reg lo h1, reg (lo + 4) h2]
  refine ⟨(o.mono (by decide)).trans ((only_fab _ _).mono (by decide)), rfl, ?_, hk, ?_, fun dst => reg _ ?_, ?_⟩
  · exact hctx.trans (Nat.mod_eq_of_lt hc)
  · have hop : fabOpcode (fld (regWord (cmdState s m Off.FAB_CMD (fabPuts ix c signed k)) Off.FAB_CMD) 1 3) = op := by
      rw [hix, Nat.mod_eq_of_lt h.lt, h.opcode]
    have hsg : (bitOf (regWord (cmdState s m Off.FAB_CMD (fabPuts ix c signed k)) Off.FAB_CMD) 4 && decide (0x13 ≤ op)) =
        (sg && decide (0x13 ≤ op)) := by
      by_cases ho : 0x13 ≤ op
      · rw [hs sg (h.sign ho)]
      · rw [decide_eq_false ho, Bool.and_false, Bool.and_false]
    show fabFrame (cmdState s m Off.FAB_CMD (fabPuts ix c signed k)) = _
    unfold fabFrame; dsimp only
    rw [hop, hk, hsg, pair _ (by decide) (by decide), pair _ (by decide) (by decide), pair _ (by decide) (by decide), reg _ (by decide)]
    rfl
  · unfold rkey Off.FAB_ROUTE_PORTS Off.FAB_CMD; omega
  · exact congrArg (fun w => fld w 0 14) (reg Off.FAB_NODE (by decide))

theorem issueReq_some {s w : State} {c tag : Nat} {g : Frame} (ht : freeTag s = some tag) (hw : sendFrame s c { g with rtag := tag } = some w) :
    issueReq s c .fabCmd g = some { w with fab :=
      { w.fab with nextTag := (tag + 1) % 65536, reqs := tput w.fab.reqs tag { ctx := c, target := g.dst, addr := g.addr, op := g.op } } } := by
  unfold issueReq; simp only [ht, hw, Option.map_none, Option.getD_none]

theorem issueReq_none {s : State} {c tag : Nat} {g : Frame} (ht : freeTag s = some tag) (hw : sendFrame s c { g with rtag := tag } = none) :
    issueReq s c .fabCmd g = none := by
  unfold issueReq; simp only [ht, hw]

section Issue
variable {s v : State} {c : Nat} {k : Bool} {g : Frame} (h : Spelled s v c k g)
include h

/-- FAB_CMD refuses to combine what may not be combined (R283). -/
theorem fabIssue_combine (hk : k = true) (hc : combines g.op = false) : fabIssue v = fabEnd v St.COMBINE_INVALID := by
  unfold fabIssue; dsimp only; rw [h.comb, h.frame, hk, hc]; rfl

theorem fabIssue_checked (hk : k = true → combines g.op = true) :
    fabIssue v = if (ctxOf s c).quiesced then fabEnd v St.CONTEXT_QUIESCED
      else (issueReq v c .fabCmd g).getD (raise (fabEnd v St.NO_ROUTE) Off.FAB_STATUS 4) := by
  have hsec : v.sec = s.sec := h.only .sec (by decide)
  have hc : (k && !combines g.op) = false := by cases k <;> simp_all
  have hq : ctxOf v c = ctxOf s c := by unfold ctxOf; rw [hsec]
  unfold fabIssue; dsimp only; rw [h.comb, h.frame, h.ctx, hc, hq, if_neg Bool.false_ne_true]
  cases issueReq v c .fabCmd g <;> rfl

/-- FAB_CMD refuses a context that is quiesced (R287). -/
theorem fabIssue_quiesced (hk : k = true → combines g.op = true) (hq : (ctxOf s c).quiesced = true) : fabIssue v = fabEnd v St.CONTEXT_QUIESCED := by
  rw [fabIssue_checked h hk, if_pos hq]

theorem Spelled.flowPort (dst tc : Nat) : flowPort v c dst tc = flowPort s c dst tc :=
  flowPort_congr (h.route dst) (h.only .ports (by decide)) (congrArg Egr.flows (h.only .egr (by decide))) c tc

theorem Spelled.freeTag : freeTag v = freeTag s := by unfold Machine.freeTag; rw [h.fab]

/-- FAB_CMD ends where its target has no route (11 R275). -/
theorem fabIssue_noRoute (hk : k = true → combines g.op = true) (hq : (ctxOf s c).quiesced = false) {tag : Nat} (ht : freeTag s = some tag)
    (hr : flowPort s c g.dst g.tc = none) : fabIssue v = raise (fabEnd v St.NO_ROUTE) Off.FAB_STATUS 4 := by
  have hs : sendFrame v c { g with rtag := tag } = none := (sendFrame_spec v c { g with rtag := tag } none).1 ((h.flowPort ..).trans hr)
  rw [fabIssue_checked h hk, hq, if_neg Bool.false_ne_true, issueReq_none (h.freeTag.trans ht) hs, Option.getD_none]

/-- FAB_CMD's request leaves on its flow's port and is outstanding under its tag. -/
theorem fabIssue_sent (hk : k = true → combines g.op = true) (hq : (ctxOf s c).quiesced = false) {tag : Nat} (ht : freeTag s = some tag)
    {q n : Nat} (hr : flowPort s c g.dst g.tc = some q) (hn : sessionOf (portOf s q) c = some n) :
    let t := fabIssue v
    OnlyParts [.regs, .egr, .fab] s t ∧ t.fab.busy = true ∧ t.fab.poison = false ∧ t.fab.combined = false ∧
      tfind t.fab.reqs tag = some { ctx := c, target := g.dst, addr := g.addr, op := g.op } ∧
      (∀ j, j ≠ tag → tfind t.fab.reqs j = tfind s.fab.reqs j) ∧
      classFrames (eport t q) g.tc = classFrames (eport s q) g.tc ++
        [{ ctx := c, frame := { g with rtag := tag, src := nodeNum s, session := n } }] := by
  have hp : portOf v q = portOf s q := congrArg (fun ps : Tbl Port => tget ({} : Port) ps q) (h.only .ports (by decide))
  have he : eport v q = eport s q := congrArg (fun e : Egr => tget ({} : EPort) e.ports q) (h.only .egr (by decide))
  obtain ⟨w, hw, hcls, -, -, hrest⟩ := (sendFrame_spec v c { g with rtag := tag } none).2 q n ((h.flowPort ..).trans hr) (hp ▸ hn)
  have hf : w.fab = v.fab := (congrArg State.fab hrest : _)
  have wo : OnlyParts [.egr] v w := by
    have e : { v with egr := w.egr } = w := by rw [← hrest]
    exact e ▸ only_egr v w.egr
  rw [fabIssue_checked h hk, hq, if_neg Bool.false_ne_true, issueReq_some (h.freeTag.trans ht) hw, Option.getD_some, hf, h.fab]
  refine ⟨((h.only.mono (by decide)).trans (wo.mono (by decide))).trans ((only_fab w _).mono (by decide)), rfl, rfl, rfl,
    tfind_tput_self .., fun j hj => tfind_tput_ne _ _ hj, ?_⟩
  rw [← he, ← h.node]; exact hcls

end Issue

/-! ### What resumed merges and commands leave of the contexts (11 R287) -/

theorem sendFrame_sec {s t : State} {c : Nat} {f : Frame} {r : Option Nat} (h : sendFrame s c f r = some t) : t.sec = s.sec := by
  unfold sendFrame at h; split at h
  · cases h
  · split at h
    · cases h
    · cases h; rfl

theorem issueReq_sec {s t : State} {c : Nat} {src : ReqSrc} {f : Frame} {u : Option (Nat × Nat)} (h : issueReq s c src f u = some t) :
    t.sec = s.sec := by
  unfold issueReq at h; split at h
  · cases h; rfl
  · split at h
    · cases h
    · rename_i e; cases h; exact (sendFrame_sec e :)

theorem fabIssue_sec (s : State) : (fabIssue s).sec = s.sec := by
  unfold fabIssue; dsimp only
  split
  · rfl
  · split
    · rfl
    · split
      · rename_i e; exact issueReq_sec e
      · exact raise_sec ..

theorem attnEvent_sec (s : State) (k bit : Nat) : (attnEvent s k bit).sec = s.sec := raise_sec ..

theorem placeRec_sec (s : State) (t : Step) (e : MergeEntry) (x : RimSlot) : (placeRec s t e x).sec = s.sec := by
  unfold placeRec; dsimp only
  split
  · exact attnEvent_sec ..
  · split <;> rfl

theorem putStep_sec (s : State) (t : Step) : (putStep s t).sec = s.sec := rfl

theorem placeQueued_sec (s : State) (id : Nat) : (placeQueued s id).sec = s.sec := by
  unfold placeQueued; split
  · rfl
  · refine foldl_keep (·.sec) _ (fun u x => ?_) _ _
    split
    · rfl
    · split
      · rfl
      · split
        · exact placeRec_sec ..
        · rfl

theorem countMerges_sec (s : State) (e : MergeEntry) (n : Nat) : (countMerges s e n).sec = s.sec := by
  unfold countMerges
  exact foldl_keep (·.sec) (fun s c => count s (ckey (Off.ATTN_CNT_LO e.die) 5 (4 * e.cluster + c)) n) (fun _ _ => rfl) _ _

theorem runInner_sec (s : State) (id si : Nat) (e : MergeEntry) : (runInner s id si e).sec = s.sec := by
  unfold runInner; split
  · rfl
  · dsimp only; split
    · rfl
    · rw [putStep_sec, countMerges_sec]

theorem advanceMerges_sec (s : State) (id : Nat) : (advanceMerges s id).sec = s.sec := by
  unfold advanceMerges; dsimp only; split
  · exact placeQueued_sec ..
  · rw [foldl_keep (·.sec) _ (fun _ _ => runInner_sec ..)]; exact placeQueued_sec ..

theorem shadowCompare_sec (s : State) (a b : Partial) : (shadowCompare s a b).sec = s.sec := by
  unfold shadowCompare; dsimp only; (repeat' split) <;> simp

theorem shadowTake_sec (s : State) (own : Bool) (tag attempt head : Nat) (p : Partial) : (shadowTake s own tag attempt head p).sec = s.sec := by
  unfold shadowTake; dsimp only; (repeat' split) <;> first | rfl | exact shadowCompare_sec ..

theorem shadowOutput_sec (s : State) (t : Step) (e : MergeEntry) (si : Nat) (p : Partial) : (shadowOutput s t e si p).sec = s.sec := by
  unfold shadowOutput; dsimp only; split
  · rfl
  · split
    · exact shadowTake_sec ..
    · rfl

theorem storeResult_sec (s : State) (t : Step) (cluster a : Nat) (data : Bytes) : (storeResult s t cluster a data).sec = s.sec := by
  unfold storeResult; dsimp only
  refine foldl_keep (·.sec) _ (fun u x => ?_) _ _
  split
  · rename_i e; exact issueReq_sec e
  · split <;> rfl

theorem hostOut_sec (s : State) (d : Desc) (addr : Nat) (data : Bytes) (relaxed : Bool) : (hostOut s d addr data relaxed).sec = s.sec := by
  unfold hostOut; split
  · rfl
  · exact emitAs_sec ..

/-- A result stays in a spare, or goes out as stores or to the host. -/
theorem resultOut_sec (s : State) (t : Step) (shadow stores : Bool) (cluster a : Nat) (data : Bytes) :
    (if shadow then s else if stores then storeResult s t cluster a data else hostOut s t.desc a data true).sec = s.sec := by
  split
  · rfl
  · split
    · exact storeResult_sec ..
    · exact hostOut_sec ..

theorem writeResult_sec (s : State) (t : Step) (e : MergeEntry) (si : Nat) (p : Partial) : (writeResult s t e si p).sec = s.sec := by
  unfold writeResult; dsimp only
  rw [resultOut_sec]; split <;> rfl

theorem sendUnsent_sec (s : State) (t : Step) : (sendUnsent s t).sec = s.sec := by
  have k : ∀ (fs : List Frame) (st : List Frame × State), (fs.foldl (fun (st : List Frame × State) f =>
      if f.dst ≥ 2 ^ 14 then (st.1 ++ [f], st.2)
      else match sendFrame st.2 t.ctx f with
        | some s' => (st.1, s')
        | none => (st.1 ++ [f], st.2)) st).2.sec = st.2.sec := by
    intro fs
    induction fs with
    | nil => intro st; rfl
    | cons f fs ih =>
      intro st; rw [List.foldl_cons, ih]
      split
      · rfl
      · split
        · rename_i e; exact sendFrame_sec e
        · rfl
  unfold sendUnsent; dsimp only
  split
  · exact k t.unsent ([], s)
  · exact k t.unsent ([], s)

theorem sendPartial_sec (s : State) (t : Step) (rank : Nat) (p : Partial) (head slot level : Nat) :
    (sendPartial s t rank p head slot level).sec = s.sec := by
  unfold sendPartial; dsimp only; split
  · rfl
  · split
    · rfl
    · exact sendUnsent_sec ..

theorem queueRec_sec (s : State) (t : Step) (e : MergeEntry) (x : RimSlot) : (queueRec s t e x).sec = s.sec := by
  unfold queueRec; split <;> rfl

theorem deliver_sec (s : State) (t : Step) (si head : Nat) (src : PartSrc) (p : Partial) : (deliver s t si head src p).sec = s.sec := by
  unfold deliver
  refine foldl_keep (·.sec) _ (fun u x => ?_) _ _
  dsimp only
  split
  · split
    · rfl
    · exact queueRec_sec ..
  · exact sendPartial_sec ..

theorem runMerge_sec (s : State) (t : Step) (si : Nat) (e : MergeEntry) : (runMerge s t si e).sec = s.sec := by
  unfold runMerge; dsimp only; split
  · rw [writeResult_sec, shadowOutput_sec]; rfl
  · rw [deliver_sec, shadowOutput_sec]; rfl

theorem runMerges_sec : ∀ (fuel : Nat) (s : State) (id : Nat), (runMerges fuel s id).sec = s.sec
  | 0, _, _ => rfl
  | fuel + 1, s, id => by
    unfold runMerges; dsimp only; split
    · rfl
    · split
      · exact advanceMerges_sec ..
      · split
        · exact advanceMerges_sec ..
        · rw [runMerges_sec fuel, runMerge_sec, advanceMerges_sec]

theorem settleMerges_sec (s : State) (id : Nat) : (settleMerges s id).sec = s.sec := by
  unfold settleMerges; split
  · rfl
  · split
    · exact runMerges_sec ..
    · rfl

theorem fabResume_sec (s : State) : (fabResume s).sec = s.sec := by
  unfold fabResume resumeMerges; dsimp only
  rw [foldl_keep (·.sec) _ settleMerges_sec]
  split
  · exact fabIssue_sec s
  · rfl

/-! ### The end of a quiesce (11 R287) -/

/-- The register FAB_QUIESCE. -/
def fabQuiesceReg : Reg := ⟨0x2020, [⟨0, 1, .ro, 0x0⟩, ⟨1, 1, .rwg, 0x0⟩, ⟨16, 16, .ro, 0x0⟩]⟩

theorem regAt_fabQuiesce : regAt Off.FAB_QUIESCE = some fabQuiesceReg := by decide

theorem releaseQuiesce_waits {s : State} {c : Nat} (h : 0 < outstanding s fun r => r.ctx == c) : releaseQuiesce s c = s := by
  unfold releaseQuiesce; simp [h]

theorem releaseQuiesce_ends {s : State} {c : Nat} (hq : (ctxOf s c).quiesced = true) (h : outstanding s (fun r => r.ctx == c) = 0) :
    releaseQuiesce s c = fabResume (setCtx s c { ctxOf s c with quiesced := false }) := by
  unfold releaseQuiesce; simp [h, hq]

/-- A served release of a privileged master acts on the context that its selector names, in a state with other registers alone. -/
theorem quiesceRelease_eq {s : State} {m : Master} (hv : served s m Off.FAB_QUIESCE = true) (hp : privileged s m = true) :
    ∃ u, OnlyParts [.regs] s u ∧ quiesceRelease m s = releaseQuiesce u (selNum s m Off.FAB_QUIESCE_SEL) := by
  have e := regCmd_eq [(1, 1, 1)] (fun s => releaseQuiesce (regPut s (keyOf s m Off.FAB_QUIESCE) (putFld (regWord s (keyOf s m Off.FAB_QUIESCE)) 1 1 0))
    (selNum s m Off.FAB_QUIESCE_SEL)) hv hp (by decide)
  have z : ∀ i < 32, (0xFFFC : Nat).testBit i = true → ¬ (1 ≤ i ∧ i < 2) := by decide
  have o : OnlyParts [.regs] s (cmdState s m Off.FAB_QUIESCE [(1, 1, 1)]) :=
    cmdState_only regAt_fabQuiesce hp (by decide) (by decide) (by decide) fun p hq i hi => by
      rw [List.mem_singleton] at hq; subst hq; dsimp only
      rw [show reservedMask fabQuiesceReg = 0xFFFC by decide] at hi
      rintro ⟨h1, h2⟩; exact z i (by omega) hi ⟨h1, h2⟩
  have w := cmdState_written (s := s) (m := m) (off := Off.FAB_QUIESCE) [(1, 1, 1)] hp (by decide) (by decide)
  have n : selNum (cmdState s m Off.FAB_QUIESCE [(1, 1, 1)]) m Off.FAB_QUIESCE_SEL = selNum s m Off.FAB_QUIESCE_SEL := by
    unfold selNum; rw [selWord_congr w.selPcie w.selSb]
  rw [n] at e
  exact ⟨_, o.trans (only_regs _ _), e⟩

/-- A release ends the quiesce of a context without outstanding requests, and no other's. -/
theorem release_completes {s : State} {m : Master} (hv : served s m Off.FAB_QUIESCE = true) (hp : privileged s m = true)
    (hq : (ctxOf s (selNum s m Off.FAB_QUIESCE_SEL)).quiesced = true)
    (ho : outstanding s (fun r => r.ctx == selNum s m Off.FAB_QUIESCE_SEL) = 0) :
    Completes (.quiesceRelease m) s fun t => (ctxOf t (selNum s m Off.FAB_QUIESCE_SEL)).quiesced = false ∧
      ∀ j, j ≠ selNum s m Off.FAB_QUIESCE_SEL → (ctxOf t j).quiesced = (ctxOf s j).quiesced := by
  obtain ⟨u, hu, e⟩ := quiesceRelease_eq hv hp
  generalize selNum s m Off.FAB_QUIESCE_SEL = c at *
  have hc : ∀ j, ctxOf u j = ctxOf s j := fun j => congrArg (fun x : Sec => tget ({} : Ctx) x.ctxs j) (hu .sec (by decide))
  have hf : u.fab = s.fab := hu .fab (by decide)
  have ho' : outstanding u (fun r => r.ctx == c) = 0 := by unfold outstanding; rw [hf]; exact ho
  have ht : ∀ j, ctxOf (quiesceRelease m s) j = ctxOf (setCtx u c { ctxOf u c with quiesced := false }) j := fun j => by
    rw [e, releaseQuiesce_ends ((hc c).symm ▸ hq) ho']
    exact congrArg (fun x : Sec => tget ({} : Ctx) x.ctxs j) (fabResume_sec _)
  refine ⟨_, rfl, by rw [ht, ctxOf_setCtx], fun j hj => by rw [ht, ctxOf_setCtx_ne u _ hj, hc]⟩

/-- One with requests outstanding changes the registers alone. -/
theorem release_waits {s : State} {m : Master} (hv : served s m Off.FAB_QUIESCE = true) (hp : privileged s m = true)
    (ho : 0 < outstanding s (fun r => r.ctx == selNum s m Off.FAB_QUIESCE_SEL)) :
    Completes (.quiesceRelease m) s fun t => OnlyParts [.regs] s t := by
  obtain ⟨u, hu, e⟩ := quiesceRelease_eq hv hp
  generalize selNum s m Off.FAB_QUIESCE_SEL = c at *
  have hf : u.fab = s.fab := hu .fab (by decide)
  refine ⟨_, rfl, ?_⟩
  rw [e, releaseQuiesce_waits (by unfold outstanding; rw [hf]; exact ho)]
  exact hu

/-! ### The command registers (11 R286 to R288) -/

/-- What a command that is refused locally leaves. -/
theorem Spelled.refused {s v : State} {c : Nat} {k : Bool} {g : Frame} (h : Spelled s v c k g) (st : Nat) :
    (fabEnd v st).egr = s.egr ∧ (fabEnd v st).fab.reqs = s.fab.reqs ∧ (fabEnd v st).fab.busy = false ∧ (fabEnd v st).fab.status = st := by
  have hr : v.fab.reqs = s.fab.reqs := by rw [h.fab]
  exact ⟨h.only .egr (by decide), hr, rfl, rfl⟩

section Command
variable {s : State} {m : Master} {c : Nat} {k sg : Bool} {i : Instr} {op : Nat} (hv : served s m Off.FAB_CMD = true)
  (hp : privileged s m = true) (hm : (i, op) ∈ fabOps m c k sg)
include hv hp hm

/-- While a command is under way another is ignored. -/
theorem fabCmd_busy (hb : s.fab.busy = true) : Completes i s fun t => t.fab = s.fab ∧ t.egr = s.egr := by
  obtain ⟨ix, signed, -, hx⟩ := fabOps_exec hm s
  have w := cmdState_written (s := s) (m := m) (off := Off.FAB_CMD) (fabPuts ix c signed k) hp (by decide) (by decide)
  refine ⟨_, hx, ?_⟩
  rw [fabCmd_eq hv hp, if_pos hb]
  exact ⟨w.fab, w.egr⟩

variable (hc : c < 4096) (hb : s.fab.busy = false)
include hc hb

/-- A command that starts issues the request that its registers spell. -/
theorem fabCmd_starts : ∃ v, Spelled s v c k (fabRequest s op sg k) ∧ exec i s = .next (fabIssue v) := by
  obtain ⟨ix, signed, hrow, hx⟩ := fabOps_exec hm s
  refine ⟨_, fabCmd_spelled hp hc hrow, ?_⟩
  rw [hx, fabCmd_eq hv hp, if_neg (by rw [hb]; decide)]

theorem fabCmd_combine (hk : k = true) (ho : combines op = false) : Completes i s fun t =>
    t.egr = s.egr ∧ t.fab.reqs = s.fab.reqs ∧ t.fab.busy = false ∧ t.fab.status = St.COMBINE_INVALID := by
  obtain ⟨v, h, hx⟩ := fabCmd_starts hv hp hm hc hb
  refine ⟨_, hx, ?_⟩
  rw [fabIssue_combine h hk ho]; exact h.refused _

variable (hk : k = true → combines op = true)
include hk

theorem fabCmd_quiesced (hq : (ctxOf s c).quiesced = true) : Completes i s fun t =>
    t.egr = s.egr ∧ t.fab.reqs = s.fab.reqs ∧ t.fab.busy = false ∧ t.fab.status = St.CONTEXT_QUIESCED := by
  obtain ⟨v, h, hx⟩ := fabCmd_starts hv hp hm hc hb
  refine ⟨_, hx, ?_⟩
  rw [fabIssue_quiesced h hk hq]; exact h.refused _

variable (hq : (ctxOf s c).quiesced = false) {tag : Nat} (ht : freeTag s = some tag)
include hq ht

theorem fabCmd_noRoute (hr : flowPort s c (fld (rpair s Off.FAB_CMD_ADDR_LO) 48 14) 2 = none) : Completes i s fun t =>
    t.egr = s.egr ∧ t.fab.reqs = s.fab.reqs ∧ t.fab.busy = false ∧ t.fab.status = St.NO_ROUTE ∧
      (statusOf t Off.FAB_STATUS).hi.getLsbD 2 = true := by
  obtain ⟨v, h, hx⟩ := fabCmd_starts hv hp hm hc hb
  obtain ⟨h1, h2, h3, h4⟩ := h.refused St.NO_ROUTE
  refine ⟨_, hx, ?_⟩
  rw [fabIssue_noRoute h hk hq ht hr]; dsimp only; rw [raise_egr, raise_fab]
  exact ⟨h1, h2, h3, h4, raise_flag _ _ 2 [] (by omega) (by simp)⟩

/-- A command's request leaves on its flow's port and is outstanding. -/
theorem fabCmd_sent {q n : Nat} (hr : flowPort s c (fld (rpair s Off.FAB_CMD_ADDR_LO) 48 14) 2 = some q)
    (hn : sessionOf (portOf s q) c = some n) : Completes i s fun t =>
      OnlyParts [.regs, .egr, .fab] s t ∧ t.fab.busy = true ∧ t.fab.poison = false ∧ t.fab.combined = false ∧
        tfind t.fab.reqs tag =
          some { ctx := c, target := fld (rpair s Off.FAB_CMD_ADDR_LO) 48 14, addr := rpair s Off.FAB_CMD_ADDR_LO, op := op } ∧
        (∀ j, j ≠ tag → tfind t.fab.reqs j = tfind s.fab.reqs j) ∧
        classFrames (eport t q) 2 = classFrames (eport s q) 2 ++
          [{ ctx := c, frame := { fabRequest s op sg k with rtag := tag, src := nodeNum s, session := n } }] := by
  obtain ⟨v, h, hx⟩ := fabCmd_starts hv hp hm hc hb
  exact ⟨_, hx, fabIssue_sent h hk hq ht hr hn⟩

end Command

/-- The commands of FAB_CMD with the bodies of their requests. -/
theorem fabOps_mem {m : Master} {c : Nat} {k sg : Bool} {s : State} {i : Instr} {op : Nat} {body : Bytes}
    (h : (i, op, body) ∈ [(Instr.fabCmdLoad m c k, 0x01, []), (.fabCmdStore m c k, 0x02, putLe 8 (rpair s Off.FAB_CMD_DATA_LO)),
      (.fabCmdFetchAdd m c k, 0x10, putLe 8 (rpair s Off.FAB_CMD_DATA_LO)), (.fabCmdSwap m c k, 0x11, putLe 8 (rpair s Off.FAB_CMD_DATA_LO)),
      (.fabCmdCmpSwap m c k, 0x12, putLe 8 (rpair s Off.FAB_CMD_CMP_LO) ++ putLe 8 (rpair s Off.FAB_CMD_DATA_LO)),
      (.fabCmdFetchMin m c sg k, 0x13, putLe 8 (rpair s Off.FAB_CMD_DATA_LO)),
      (.fabCmdFetchMax m c sg k, 0x14, putLe 8 (rpair s Off.FAB_CMD_DATA_LO))]) :
    (i, op) ∈ fabOps m c k sg ∧ body = fabBody s op := by
  simp only [List.mem_cons, Prod.mk.injEq, List.not_mem_nil, or_false] at h
  rcases h with ⟨rfl, rfl, rfl⟩ | ⟨rfl, rfl, rfl⟩ | ⟨rfl, rfl, rfl⟩ | ⟨rfl, rfl, rfl⟩ | ⟨rfl, rfl, rfl⟩ | ⟨rfl, rfl, rfl⟩ | ⟨rfl, rfl, rfl⟩ <;>
    exact ⟨by simp [fabOps], rfl⟩

/-- Settles O57: a request's access and its answer are each one lemma over the request (`target_done`, `respond_cases`), a response and a
timeout one over the request's source, and a command of FAB_CMD issues the frame that its registers spell (`Spelled`). -/
theorem fabric : Obligations.Fabric := by
  unfold Obligations.Fabric
  intro s event
  refine ⟨?_, ?_, ?_⟩
  · intro ha p c f k off resumed atomics reads reqs lost answered inFlight others admitted passes
    refine ⟨fun ecc hl h => load_completes ha hl h, fun h => store_completes ha h, fun ecc i op hl hm h => ?_,
      fun i op resp hm h hl hn => ?_, fun ecc i op resp hm => ?_⟩
    · obtain ⟨hx, hop⟩ := atomicReqs_exec hm s
      have g := atomic_completes ha hx hop hl h
      simp only [atomicNew_eq] at g
      exact g
    · obtain ⟨run, hx⟩ := readReqs_exec hm s
      exact lost_completes ha hx h hl hn
    · obtain ⟨ecc', run, hx⟩ := fabricReqs_exec hm s
      exact ⟨fun h hc hw => held_completes ha hx h hc hw, fun st h hc => fails_completes ha hx h hc, fun hr hctx =>
        ⟨fun hf => fenced_completes ha hx hr hctx hf, fun hf hp hn => policed_completes ha hx hr hctx hf hp hn⟩⟩
  · intro ha
    refine ⟨fun f i op hm => ?_, fun tag r hr => ⟨fun hh hs => timeout_completes ha hr hh hs, fun hh ht => holdExpiry_completes ha hr hh ht⟩⟩
    obtain ⟨fits, hop, hx⟩ := responseOps_exec hm s
    refine ⟨fun r hr hh ho ht => ?_, fun h => late_completes ha hx h⟩
    subst ho
    exact ⟨fun hd => dropped_completes ha hx hr hh hop ht hd, fun hd hk => ended_completes ha hx hr hh hop ht hd hk,
      fun hd hk hs => fencedResponse_completes ha hx hr hh hop ht hd hk hs⟩
  · intro m
    refine ⟨fun c k sg hc hv hp => ?_, fun hv hp hq => ⟨fun ho => release_completes hv hp hq ho, fun ho => release_waits hv hp ho⟩⟩
    intro a data i op body hm
    obtain ⟨hop, rfl⟩ := fabOps_mem hm
    refine ⟨fun hb => fabCmd_busy hv hp hop hb, fun hb => ⟨fun hk ho => fabCmd_combine hv hp hop hc hb hk ho, fun hk =>
      ⟨fun hq => fabCmd_quiesced hv hp hop hc hb hk hq, fun hq tag ht => ⟨fun hr => fabCmd_noRoute hv hp hop hc hb hk hq ht hr,
        fun q n hr hn => fabCmd_sent hv hp hop hc hb hk hq ht hr hn⟩⟩⟩⟩

end Sys2Proof.Machine
end

/-!
Proofs. The range check of REGISTER (12 R302; 03 R50): O58.

R50 numbers 2^25 frames of a board channel, but a state may say that a channel holds more. The run of frames that `rangeOk` takes for
existing then reaches into the next channel, and REGISTER accepts a range with frames that do not exist. In order: what `rangeOk` and
REGISTER do with such a range, and a node on which they do it.
-/
section
namespace Sys2Proof.Machine
open Sys2Proof

/-! ### The range of a region (12 R302) -/

/-- A range that ends before the run of its first frame does passes, whatever the run's other frames are. -/
theorem rangeOk_of_lt_runEnd {s : State} {lo hi : Nat} (k : Nat) (h : pfnOk s lo = true) (hr : hi < runEnd s lo) :
    rangeOk s hi (k + 1) lo = true := by
  rw [rangeOk, h, decide_eq_true hr]; rfl

theorem rangeOk_congr {s u : State} (h : u.mem = s.mem) (hi : Nat) : ∀ k lo, rangeOk u hi k lo = rangeOk s hi k lo
  | 0, _ => rfl
  | k + 1, lo => by
    have hc : ∀ n, channelFrames u n = channelFrames s n := fun n => by unfold channelFrames; rw [h]
    have hp : pfnOk u lo = pfnOk s lo := by unfold pfnOk; rw [hc]
    have he : runEnd u lo = runEnd s lo := by unfold runEnd; rw [hc]
    rw [rangeOk, rangeOk, hp, he, rangeOk_congr h hi k]

/-! ### REGISTER (12 R302) -/

/-- REGISTER with a FREE index and a range that `rangeOk` passes answers OK. -/
theorem register_accepts {s : State} {m : Master} {i : Nat} (hv : served s m Off.QPE_REG_CMD = true) (hp : privileged s m = true)
    (hf : lowest (regionCount s) (fun i => (regionEnt s i).st == .free) = some i) (hl : regPair48 s Off.QPE_REG_LEN_LO ≠ 0)
    (hr : rangeOk s ((regPair48 s Off.QPE_REG_BASE_LO + regPair48 s Off.QPE_REG_LEN_LO - 1) / 16384) 64
      (regPair48 s Off.QPE_REG_BASE_LO / 16384) = true) :
    Completes (.register m) s fun t => t.qpe.regStatus = St.OK := by
  have w := cmdState_written (s := s) (m := m) (off := Off.QPE_REG_CMD) [(0, 1, 1), (1, 1, 0)] hp (by decide) (by decide)
  refine ⟨_, rfl, ?_⟩
  unfold register
  rw [regCmd_eq _ _ hv hp (by decide)]
  generalize cmdState s m Off.QPE_REG_CMD [(0, 1, 1), (1, 1, 0)] = u at w
  have hw : ∀ j, j ≠ Off.QPE_REG_CMD → regWord u j = regWord s j := fun j hj => w.reg j (by rwa [keyOf_plain s m _ (by decide)])
  have hn : regionCount u = regionCount s := by
    unfold regionCount rf; rw [hw Off.QPE_REGION_BASE (by decide), hw Off.QPE_REGION_COUNT (by decide)]
  have hb : regPair48 u Off.QPE_REG_BASE_LO = regPair48 s Off.QPE_REG_BASE_LO := by
    unfold regPair48 rpair; rw [hw _ (by decide), hw _ (by decide)]
  have hl' : regPair48 u Off.QPE_REG_LEN_LO = regPair48 s Off.QPE_REG_LEN_LO := by
    unfold regPair48 rpair; rw [hw _ (by decide), hw _ (by decide)]
  have he : ∀ i, regionEnt u i = regionEnt s i := fun i => by unfold regionEnt; rw [w.fab]
  simp only [hn, hb, hl', he, hf, rangeOk_congr w.mem, hr, hl, Bool.not_true, decide_false, Bool.or_self, Bool.false_eq_true, if_false]
  rfl

/-! ### A node that says more of a channel than R50 numbers -/

/-- A node in RUN whose board channel 0 says 513 GiB, where R50 numbers 512 GiB of a channel, and whose channel 1 is empty. Its region
table has one entry, FREE, and its registers name a region of two frames: the last one of channel 0 and the first one of channel 1. -/
def overfullNode : State :=
  let s := { State.reset with pins := { por := true, perst := true }, boot := { st := .run }, mem := { gib := [(0, 513)] } }
  let s := regPut (regPut s Off.QPE_REGION_BASE 0x10000000) Off.QPE_REGION_COUNT 1
  regPut (regPut (regPut s Off.QPE_REG_BASE_LO 0xFFFFC000) Off.QPE_REG_BASE_HI 0x47F) Off.QPE_REG_LEN_LO 0x8000

theorem overfullNode_base : regPair48 overfullNode Off.QPE_REG_BASE_LO = 0x11FFFFFF * 16384 := by decide

theorem overfullNode_len : regPair48 overfullNode Off.QPE_REG_LEN_LO = 2 * 16384 := by decide

theorem overfullNode_served : served overfullNode .sideband Off.QPE_REG_CMD = true := by decide

theorem overfullNode_lowest : lowest (regionCount overfullNode) (fun i => (regionEnt overfullNode i).st == .free) = some 0 := by decide

/-- The second frame of the region does not exist: its channel is empty. -/
theorem overfullNode_missing : pfnOk overfullNode 0x12000000 = false := by decide

/-- REGISTER accepts the region all the same. -/
theorem overfullNode_registers : Completes (.register .sideband) overfullNode fun t => t.qpe.regStatus = St.OK := by
  refine register_accepts overfullNode_served rfl overfullNode_lowest (by rw [overfullNode_len]; decide) ?_
  rw [overfullNode_base, overfullNode_len]
  exact rangeOk_of_lt_runEnd 63 (by decide) (by decide)

/-- Refutes O58: REGISTER has to answer PFN_INVALID for a range with a frame that does not exist, but the model's check of the range
takes a channel's frames on past the 2^25 that R50 numbers of it, and the statement's states are not kept to channels of 512 GiB: of
`overfullNode` it accepts a region whose second frame lies in an empty channel. -/
theorem not_queuePairs : ¬ Obligations.QueuePairs := by
  unfold Obligations.QueuePairs
  intro h
  obtain ⟨-, hregister, -⟩ := h overfullNode
  obtain ⟨-, hindex, -⟩ := hregister .sideband overfullNode_served rfl
  obtain ⟨hrefused, -⟩ := hindex 0 (by decide) fun j hj => absurd hj (Nat.not_lt_zero j)
  have missing : ∃ q, regPair48 overfullNode Off.QPE_REG_BASE_LO / 16384 ≤ q ∧
      q ≤ (regPair48 overfullNode Off.QPE_REG_BASE_LO + regPair48 overfullNode Off.QPE_REG_LEN_LO - 1) / 16384 ∧ pfnOk overfullNode q = false := by
    rw [overfullNode_base, overfullNode_len]
    exact ⟨0x12000000, by decide, by decide, overfullNode_missing⟩
  obtain ⟨t, ht, -, invalid⟩ := hrefused (.inr missing)
  obtain ⟨u, hu, ok⟩ := overfullNode_registers
  obtain rfl : t = u := Host.Outcome.next.inj (ht.symm.trans hu)
  exact absurd (ok.symm.trans invalid) (by decide)

end Sys2Proof.Machine
end

/-!
Proofs. Status registers that clear by sequence (18 R450): O38.

In order: the read mark of one master, what a write-back clears of the bits above seq, and what a
read and a write-back of a served status register come to.
-/
section
namespace Sys2Proof.Machine
open Sys2Proof

/-! ### The read marks -/

/-- The read mark that a status register keeps for a master. -/
def StatusReg.marked (x : StatusReg) : Master → Bool
  | .pcie _ => x.markPcie
  | .sideband => x.markSb

/-- The status register with one master's read mark put to `b`. -/
def StatusReg.withMark (x : StatusReg) (b : Bool) : Master → StatusReg
  | .pcie _ => { x with markPcie := b }
  | .sideband => { x with markSb := b }

@[simp] theorem StatusReg.marked_withMark (x : StatusReg) (b : Bool) (m : Master) : (x.withMark b m).marked m = b := by
  cases m <;> rfl
@[simp] theorem StatusReg.seq_withMark (x : StatusReg) (b : Bool) (m : Master) : (x.withMark b m).seq = x.seq := by cases m <;> rfl
@[simp] theorem StatusReg.hi_withMark (x : StatusReg) (b : Bool) (m : Master) : (x.withMark b m).hi = x.hi := by cases m <;> rfl

theorem markRead_eq (s : State) (m : Master) (off : Nat) :
    markRead s m off = statusPut s off ((statusOf s off).withMark true m) := by
  cases m <;> rfl

/-! ### The write-back -/

/-- The status register without its flags, which are the lowest `n` bits above seq. -/
def StatusReg.clearFlags (x : StatusReg) (n : Nat) : StatusReg := { x with hi := BitVec.ofNat 16 (x.hi.toNat / 2 ^ n * 2 ^ n) }

theorem StatusReg.getLsbD_clearFlags (x : StatusReg) (n : Nat) {i : Nat} (hi : i < 16) :
    (x.clearFlags n).hi.getLsbD i = (decide (n ≤ i) && x.hi.getLsbD i) := by
  show (BitVec.ofNat 16 _).getLsbD i = _
  rw [BitVec.getLsbD_ofNat, Nat.testBit_mul_two_pow, Nat.testBit_div_two_pow, decide_eq_true hi, Bool.true_and]
  by_cases hn : n ≤ i
  · rw [Nat.sub_add_cancel hn]; rfl
  · rw [decide_eq_false hn, Bool.false_and, Bool.false_and]

theorem statusOf_ibiCheck (s : State) (off : Nat) : statusOf (ibiCheck s) off = statusOf s off := by
  unfold statusOf; rw [regs_status_ibiCheck]

theorem statusWriteBack_eq (s : State) (m : Master) (off d : Nat) : statusWriteBack s m off d =
    if d % 2 ^ 16 ≠ (statusOf s off).seq.toNat || !(statusOf s off).marked m then s
    else ibiCheck (statusPut s off (((statusOf s off).clearFlags (flagCount off)).withMark false m)) := by
  cases m <;> rfl

/-- A write of another value than seq, or one without the writer's mark, changes nothing. -/
theorem statusWriteBack_of_stale {s : State} {m : Master} {off d : Nat}
    (h : d % 2 ^ 16 ≠ (statusOf s off).seq.toNat ∨ (statusOf s off).marked m = false) : statusWriteBack s m off d = s := by
  rw [statusWriteBack_eq, if_pos (by simpa using h)]

theorem statusWriteBack_of_current {s : State} {m : Master} {off d : Nat} (hd : d % 2 ^ 16 = (statusOf s off).seq.toNat)
    (hm : (statusOf s off).marked m = true) :
    statusWriteBack s m off d = ibiCheck (statusPut s off (((statusOf s off).clearFlags (flagCount off)).withMark false m)) := by
  rw [statusWriteBack_eq, hd, hm, if_neg (by simp)]

/-! ### Accesses to a served status register -/

/-- A served access finds power up, and is not one that FENCED_SAFE aborts (R412, R458). -/
theorem served_reaches {s : State} {m : Master} {off : Nat} (h : served s m off = true) :
    s.pins.por = true ∧ (inSafe s && m != .sideband) = false := by
  cases m with
  | pcie r =>
    simp only [served, Bool.and_eq_true, Bool.not_eq_true'] at h
    obtain ⟨hp, ⟨-, hsafe⟩, -⟩ := h
    exact ⟨hp, by rw [hsafe, Bool.false_and]⟩
  | sideband => exact ⟨(Bool.and_eq_true_iff.1 h).1, Bool.and_false _⟩

section Access
variable {s : State} {m : Master} {off : Nat} {r : Reg} (hr : regAt off = some r) (hst : isStatus r = true) (ho : off < 2 ^ 24)
  (hv : served s m off = true)
include hr hst ho hv

theorem busRead_status : busRead m off s =
    markRead (emit s (.readData (BitVec.ofNat 32 (statusOf s off).word))) m off := by
  simp only [busRead, Nat.mod_eq_of_lt ho, (served_reaches hv).1, hv, afterRead, readWord, hr, hst, Bool.not_true, Bool.false_eq_true,
    if_true, if_false]

theorem statusRead_served {n : Nat} (ha : off % 4 = 0) (hn : n ≤ 4) : statusRead m off n s =
    markRead (emit s (.readData (BitVec.ofNat 32 (statusOf s off).word))) m off := by
  obtain ⟨hp, hsafe⟩ := served_reaches hv
  have aligned : off / 4 * 4 = off := by omega
  simp only [statusRead, aligned, Nat.mod_eq_of_lt ho, hr, hst, if_true]
  rw [sizedRead, aligned, if_neg (by simp [hp]), if_neg (by simp [hsafe]), if_neg (by omega), if_pos (by omega), busRead_status hr hst ho hv]

theorem seqWriteBack_served {d : Nat} (hd : d < 2 ^ 32) : seqWriteBack m off d s = statusWriteBack s m off d := by
  have normal : off % 2 ^ 26 = off := Nat.mod_eq_of_lt (by omega)
  simp only [seqWriteBack, Nat.mod_eq_of_lt ho, normal, Nat.mod_eq_of_lt hd, hr, hst, writeWord, hv, decide_true, Bool.and_self, Bool.not_true,
    Bool.false_eq_true, if_true, if_false]

end Access

/-- Settles O38: an event is `statusOf_raise`, and a read and a write-back of a served register are each one put of the register, which
leaves every other one. -/
theorem statusSequence : Obligations.StatusSequence := by
  unfold Obligations.StatusSequence
  intro s m off r hr hst ho st mark
  have hmark : mark = fun x => x.marked m := by funext x; cases m <;> rfl
  rw [hmark]
  refine ⟨fun flags puts => ?_, fun hv => ⟨fun n ha _ hn => ⟨_, rfl, ?_⟩, fun d hd => ⟨fun hseq hm => ⟨_, rfl, ?_⟩, fun h => ⟨_, rfl, ?_⟩⟩⟩⟩
  · rw [statusOf_raise]; exact ⟨rfl, rfl, rfl⟩
  · rw [statusRead_served hr hst ho hv ha hn, markRead_eq]
    simp only [statusOf_statusPut, StatusReg.marked_withMark, StatusReg.seq_withMark, StatusReg.hi_withMark]
    exact ⟨trivial, rfl, rfl, rfl, fun o hne => statusOf_statusPut_ne _ _ hne⟩
  · rw [seqWriteBack_served hr hst ho hv hd, statusWriteBack_of_current hseq hm]
    simp only [statusOf_ibiCheck, statusOf_statusPut, StatusReg.marked_withMark, StatusReg.seq_withMark, StatusReg.hi_withMark]
    exact ⟨rfl, trivial, fun i hi => StatusReg.getLsbD_clearFlags _ _ hi, fun o hne => statusOf_statusPut_ne _ _ hne⟩
  · rw [seqWriteBack_served hr hst ho hv hd, statusWriteBack_of_stale h]

end Sys2Proof.Machine
end
